-- ==== Sys2Proof/Word.lean ====
section
/-! DEFINITION. The word types of the block (R9: little-endian, bit 0 the least significant) and nothing else: every
operation on them stands in Sys2Proof/Machine. -/

namespace Sys2Proof

/-- One byte of memory. -/
abbrev Byte := BitVec 8

/-- A 16-bit field (R68). -/
abbrev W16 := BitVec 16

/-- A register is 32 bits wide (R10). -/
abbrev W32 := BitVec 32

/-- A 64-bit quantity: a SID, an address field, a Frame Time value, a 64-bit register pair (R12). -/
abbrev W64 := BitVec 64

/-- The first 128 bits of a digest (R85). -/
abbrev W128 := BitVec 128

end Sys2Proof
end

