-- ==== Sys2Proof/Syntax.lean ====
section
/-! DEFINITION. The commands of the block: `Instr`, one constructor per row of the command table, and the data that a
command carries (a descriptor of R68, a register access, a message of the fabric, the identity of a timer). Operands are
plain data. -/

namespace Sys2Proof

/-! ## Descriptors (R68) -/

/-- Where a descriptor came from: mailbox `m` of function `fn`, or slot `slot` of ring `r` of function `fn` (R60, R73,
R75). Function 0 is the physical function; virtual function n serves Bed n - 1. -/
inductive Src where
  | mailbox (fn : Fin 17) (m : Fin 16)
  | ring (fn : Fin 17) (r : Fin 256) (slot : Nat)
  deriving DecidableEq, Repr

/-- The issuing function. -/
def Src.fn : Src → Nat
  | .mailbox fn _ => fn
  | .ring fn _ _ => fn

/-- A descriptor with its source (R68); `args` are the ARGS bytes 48 to 63, byte 48 in bits [7:0]. -/
structure Desc where
  src : Src
  opcode : W16 := 0
  ifv : Byte := 0
  flags : Byte := 0
  jobId : W32 := 0
  layerId : W16 := 0
  operatorId : W16 := 0
  rangeMarker : W16 := 0
  tag : W16 := 0
  target : W64 := 0
  addr0 : W64 := 0
  addr1 : W64 := 0
  len0 : W32 := 0
  len1 : W32 := 0
  args : W128 := 0
  deriving DecidableEq, Repr

/-! ## Register accesses (R10 to R13, R61 to R64) -/

/-- The base address register that an access goes through (R61). -/
inductive Bar where
  | bar0 | bar2
  deriving DecidableEq, Repr

/-- An aligned 32-bit access by function `fn` at byte offset `off` of a BAR (R10). `tbit`: the request carries the T bit on the
selective stream bound to the function (R447). -/
structure Access32 where
  fn : Fin 17
  bar : Bar
  off : Nat
  tbit : Bool := false
  deriving DecidableEq, Repr

/-! ## Time messages (R46) -/

/-- The payload of a beacon, a delay request or a delay response (R46). `corr` is a signed count of fraction units. -/
structure TimeMsg where
  version : Nat
  domain : Nat
  sender : Nat
  seq : W16
  time : W64
  corr : W64
  target : Nat
  deriving DecidableEq, Repr

/-! ## Sessions (R96, R97, R102) -/

/-- The STATE of a directory entry (R97); value 7 does not occur. -/
inductive SesState where
  | free | live | paused | parked | dropped | closed | held
  deriving DecidableEq, Repr

/-- The OWN field of a directory entry (R97). -/
inductive Own where
  | confirmed | offered | awaiting | inDoubt
  deriving DecidableEq, Repr

/-- The TIER of a directory entry (R96). -/
inductive Tier where
  | near | cxl | mulch | none
  deriving DecidableEq, Repr

/-- A directory entry (R96). `dslot` is the entry's place in its bucket (R95). `slot` and `furrow` are absent when their
VALID bit is 0, `graft` when GRAFT bit 15 is set. `expiry` is the truncated FT, 0 for none. `recEpoch` and `recNode` are
the home's view of EPOCH and OWNER_NODE when HOME is set: they differ from the owner's while a handoff is decided. -/
structure Entry where
  sid : W64
  dslot : Nat := 0
  state : SesState
  own : Own := .confirmed
  isHome : Bool := false
  isOwner : Bool := false
  bed : Nat := 0
  tier : Tier := .none
  prio : Nat := 0
  ownerNode : Nat := 0
  epoch : W32 := 0
  profile : Nat := 0
  slot : Option Nat := .none
  furrow : Option Nat := .none
  pauseReason : Nat := 0
  position : Nat := 0
  confirmed : Nat := 0
  expiry : Nat := 0
  turnStart : Nat := 0
  kvHandle : W64 := 0
  transcript : W64 := 0
  graft : Option Nat := .none
  recEpoch : W32 := 0
  recNode : Nat := 0
  deriving DecidableEq, Repr

/-- An ownership message (R102). Unused fields are zero; `tokens` follow TRX_APPEND and TRX_DATA, `entry` follows OFFER
and HOME_XFER; `copy` is the transcript copy that HOME_XFER takes along (log entry 97). -/
structure OwnMsg where
  flagNew : Bool := false
  flagRevive : Bool := false
  flagTruncate : Bool := false
  flagRebuild : Bool := false
  code : Nat := 0
  sender : Nat := 0
  seq : W16 := 0
  sid : W64 := 0
  epoch : W32 := 0
  node : Nat := 0
  mapVersion : W32 := 0
  position : Nat := 0
  ft : W64 := 0
  tokens : List W32 := []
  entry : Option Entry := .none
  deriving DecidableEq, Repr

/-- The TYPE of an ownership message (R102, 0x10 to 0x1F in order). -/
inductive OwnType where
  | offer | claim | confirm | refuse | query | answer | renew | renewAck | trxAppend | trxAck | dropNote | closeNote
  | homeXfer | homeXferEnd | trxFetch | trxData
  deriving DecidableEq, Repr

/-! ## Layer exchange (R169 to R178) -/

/-- A position record of LX_STEP (R170): token, parent index or none, SAMPLE. -/
structure PosRec where
  token : W32
  parent : Option Nat := none
  sample : Bool := false
  deriving DecidableEq, Repr

/-- A logit record (R177, R178): full mode carries BF16 bits in `full`, candidate mode pairs of token and FP32 bits. -/
structure LogitRec where
  index : Nat
  head : Nat
  ns : Nat
  mode : Nat
  lse : W32 := 0
  full : List W16 := []
  pairs : List (W32 × W32) := []
  deriving DecidableEq, Repr

/-- The header of a layer exchange message (R169). `step` is the SAMPLE of the step boundary. `typ` is the TYPE of a message received
where it is not that of its command; 0 stands for that of the command. -/
structure LxHdr where
  typ : Nat := 0
  version : Nat := 1
  graft : Bool := false
  last : Bool := false
  code : Nat := 0
  sender : Nat := 0
  slot : Nat := 0
  sid : W64 := 0
  step : Nat := 0
  layer : Nat := 0
  first : Nat := 0
  count : Nat := 0
  length : Nat := 0
  deriving DecidableEq, Repr

/-! ## Output contexts and image transfer (R251, R267, R379) -/

/-- A Furrow entry (R267) without PHASE, which the writer sets. -/
structure FurEntry where
  typ : Nat
  cont : Bool := false
  count : Nat := 0
  position : Nat := 0
  sid : W64 := 0
  ft : W64 := 0
  payload : List Byte := []
  deriving DecidableEq, Repr

/-- The sampling controls of a session (R254, R273, R274). -/
structure Controls where
  temperature : W32 := 0
  topP : W32 := 0
  minP : W32 := 0
  topK : Nat := 0
  seed : W64 := 0
  grammar : Option Nat := none
  maxOutput : Nat := 0
  deriving DecidableEq, Repr

/-- An output context (R251). `ctl` applies now, `next` is what SMP_SET last set; `stops` are bound, `nextStops` wait
for the next turn; `state`, `stack`, `bound` are the Sieve; `held` the bytes of an incomplete character, `matched` the
characters the stop matcher holds back with the positions of their tokens; `wait` the released characters of a token that may
still get more, so that its last TEXT entry is not yet written (R515); `playLog` are segments (first position, play
start, frames), the newest first; `group` are the tokens drawn for the next base positions; `drafts` are (depth, token,
p); `frame` the audio tokens of the frame being gathered, with their positions; `turnToks` are the text tokens of the
turn with their positions; `backlog` waits for Furrow slots, `paused` holds the entries that found the backlog full,
`ice` those of a frozen session (R270), and `drained` counts the entries written from the backlog. -/
structure OutCtx where
  bed : Nat
  sid : W64
  near : List Nat := []
  ctl : Controls := {}
  next : Controls := {}
  stops : List (List Byte) := []
  nextStops : List (List Byte) := []
  turnSeq : Nat := 0
  bound : Option (Nat × W32) := none
  state : Nat := 0
  stack : List Nat := []
  held : List Byte := []
  matched : List (List Byte × Nat) := []
  wait : List (List Byte × Nat) := []
  playLog : List (Nat × W64 × Nat) := []
  group : List W32 := []
  drafts : List (Nat × W32 × W32) := []
  frame : List (Nat × W32) := []
  turnTokens : Nat := 0
  turnAudio : Bool := false
  turnToks : List (Nat × W32) := []
  backlog : List FurEntry := []
  paused : List FurEntry := []
  drained : Nat := 0
  frozen : Bool := false
  ice : List FurEntry := []
  hint : Nat := 0
  parkOrder : Nat := 0
  deriving DecidableEq, Repr

/-- An image-transfer message (R379). `len` is the bytes of OBJECT carried from OFFSET on. What they hold: the output context at
offset 4,096, the pages whose frames begin among them (layer, page, SV, frame bytes), the token IDs of a transcript. -/
structure ImgMsg where
  object : Nat
  sender : Nat
  sid : W64
  epoch : W32
  offset : Nat
  total : Nat
  len : Nat := 0
  position : Nat := 0
  ctx : Option OutCtx := none
  pages : List (Nat × Nat × Bool × List Byte) := []
  toks : List W32 := []
  deriving DecidableEq, Repr

/-- A search message (R345): VS_REQ carries a query record with its vector, VS_RESP with CODE 0 a result record. -/
structure VsMsg where
  version : Nat := 1
  code : Nat := 0
  sender : Nat
  reqId : W16
  shard : W32
  payload : List Byte := []
  deriving DecidableEq, Repr

/-- The TYPE of a memory message (R387). -/
inductive MrType where
  | read | write | acquire | writeback | op | publish | pubRead | recall | resp | recallData
  deriving DecidableEq, Repr

/-- A memory message (R388); `extra` are bytes 47:32, byte 32 in bits [7:0]. -/
structure MrMsg where
  version : Nat := 1
  poison : Bool := false
  keep : Bool := false
  clean : Bool := false
  noLine : Bool := false
  code : Nat := 0
  sender : Nat
  bed : Nat
  target : W32
  reqId : W32 := 0
  offset : Nat := 0
  length : Nat := 0
  versionNo : W32 := 0
  extra : W128 := 0
  data : List Byte := []
  deriving DecidableEq, Repr

/-- The TYPE of a checkpoint message (R407). -/
inductive CkType where
  | notice | prepare | ready | abort | done | commit | fetch | data | dataAck | dataEnd
  deriving DecidableEq, Repr

/-- A checkpoint message (R407). -/
structure CkMsg where
  evict : Bool := false
  code : Nat := 0
  sender : Nat := 0
  bed : Nat := 0
  ckpt : W64
  job : W32 := 0
  cut : W64 := 0
  deadline : W64 := 0
  offset : Nat := 0
  payload : List Byte := []
  deriving DecidableEq, Repr

/-- A copy over Plowald Link that R379 and R407 time: a handoff copy of a session, or a shard (CKPT_ID, Bed) sent to a node. -/
inductive CopyKey where
  | image (sid : W64)
  | shard (dest : Nat) (ckpt : W64) (bed : Nat)
  deriving DecidableEq, Repr

/-- A message that the block forms (R46, R102, R168; the other constructors where their chapters define them). -/
inductive Msg where
  | time (typ : Nat) (m : TimeMsg)
  | own (typ : OwnType) (m : OwnMsg)
  | lxStep (h : LxHdr) (kind tree position : Nat) (recs : List PosRec)
  | lxReturn (h : LxHdr) (fp32 : Bool) (ctx : List (List W32)) (delta : List (List W32))
  | lxTokens (h : LxHdr) (toks : List W32)
  | lxReject (h : LxHdr)
  | lxLayer (h : LxHdr) (payload : List Byte)
  | lxLogits (h : LxHdr) (payload : List Byte)
  | imgData (m : ImgMsg)
  | imgAck (m : ImgMsg)
  | vsReq (m : VsMsg)
  | vsResp (m : VsMsg)
  | mr (typ : MrType) (m : MrMsg)
  | ck (typ : CkType) (m : CkMsg)
  deriving DecidableEq, Repr

/-- A message that waits for MESSAGE_SEND: its destination node, the Bed it belongs to (none: the device), and the port it
must leave on, where the chapter names one (R47). -/
structure OutMsg where
  dest : Nat
  bed : Option Nat := none
  port : Option Nat := none
  msg : Msg
  deriving DecidableEq, Repr

/-! ## Plowald Link (R356, R361, R364) -/

/-- A frame that arrives at a port (R356): its header, whether HCRC and PCRC are correct, whether its tag verifies under the
key it names (R374), the FEC symbols corrected in its codewords and whether one could not be corrected. -/
structure Frame where
  vc : Nat
  enc : Bool := false
  bcast : Bool := false
  typ : Nat
  dest : Nat
  src : Nat
  lseq : Nat
  len : Nat
  seg : Nat := 0
  last : Bool := true
  flow : Nat := 0
  msgId : W32 := 0
  keyId : W32 := 0
  msgLen : Nat
  good : Bool := true
  auth : Bool := true
  fecCorr : Nat := 0
  fecBad : Bool := false
  deriving DecidableEq, Repr

/-- A train block (R361); `good` when its CRC is correct. `credits` are the initial credits of VC 0 to 7. -/
structure Train where
  role : Nat
  node : Nat
  port : Nat
  lanes : Nat
  rates : Nat
  majors : Nat
  minor1 : Nat
  minor2 : Nat
  ack : Bool
  credits : List Nat
  good : Bool := true
  deriving DecidableEq, Repr

/-- A link-control block that arrives (R364); `good` when its CRC is correct. -/
structure CtlBlock where
  nak : Bool
  seq : Nat
  returned : List Nat
  good : Bool := true
  deriving DecidableEq, Repr

/-! ## Faults (R458, R464) -/

/-- A detection that a block reports (R464): `level` counts only for a SOURCE that has several. `bed` is absent for none. `tagFail`
tells a line whose tag failed (R440) from another poisoned line, both of SOURCE 0x0013. -/
structure Detect where
  source : Nat
  level : Nat := 0
  bed : Option Nat := none
  location : Nat := 0
  address : W64 := 0
  space : Nat := 0
  access : Nat := 0
  master : Nat := 0
  jobId : W32 := 0
  sid : W64 := 0
  detail : W32 := 0
  tagFail : Bool := false
  deriving DecidableEq, Repr

/-- The end of a built-in test (R467): of a unit, or of a region with the units of it (0 to 63) that failed. -/
inductive TestEnd where
  | unit (u : Nat) (pass : Bool)
  | region (r : Nat) (failed : List Nat)
  deriving DecidableEq, Repr

/-! ## Security (R447, R451) -/

/-- A TDISP request (R447): lock on a selective stream, start, stop, and the interface report. -/
inductive Tdisp where
  | lock (stream : Nat) | start | stop | report
  deriving DecidableEq, Repr

/-- An SPDM request (R448, R452), and the IDE_KM requests within a session (R446). Request bytes whose layout is DMTF's are carried
as they are. -/
inductive SpdmReq where
  | version | capabilities | algorithms (b : List Byte) | digests | certificate (off len : Nat)
  | challenge (b : List Byte) | measurements (index : Nat) (sign : Bool) | keyExchange (b : List Byte) | endSession
  | ideKey (stream : Nat) | ideStop (stream : Nat)
  deriving DecidableEq, Repr

/-! ## Stacks and replicas (R278, R52) -/

/-- A replica that can lose time words: a region's, or a die service's. -/
inductive ReplicaOf where
  | region (r : Nat) | die (q : Nat)
  deriving DecidableEq, Repr

/-- The commands of the block: one constructor per row of the command table: the opcodes of descriptors, then the other rows with
operands, then those without. -/
inductive Instr where
  /-- IF_OPEN (R79) -/
  | ifOpen (d : Desc)
  /-- IF_CLOSE (R77) -/
  | ifClose (d : Desc)
  /-- RING_CREATE (R75) -/
  | ringCreate (d : Desc)
  /-- RING_DESTROY (R77) -/
  | ringDestroy (d : Desc)
  /-- NOP (R72) -/
  | nop (d : Desc)
  /-- JOURNAL_READ (R89) -/
  | journalRead (d : Desc)
  /-- SES_OPEN (R98) -/
  | sesOpen (d : Desc)
  /-- SES_CLOSE (R98) -/
  | sesClose (d : Desc)
  /-- SES_PAUSE (R98) -/
  | sesPause (d : Desc)
  /-- SES_RESUME (R98) -/
  | sesResume (d : Desc)
  /-- SES_PARK (R513) -/
  | sesPark (d : Desc)
  /-- SES_CUT (R114) -/
  | sesCut (d : Desc)
  /-- SES_MOVE (R104) -/
  | sesMove (d : Desc)
  /-- SES_ACCEPT (R104) -/
  | sesAccept (d : Desc)
  /-- SES_QUERY (R514) -/
  | sesQuery (d : Desc)
  /-- SES_SET_LIMIT (R117) -/
  | sesSetLimit (d : Desc)
  /-- SES_MAP_LOAD (R94) -/
  | sesMapLoad (d : Desc)
  /-- SCH_PROFILE_LOAD (R122) -/
  | schProfileLoad (d : Desc)
  /-- SCH_PROFILE_UNLOAD (R122) -/
  | schProfileUnload (d : Desc)
  /-- SCH_SLOT_READ (R138) -/
  | schSlotRead (d : Desc)
  /-- SCH_SET_SEQ (R138) -/
  | schSetSeq (d : Desc)
  /-- GRAFT_LOAD (R181) -/
  | graftLoad (d : Desc)
  /-- GRAFT_DROP (R187) -/
  | graftDrop (d : Desc)
  /-- GRAFT_STOW (R186) -/
  | graftStow (d : Desc)
  /-- GRAFT_BIND (R187) -/
  | graftBind (d : Desc)
  /-- LX_GROUP_SET (R190) -/
  | lxGroupSet (d : Desc)
  /-- GRAFT_QUOTA (R190) -/
  | graftQuota (d : Desc)
  /-- GRAFT_QUERY (R190) -/
  | graftQuery (d : Desc)
  /-- KV_MAP (R222) -/
  | kvMap (d : Desc)
  /-- KV_UNMAP (R222) -/
  | kvUnmap (d : Desc)
  /-- KV_SEQ_SET (R222) -/
  | kvSeqSet (d : Desc)
  /-- KV_PREFIX_FLUSH (R222) -/
  | kvPrefixFlush (d : Desc)
  /-- KV_PAGE_QUERY (R222) -/
  | kvPageQuery (d : Desc)
  /-- IN_SUBMIT (R235) -/
  | inSubmit (d : Desc)
  /-- IN_TABLE_LOAD (R243) -/
  | inTableLoad (d : Desc)
  /-- IN_TABLE_UNLOAD (R246) -/
  | inTableUnload (d : Desc)
  /-- IN_TOKENIZE (R248) -/
  | inTokenize (d : Desc)
  /-- FUR_CREATE (R274) -/
  | furCreate (d : Desc)
  /-- FUR_DESTROY (R274) -/
  | furDestroy (d : Desc)
  /-- SMP_SET (R274) -/
  | smpSet (d : Desc)
  /-- SMP_STOP_SET (R265) -/
  | smpStopSet (d : Desc)
  /-- SMP_GRAMMAR_LOAD (R274) -/
  | smpGrammarLoad (d : Desc)
  /-- SMP_GRAMMAR_UNLOAD (R274) -/
  | smpGrammarUnload (d : Desc)
  /-- TIER_QUOTA (R301) -/
  | tierQuota (d : Desc)
  /-- TIER_HINT (R300) -/
  | tierHint (d : Desc)
  /-- TIER_SET_QUERY (R301) -/
  | tierSetQuery (d : Desc)
  /-- CXL_EXTENT_ADD (R295) -/
  | cxlExtentAdd (d : Desc)
  /-- CXL_EXTENT_RELEASE (R296) -/
  | cxlExtentRelease (d : Desc)
  /-- CXL_EXTENT_LOST (R297) -/
  | cxlExtentLost (d : Desc)
  /-- FL_DISCARD_SYNC (R322) -/
  | flDiscardSync (d : Desc)
  /-- FL_KEEP_READ (R329) -/
  | flKeepRead (d : Desc)
  /-- VS_PUBLISH (R331) -/
  | vsPublish (d : Desc)
  /-- VS_UNLOAD (R337) -/
  | vsUnload (d : Desc)
  /-- VS_QUERY (R347) -/
  | vsQuery (d : Desc)
  /-- VS_DELETE (R338) -/
  | vsDelete (d : Desc)
  /-- VS_SHARE (R345) -/
  | vsShare (d : Desc)
  /-- VS_INFO (R348) -/
  | vsInfo (d : Desc)
  /-- PLW_KEY_LOAD (R370) -/
  | plwKeyLoad (d : Desc)
  /-- PLW_KEY_SEND (R370) -/
  | plwKeySend (d : Desc)
  /-- PLW_KEY_DROP (R370) -/
  | plwKeyDrop (d : Desc)
  /-- EXP_CREATE (R384) -/
  | expCreate (d : Desc)
  /-- EXP_REVOKE (R394) -/
  | expRevoke (d : Desc)
  /-- EXP_NODE_LOST (R393) -/
  | expNodeLost (d : Desc)
  /-- MEM_FILL (R395) -/
  | memFill (d : Desc)
  /-- MEM_COPY (R397) -/
  | memCopy (d : Desc)
  /-- MEM_COMPARE (R395) -/
  | memCompare (d : Desc)
  /-- MEM_REDUCE (R395) -/
  | memReduce (d : Desc)
  /-- EXP_PUBLISH (R398) -/
  | expPublish (d : Desc)
  /-- EXP_WITHDRAW (R399) -/
  | expWithdraw (d : Desc)
  /-- MEM_HINT (R401) -/
  | memHint (d : Desc)
  /-- EXP_QUERY (R402) -/
  | expQuery (d : Desc)
  /-- CK_ARM (R404) -/
  | ckArm (d : Desc)
  /-- CK_START (R405) -/
  | ckStart (d : Desc)
  /-- CK_RESTORE (R419) -/
  | ckRestore (d : Desc)
  /-- CK_RESTORE_COMMIT (R422) -/
  | ckRestoreCommit (d : Desc)
  /-- CK_RESTORE_CANCEL (R421) -/
  | ckRestoreCancel (d : Desc)
  /-- CK_SHARD_FREE (R414) -/
  | ckShardFree (d : Desc)
  /-- CK_REGROUP (R424) -/
  | ckRegroup (d : Desc)
  /-- CK_MANIFEST_READ (R417) -/
  | ckManifestRead (d : Desc)
  /-- SEC_OWNER_ENROLL (R433) -/
  | secOwnerEnroll (d : Desc)
  /-- SEC_BUNDLE_LOAD (R436) -/
  | secBundleLoad (d : Desc)
  /-- SEC_PARTITION_RESET (R444) -/
  | secPartitionReset (d : Desc)
  /-- SEC_NONCE (R445) -/
  | secNonce (d : Desc)
  /-- SEC_ZEROIZE (R445) -/
  | secZeroize (d : Desc)
  /-- SEC_CERT_READ (R448) -/
  | secCertRead (d : Desc)
  /-- SEC_MEASURE (R449) -/
  | secMeasure (d : Desc)
  /-- FLT_LOG_READ (R471) -/
  | fltLogRead (d : Desc)
  /-- FLT_UNIT_UNFENCE (R467) -/
  | fltUnitUnfence (d : Desc)
  /-- FLT_REGION_RECOVER (R467) -/
  | fltRegionRecover (d : Desc)
  /-- TRC_MARK (R489) -/
  | trcMark (d : Desc)
  /-- CTR_SNAPSHOT (R489) -/
  | ctrSnapshot (d : Desc)
  /-- PAIR_LOWER_READ (R12) -/
  | pairLowerRead (a : Access32)
  /-- PAIR_LOWER_WRITE (R12) -/
  | pairLowerWrite (a : Access32) (v : W32)
  /-- PAIR_UPPER_WRITE (R12) -/
  | pairUpperWrite (a : Access32) (v : W32)
  /-- RC_READ (R13) -/
  | rcRead (a : Access32) (set : W32)
  /-- W1C_WRITE (R82) -/
  | w1cWrite (a : Access32) (v : W32) (hw : W32)
  /-- INT_ENABLE_WRITE (R82) -/
  | intEnableWrite (a : Access32) (v : W32)
  /-- REGISTER_WRITE (R13) -/
  | registerWrite (a : Access32) (v : W32)
  /-- BEACON (R47) -/
  | beacon (p : Fin 8) (m : TimeMsg)
  /-- DELAY_RESPONSE (R47) -/
  | delayResponse (m : TimeMsg)
  /-- FT_HOST_COMMIT (R48) -/
  | ftHostCommit (v : W64)
  /-- FT_SOURCE_WRITE (R44) -/
  | ftSourceWrite (v : Fin 4)
  /-- TIME_WORD (R49) -/
  | timeWord (dt : Nat)
  /-- REPLICA_WORD_LOSS (R52) -/
  | replicaWordLoss (x : ReplicaOf)
  /-- REPLICA_RESYNC (R51) -/
  | replicaResync (r : Fin 16)
  /-- GATE_REQ (R31) -/
  | gateReq (r : Fin 16) (on : Bool)
  /-- REGION_CLOCK_STOP (R31) -/
  | regionClockStop (r : Fin 16)
  /-- REGION_CLOCK_RESTART (R32) -/
  | regionClockRestart (r : Fin 16)
  /-- SUPPLY_DROOP (R30) -/
  | supplyDroop (r : Fin 16) (mhz : Nat)
  /-- RING_DRAIN_COMPLETE (R77) -/
  | ringDrainComplete (fn : Fin 17) (r : Fin 256)
  /-- MAILBOX_GO (R73) -/
  | mailboxGo (fn : Fin 17) (m : Fin 16)
  /-- RING_DOORBELL (R76) -/
  | ringDoorbell (fn : Fin 17) (r : Fin 256) (v : W16)
  /-- DESCRIPTOR_FETCH (R76) -/
  | descriptorFetch (fn : Fin 17) (r : Fin 256)
  /-- RING_IRQ_DELAY (R81) -/
  | ringIrqDelay (fn : Fin 17) (r : Fin 256)
  /-- FUNCTION_LEVEL_RESET (R78) -/
  | functionLevelReset (fn : Fin 17)
  /-- OFFER (R104) -/
  | offer (m : OwnMsg)
  /-- CLAIM (R103) -/
  | claim (m : OwnMsg)
  /-- CONFIRM (R104) -/
  | confirm (m : OwnMsg)
  /-- REFUSE (R104) -/
  | refuse (m : OwnMsg)
  /-- QUERY (R105) -/
  | query (m : OwnMsg)
  /-- ANSWER (R105) -/
  | answer (m : OwnMsg)
  /-- RENEW (R107) -/
  | renew (m : OwnMsg)
  /-- RENEW_ACK (R108) -/
  | renewAck (m : OwnMsg)
  /-- TRX_APPEND (R109) -/
  | trxAppend (m : OwnMsg)
  /-- TRX_ACK (R109) -/
  | trxAck (m : OwnMsg)
  /-- DROP_NOTE (R99) -/
  | dropNote (m : OwnMsg)
  /-- CLOSE_NOTE (R99) -/
  | closeNote (m : OwnMsg)
  /-- HOME_XFER (R94) -/
  | homeXfer (m : OwnMsg)
  /-- HOME_XFER_END (R94) -/
  | homeXferEnd (m : OwnMsg)
  /-- TRX_FETCH (R110) -/
  | trxFetch (m : OwnMsg)
  /-- TRX_DATA (R110) -/
  | trxData (m : OwnMsg)
  /-- HOME_XFER_RESEND (R94) -/
  | homeXferResend (bucket : Fin 4096)
  /-- HOME_XFER_TIMEOUT (R94) -/
  | homeXferTimeout (bucket : Fin 4096)
  /-- NOTE_RESEND (R99) -/
  | noteResend (sid : W64)
  /-- OWNERSHIP_QUERY_TIMER (R105) -/
  | ownershipQueryTimer (sid : W64)
  /-- RENEW_SEND (R107) -/
  | renewSend (home : Fin 512)
  /-- LEASE_GUARD_EXPIRY (R108) -/
  | leaseGuardExpiry (home : Fin 512)
  /-- LEASE_EXPIRY (R108) -/
  | leaseExpiry (owner : Fin 512)
  /-- HOME_UNREACHABLE_TIMEOUT (R117) -/
  | homeUnreachableTimeout (sid : W64)
  /-- TTL_PAUSED_EXPIRY (R98) -/
  | ttlPausedExpiry (sid : W64)
  /-- TTL_CXL_EXPIRY (R98) -/
  | ttlCxlExpiry (sid : W64)
  /-- TTL_MULCH_EXPIRY (R98) -/
  | ttlMulchExpiry (sid : W64)
  /-- TTL_DROPPED_EXPIRY (R98) -/
  | ttlDroppedExpiry (sid : W64)
  /-- TOMBSTONE_EXPIRY (R98) -/
  | tombstoneExpiry (sid : W64)
  /-- STEP_BOUNDARY (R127) -/
  | stepBoundary (bed : Fin 16) (pid : W16)
  /-- LX_LAYER (R175) -/
  | lxLayer (h : LxHdr) (payload : List Byte)
  /-- LX_RETURN (R173) -/
  | lxReturn (sid : W64)
  /-- LX_LOGITS (R177) -/
  | lxLogits (h : LxHdr) (payload : List Byte)
  /-- ENTRY_ABANDON (R176) -/
  | entryAbandon (sid : W64)
  /-- ENTRY_SAMPLING (R260) -/
  | entrySampling (sid : W64)
  /-- PREFILL_CHUNK_COMPLETE (R134) -/
  | prefillChunkComplete (sid : W64)
  /-- GRAFT_LAYER_RESIDENT (R186) -/
  | graftLayerResident (bed : Fin 16) (id : W16)
  /-- PFX_ENABLE_WRITE (R223) -/
  | pfxEnableWrite (bed : Fin 16) (v : W32)
  /-- KV_COPY_PASS (R219) -/
  | kvCopyPass (sid : W64)
  /-- TOKENIZE_CHUNK (R242) -/
  | tokenizeChunk (q : Fin 4) (sid : W64)
  /-- FURROW_HEAD_WRITE (R266) -/
  | furrowHeadWrite (bed : Fin 16) (v : W32)
  /-- FURROW_BACKLOG_DRAIN (R271) -/
  | furrowBacklogDrain (sid : W64)
  /-- FURROW_IRQ_DELAY (R266) -/
  | furrowIrqDelay (furrow : W16)
  /-- EXTENT_RELEASE_COMPLETE (R296) -/
  | extentReleaseComplete (port : Fin 4) (ix : Nat)
  /-- MOVE_PIECE (R290) -/
  | movePiece (ix : Nat)
  /-- MOVE_COMPLETE (R291) -/
  | moveComplete (ix : Nat)
  /-- BACKING_EXPIRY (R293) -/
  | backingExpiry (ix : Nat)
  /-- CXL_LINK_DOWN (R297) -/
  | cxlLinkDown (port : Fin 4)
  /-- CXL_POISON_READ (R298) -/
  | cxlPoisonRead (port : Fin 4) (ix : Nat)
  /-- CXL_ENABLE (R303) -/
  | cxlEnable (port : Fin 4) (on : Bool)
  /-- HDM_COMMIT (R284) -/
  | hdmCommit (port : Fin 4) (k : Fin 8) (on : Bool)
  /-- CXL_IO_GO (R303) -/
  | cxlIoGo (port : Fin 4) (v : W32)
  /-- CXL_IO_DONE (R303) -/
  | cxlIoDone (port : Fin 4) (result : Fin 4) (data : W32)
  /-- CXL_DEVICE_EVENT (R303) -/
  | cxlDeviceEvent (port : Fin 4)
  /-- CXL_RAKE_BLOCK (R282) -/
  | cxlRakeBlock (port : Fin 4) (ix : Nat) (bad : Bool)
  /-- RAKE_STRIPE (R282) -/
  | rakeStripe (r : Fin 16) (inner : Nat) (wrong : List (Nat × Nat))
  /-- SPARE_NOW (R280) -/
  | spareNow (r : Fin 16) (die : Fin 16)
  /-- SPARE_STRIPE_COPY (R280) -/
  | spareStripeCopy (r : Fin 16) (inner : Nat) (wrong : List (Nat × Nat))
  /-- APPEND_LOG_PROGRAM (R317) -/
  | appendLogProgram (c : Fin 8)
  /-- COMPOST_COPY (R318) -/
  | compostCopy (c : Fin 8)
  /-- COMPOST_COPY_COMPLETE (R319) -/
  | compostCopyComplete (c : Fin 8)
  /-- FLASH_RAKE_PAGE (R321) -/
  | flashRakePage (c : Fin 8) (corrected : Nat) (bad : Bool)
  /-- FLASH_OP_FAILURE (R309) -/
  | flashOpFailure (c : Fin 8) (phys : Nat)
  /-- BLOCK_ERASE (R318) -/
  | blockErase (c : Fin 8) (phys : Nat)
  /-- KEEP_STORE_LOAD (R326) -/
  | keepStoreLoad (failed : List (Fin 8))
  /-- VS_WALK_COMPLETE (R342) -/
  | vsWalkComplete (ix : Nat)
  /-- VS_REQ (R345) -/
  | vsReq (m : VsMsg)
  /-- VS_RESP (R346) -/
  | vsResp (m : VsMsg)
  /-- SHARD_TIMEOUT (R346) -/
  | shardTimeout (ix : Nat)
  /-- PLW_ENABLE (R360) -/
  | plwEnable (p : Fin 8) (on : Bool)
  /-- LANE_LOCK (R360) -/
  | laneLock (p : Fin 8) (lanes : Byte)
  /-- TRAIN_BLOCK (R361) -/
  | trainBlock (p : Fin 8) (t : Train)
  /-- PORT_TRAINING_TIMEOUT (R360) -/
  | portTrainingTimeout (p : Fin 8)
  /-- LANE_LOST (R360) -/
  | laneLost (p : Fin 8) (lanes : Byte) (allSignal : Bool)
  /-- RETRAIN_RELOCK (R360) -/
  | retrainRelock (p : Fin 8) (lanes : Byte)
  /-- DOWN_RETRY (R360) -/
  | downRetry (p : Fin 8)
  /-- FRAME_RECEIVE (R366) -/
  | frameReceive (p : Fin 8) (f : Frame)
  /-- LINK_CONTROL_BLOCK (R364) -/
  | linkControlBlock (p : Fin 8) (c : CtlBlock)
  /-- LINK_CONTROL_SEND (R364) -/
  | linkControlSend (p : Fin 8)
  /-- FRAME_SEND (R365) -/
  | frameSend (p : Fin 8)
  /-- REASSEMBLY_TIMEOUT (R358) -/
  | reassemblyTimeout (p : Fin 8)
  /-- QUEUE_SAMPLE (R377) -/
  | queueSample (p : Fin 8)
  /-- IMG_DATA (R379) -/
  | imgData (m : ImgMsg)
  /-- IMG_ACK (R379) -/
  | imgAck (m : ImgMsg)
  /-- IMG_RESEND_TIMER (R379) -/
  | imgResendTimer (k : CopyKey)
  /-- IMG_GIVE_UP (R379) -/
  | imgGiveUp (k : CopyKey)
  /-- MR_READ (R389) -/
  | mrRead (m : MrMsg) (key : Option W32)
  /-- MR_WRITE (R389) -/
  | mrWrite (m : MrMsg) (key : Option W32)
  /-- MR_ACQUIRE (R391) -/
  | mrAcquire (m : MrMsg) (key : Option W32)
  /-- MR_WRITEBACK (R391) -/
  | mrWriteback (m : MrMsg) (key : Option W32)
  /-- MR_OP (R395) -/
  | mrOp (m : MrMsg) (key : Option W32)
  /-- MR_PUBLISH (R398) -/
  | mrPublish (m : MrMsg) (key : Option W32)
  /-- MR_PUB_READ (R399) -/
  | mrPubRead (m : MrMsg) (key : Option W32)
  /-- MR_RECALL_DATA (R392) -/
  | mrRecallData (m : MrMsg)
  /-- MR_RESP (R397) -/
  | mrResp (m : MrMsg)
  /-- RECALL_TIMEOUT (R393) -/
  | recallTimeout (bed : Fin 16) (id : W32)
  /-- REMOTE_COPY_TIMEOUT (R397) -/
  | remoteCopyTimeout (id : W32)
  /-- GRANULE_MIGRATE (R401) -/
  | granuleMigrate (bed : Fin 16)
  /-- CK_NOTICE (R405) -/
  | ckNotice (m : CkMsg)
  /-- CK_PREPARE (R408) -/
  | ckPrepare (m : CkMsg)
  /-- CK_READY (R408) -/
  | ckReady (m : CkMsg)
  /-- CK_ABORT (R416) -/
  | ckAbort (m : CkMsg)
  /-- CK_DONE (R415) -/
  | ckDone (m : CkMsg)
  /-- CK_COMMIT (R418) -/
  | ckCommit (m : CkMsg)
  /-- CK_FETCH (R407) -/
  | ckFetch (m : CkMsg)
  /-- CK_DATA (R407) -/
  | ckData (m : CkMsg)
  /-- CK_DATA_ACK (R407) -/
  | ckDataAck (m : CkMsg)
  /-- CK_DATA_END (R407) -/
  | ckDataEnd (m : CkMsg)
  /-- CK_CUT (R408) -/
  | ckCut (bed : Fin 16)
  /-- SHARD_WRITE_COMPLETE (R414) -/
  | shardWriteComplete (bed : Fin 16)
  /-- CK_DEADLINE (R416) -/
  | ckDeadline (bed : Fin 16)
  /-- CK_ORPHAN_TIMEOUT (R416) -/
  | ckOrphanTimeout (bed : Fin 16)
  /-- CK_STAGE_TTL_EXPIRY (R421) -/
  | ckStageTtlExpiry (bed : Fin 16)
  /-- RESTORE_LAYER_RESIDENT (R423) -/
  | restoreLayerResident (sid : W64) (readable : Bool)
  /-- SELFTEST_COMPLETE (R432) -/
  | selftestComplete (pass : Bool)
  /-- IDE_INTEGRITY_FAILURE (R446) -/
  | ideIntegrityFailure (ix : Nat)
  /-- TDISP_REQUEST (R447) -/
  | tdispRequest (bed : Fin 16) (r : Tdisp)
  /-- SPDM_REQUEST (R451) -/
  | spdmRequest (oob : Bool) (r : SpdmReq)
  /-- MCTP_JOURNAL_READ (R452) -/
  | mctpJournalRead (start : W32)
  /-- FAULT_READ (R470) -/
  | faultRead (start : W32)
  /-- ZEROIZE (R452) -/
  | zeroize (token : List Byte)
  /-- UNIT_TEST_COMPLETE (R467) -/
  | unitTestComplete (e : TestEnd)
  /-- FAULT_DETECT (R458) -/
  | faultDetect (f : Detect)
  /-- UNIT_WATCHDOG (R458) -/
  | unitWatchdog (u : Fin 1024) (sid : W64)
  /-- FLT_FIRST_ARM (R465) -/
  | fltFirstArm (v : W32)
  /-- FLT_BED_FIRST_ARM (R473) -/
  | fltBedFirstArm (bed : Fin 16) (v : W32)
  /-- FLT_INJECT (R472) -/
  | fltInject (v : W32)
  /-- CTR_CLEAR (R476) -/
  | ctrClear (set : Fin 48)
  /-- CTR_RUN (R476) -/
  | ctrRun (set : Fin 48) (run : Bool)
  /-- CTR_GRANT (R477) -/
  | ctrGrant (beds : W16)
  /-- TRACE_RECORD_WRITE (R485) -/
  | traceRecordWrite (buffer : Fin 5)
  /-- TRACE_HEAD_WRITE (R486) -/
  | traceHeadWrite (fn : Fin 17) (v : W32)
  /-- POWER_ON_RESET_RELEASE (R504) -/
  | powerOnResetRelease (strap : Nat)
  /-- STACK_TRAINING_COMPLETE (R504) -/
  | stackTrainingComplete (mask : W16)
  /-- THERMAL_WARNING (R498) -/
  | thermalWarning (cls : Fin 4) (sensor : Byte)
  /-- HUB_RESET_CTRL (R503) -/
  | hubResetCtrl (v : W32)
  /-- HUB_REGION_RESET (R505) -/
  | hubRegionReset (mask : W16)
  /-- CXL_LINK_UP (R303) -/
  | cxlLinkUp (port : Fin 4) (width : Nat) (rate : Nat)
  /-- THERMAL_WARNING_END (R498) -/
  | thermalWarningEnd (cls : Fin 4) (sensor : Byte)
  /-- DELAY_REQUEST (R47) -/
  | delayRequest
  /-- EXCHANGE_ABANDON (R47) -/
  | exchangeAbandon
  /-- SLEW_END (R508) -/
  | slewEnd
  /-- FT_BEACON_TIMEOUT (R44) -/
  | ftBeaconTimeout
  /-- HOLDOVER_EXPIRED (R44) -/
  | holdoverExpired
  /-- STEP_NOW (R43) -/
  | stepNow
  /-- KEEP_STORE_PROGRAM (R326) -/
  | keepStoreProgram
  /-- REBUILD_WINDOW_END (R112) -/
  | rebuildWindowEnd
  /-- MESSAGE_SEND (R371) -/
  | messageSend
  /-- ZEROIZE_NONCE_LAPSE (R445) -/
  | zeroizeNonceLapse
  /-- DRBG_HEALTH_FAILURE (R432) -/
  | drbgHealthFailure
  /-- HEALTH_READ (R470) -/
  | healthRead
  /-- ZEROIZE_NONCE (R452) -/
  | zeroizeNonce
  /-- CTR_GLOBAL_START (R477) -/
  | ctrGlobalStart
  /-- CTR_GLOBAL_STOP (R477) -/
  | ctrGlobalStop
  /-- POWER_ON (R495) -/
  | powerOn
  /-- MEMORY_READY (R504) -/
  | memoryReady
  /-- VIN_LOW (R495) -/
  | vinLow
  /-- VIN_HIGH (R495) -/
  | vinHigh
  /-- VIN_OVERVOLTAGE (R495) -/
  | vinOvervoltage
  /-- POWER_LOSS (R497) -/
  | powerLoss
  /-- THERMAL_SHUTDOWN (R498) -/
  | thermalShutdown
  /-- DEVICE_RESET (R505) -/
  | deviceReset
  /-- PERST (R503) -/
  | perst
  /-- HOST_LINK_UP (R504) -/
  | hostLinkUp
  /-- HOST_LINK_DOWN (R430) -/
  | hostLinkDown
  /-- DEV_RESET_N_ASSERT (R503) -/
  | devResetNAssert
  deriving DecidableEq, Repr

end Sys2Proof
end

