-- ==== Sys2Proof/WellFormed.lean ====
section
/-! DEFINITION. Which terms of `Instr` are commands that can be sent: a descriptor carries the opcode of its row and a slot of its
ring, an access is aligned and within its BAR, and each field of a message fits its place in the message. -/

namespace Sys2Proof

/-- A number fits in `n` bits. -/
def fits (n v : Nat) : Bool := Nat.blt v (2 ^ n)

/-- A descriptor of an opcode (R68, R74): a ring slot is below 65,536, the largest ring. -/
def Desc.wf (d : Desc) (op : Nat) : Bool :=
  d.opcode.toNat == op && (match d.src with | .mailbox _ _ => true | .ring _ _ slot => fits 16 slot)

/-- The bytes of a BAR (R61). -/
def barSize (fn : Nat) : Bar → Nat
  | .bar0 => if fn = 0 then 0x4000000 else 0x100000
  | .bar2 => 0x20000

/-- An aligned access within its BAR (R10, R61). -/
def Access32.wf (a : Access32) : Bool := a.off % 4 == 0 && Nat.blt a.off (barSize a.fn a.bar)

/-- A time message (R46). -/
def TimeMsg.wf (m : TimeMsg) : Bool :=
  fits 8 m.version && fits 8 m.domain && fits 9 m.sender && fits 16 m.target

/-- An ownership message (R102): at most 64 token IDs follow its header. -/
def OwnMsg.wf (m : OwnMsg) : Bool :=
  fits 8 m.code && fits 9 m.sender && fits 16 m.node && fits 32 m.position && Nat.ble m.tokens.length 64

/-- A layer exchange header (R169). -/
def LxHdr.wf (h : LxHdr) : Bool :=
  fits 8 h.version && fits 8 h.code && fits 9 h.sender && fits 16 h.slot && fits 40 h.step && fits 16 h.layer &&
  fits 16 h.first && fits 16 h.count && fits 32 h.length

/-- A search message (R345). -/
def VsMsg.wf (m : VsMsg) : Bool :=
  fits 8 m.version && fits 8 m.code && fits 9 m.sender && fits 32 m.payload.length

/-- A memory message (R388). -/
def MrMsg.wf (m : MrMsg) : Bool :=
  fits 8 m.version && fits 8 m.code && fits 9 m.sender && fits 8 m.bed && fits 64 m.offset && fits 32 m.length

/-- A checkpoint message (R407). -/
def CkMsg.wf (m : CkMsg) : Bool :=
  fits 8 m.code && fits 9 m.sender && fits 8 m.bed && fits 64 m.offset && fits 32 m.payload.length

/-- An image-transfer message (R379): OBJECT is 0 or 1. -/
def ImgMsg.wf (m : ImgMsg) : Bool :=
  fits 1 m.object && fits 9 m.sender && fits 64 m.offset && fits 64 m.total && fits 24 m.len

/-- A frame (R356): payload of at most 4,096 bytes, a message of at most 16 MiB. -/
def Frame.wf (f : Frame) : Bool :=
  fits 3 f.vc && fits 8 f.typ && fits 9 f.dest && fits 9 f.src && fits 16 f.lseq && Nat.ble f.len 4096 && fits 14 f.seg &&
  fits 16 f.flow && Nat.ble 1 f.msgLen && Nat.ble f.msgLen 16777216

/-- A train block (R361): the credits of eight VCs. -/
def Train.wf (t : Train) : Bool :=
  fits 8 t.role && fits 16 t.node && fits 8 t.port && fits 8 t.lanes && fits 8 t.rates && fits 8 t.majors && fits 8 t.minor1 &&
  fits 8 t.minor2 && t.credits.length == 8 && t.credits.all (fits 16)

/-- A link-control block (R364). -/
def CtlBlock.wf (c : CtlBlock) : Bool := fits 16 c.seq && c.returned.length == 8 && c.returned.all (fits 16)

/-- A detection (R464). -/
def Detect.wf (f : Detect) : Bool :=
  fits 16 f.source && Nat.ble f.level 4 && (f.bed.all fun b => Nat.blt b 16) && fits 16 f.location && Nat.ble f.space 6 &&
  Nat.ble f.access 5 && fits 16 f.master

/-- The end of a test (R467): 1,024 units, 16 regions of 64 units. -/
def TestEnd.wf : TestEnd → Bool
  | .unit u _ => Nat.blt u 1024
  | .region r failed => Nat.blt r 16 && failed.all fun u => Nat.blt u 64

/-- A copy (R379, R407): node IDs have 9 bits, Beds 4. -/
def CopyKey.wf : CopyKey → Bool
  | .image _ => true
  | .shard dest _ bed => fits 9 dest && fits 4 bed

/-- A replica (R49): 16 regions, 4 dies. -/
def ReplicaOf.wf : ReplicaOf → Bool
  | .region r => Nat.blt r 16
  | .die q => Nat.blt q 4

/-- A byte that a die returns wrong (R277): 16 dies, 16 bytes of a stripe on each. -/
def wrongWf (x : Nat × Nat) : Bool := Nat.blt x.1 16 && Nat.blt x.2 16

/-- A TDISP request (R447): a selective stream ID has 8 bits. -/
def Tdisp.wf : Tdisp → Bool
  | .lock stream => fits 8 stream
  | _ => true

/-- The descriptor of a command that is an opcode's row, with the opcode. -/
def Instr.desc? : Instr → Option (Desc × Nat)
  | .ifOpen d => some (d, 0x0001)
  | .ifClose d => some (d, 0x0002)
  | .ringCreate d => some (d, 0x0010)
  | .ringDestroy d => some (d, 0x0011)
  | .nop d => some (d, 0x0020)
  | .journalRead d => some (d, 0x0030)
  | .sesOpen d => some (d, 0x0100)
  | .sesClose d => some (d, 0x0101)
  | .sesPause d => some (d, 0x0102)
  | .sesResume d => some (d, 0x0103)
  | .sesPark d => some (d, 0x0104)
  | .sesCut d => some (d, 0x0105)
  | .sesMove d => some (d, 0x0106)
  | .sesAccept d => some (d, 0x0107)
  | .sesQuery d => some (d, 0x0108)
  | .sesSetLimit d => some (d, 0x0109)
  | .sesMapLoad d => some (d, 0x010A)
  | .schProfileLoad d => some (d, 0x0200)
  | .schProfileUnload d => some (d, 0x0201)
  | .schSlotRead d => some (d, 0x0202)
  | .schSetSeq d => some (d, 0x0203)
  | .graftLoad d => some (d, 0x0300)
  | .graftDrop d => some (d, 0x0301)
  | .graftStow d => some (d, 0x0302)
  | .graftBind d => some (d, 0x0303)
  | .lxGroupSet d => some (d, 0x0304)
  | .graftQuota d => some (d, 0x0305)
  | .graftQuery d => some (d, 0x0306)
  | .kvMap d => some (d, 0x0400)
  | .kvUnmap d => some (d, 0x0401)
  | .kvSeqSet d => some (d, 0x0402)
  | .kvPrefixFlush d => some (d, 0x0403)
  | .kvPageQuery d => some (d, 0x0404)
  | .inSubmit d => some (d, 0x0500)
  | .inTableLoad d => some (d, 0x0501)
  | .inTableUnload d => some (d, 0x0502)
  | .inTokenize d => some (d, 0x0503)
  | .furCreate d => some (d, 0x0600)
  | .furDestroy d => some (d, 0x0601)
  | .smpSet d => some (d, 0x0602)
  | .smpStopSet d => some (d, 0x0603)
  | .smpGrammarLoad d => some (d, 0x0604)
  | .smpGrammarUnload d => some (d, 0x0605)
  | .tierQuota d => some (d, 0x0700)
  | .tierHint d => some (d, 0x0701)
  | .tierSetQuery d => some (d, 0x0702)
  | .cxlExtentAdd d => some (d, 0x0703)
  | .cxlExtentRelease d => some (d, 0x0704)
  | .cxlExtentLost d => some (d, 0x0705)
  | .flDiscardSync d => some (d, 0x0800)
  | .flKeepRead d => some (d, 0x0801)
  | .vsPublish d => some (d, 0x0900)
  | .vsUnload d => some (d, 0x0901)
  | .vsQuery d => some (d, 0x0902)
  | .vsDelete d => some (d, 0x0903)
  | .vsShare d => some (d, 0x0904)
  | .vsInfo d => some (d, 0x0905)
  | .plwKeyLoad d => some (d, 0x0A00)
  | .plwKeySend d => some (d, 0x0A01)
  | .plwKeyDrop d => some (d, 0x0A02)
  | .expCreate d => some (d, 0x0B00)
  | .expRevoke d => some (d, 0x0B01)
  | .expNodeLost d => some (d, 0x0B02)
  | .memFill d => some (d, 0x0B03)
  | .memCopy d => some (d, 0x0B04)
  | .memCompare d => some (d, 0x0B05)
  | .memReduce d => some (d, 0x0B06)
  | .expPublish d => some (d, 0x0B07)
  | .expWithdraw d => some (d, 0x0B08)
  | .memHint d => some (d, 0x0B09)
  | .expQuery d => some (d, 0x0B0A)
  | .ckArm d => some (d, 0x0C00)
  | .ckStart d => some (d, 0x0C01)
  | .ckRestore d => some (d, 0x0C02)
  | .ckRestoreCommit d => some (d, 0x0C03)
  | .ckRestoreCancel d => some (d, 0x0C04)
  | .ckShardFree d => some (d, 0x0C05)
  | .ckRegroup d => some (d, 0x0C06)
  | .ckManifestRead d => some (d, 0x0C07)
  | .secOwnerEnroll d => some (d, 0x0D00)
  | .secBundleLoad d => some (d, 0x0D01)
  | .secPartitionReset d => some (d, 0x0D02)
  | .secNonce d => some (d, 0x0D03)
  | .secZeroize d => some (d, 0x0D04)
  | .secCertRead d => some (d, 0x0D05)
  | .secMeasure d => some (d, 0x0D06)
  | .fltLogRead d => some (d, 0x0E00)
  | .fltUnitUnfence d => some (d, 0x0E01)
  | .fltRegionRecover d => some (d, 0x0E02)
  | .trcMark d => some (d, 0x0F00)
  | .ctrSnapshot d => some (d, 0x0F01)
  | .pairLowerRead _ => none
  | .pairLowerWrite _ _ => none
  | .pairUpperWrite _ _ => none
  | .rcRead _ _ => none
  | .w1cWrite _ _ _ => none
  | .intEnableWrite _ _ => none
  | .registerWrite _ _ => none
  | .beacon _ _ => none
  | .delayRequest => none
  | .delayResponse _ => none
  | .exchangeAbandon => none
  | .ftHostCommit _ => none
  | .slewEnd => none
  | .ftBeaconTimeout => none
  | .holdoverExpired => none
  | .ftSourceWrite _ => none
  | .stepNow => none
  | .timeWord _ => none
  | .replicaWordLoss _ => none
  | .replicaResync _ => none
  | .gateReq _ _ => none
  | .regionClockStop _ => none
  | .regionClockRestart _ => none
  | .supplyDroop _ _ => none
  | .ringDrainComplete _ _ => none
  | .mailboxGo _ _ => none
  | .ringDoorbell _ _ _ => none
  | .descriptorFetch _ _ => none
  | .ringIrqDelay _ _ => none
  | .functionLevelReset _ => none
  | .keepStoreProgram => none
  | .offer _ => none
  | .claim _ => none
  | .confirm _ => none
  | .refuse _ => none
  | .query _ => none
  | .answer _ => none
  | .renew _ => none
  | .renewAck _ => none
  | .trxAppend _ => none
  | .trxAck _ => none
  | .dropNote _ => none
  | .closeNote _ => none
  | .homeXfer _ => none
  | .homeXferEnd _ => none
  | .trxFetch _ => none
  | .trxData _ => none
  | .homeXferResend _ => none
  | .homeXferTimeout _ => none
  | .noteResend _ => none
  | .ownershipQueryTimer _ => none
  | .renewSend _ => none
  | .leaseGuardExpiry _ => none
  | .leaseExpiry _ => none
  | .homeUnreachableTimeout _ => none
  | .rebuildWindowEnd => none
  | .ttlPausedExpiry _ => none
  | .ttlCxlExpiry _ => none
  | .ttlMulchExpiry _ => none
  | .ttlDroppedExpiry _ => none
  | .tombstoneExpiry _ => none
  | .stepBoundary _ _ => none
  | .lxLayer _ _ => none
  | .lxReturn _ => none
  | .lxLogits _ _ => none
  | .entryAbandon _ => none
  | .entrySampling _ => none
  | .prefillChunkComplete _ => none
  | .graftLayerResident _ _ => none
  | .pfxEnableWrite _ _ => none
  | .kvCopyPass _ => none
  | .tokenizeChunk _ _ => none
  | .furrowHeadWrite _ _ => none
  | .furrowBacklogDrain _ => none
  | .furrowIrqDelay _ => none
  | .extentReleaseComplete _ _ => none
  | .movePiece _ => none
  | .moveComplete _ => none
  | .backingExpiry _ => none
  | .cxlLinkDown _ => none
  | .cxlPoisonRead _ _ => none
  | .cxlEnable _ _ => none
  | .hdmCommit _ _ _ => none
  | .cxlIoGo _ _ => none
  | .cxlIoDone _ _ _ => none
  | .cxlDeviceEvent _ => none
  | .cxlRakeBlock _ _ _ => none
  | .rakeStripe _ _ _ => none
  | .spareNow _ _ => none
  | .spareStripeCopy _ _ _ => none
  | .appendLogProgram _ => none
  | .compostCopy _ => none
  | .compostCopyComplete _ => none
  | .flashRakePage _ _ _ => none
  | .flashOpFailure _ _ => none
  | .blockErase _ _ => none
  | .keepStoreLoad _ => none
  | .vsWalkComplete _ => none
  | .vsReq _ => none
  | .vsResp _ => none
  | .shardTimeout _ => none
  | .plwEnable _ _ => none
  | .laneLock _ _ => none
  | .trainBlock _ _ => none
  | .portTrainingTimeout _ => none
  | .laneLost _ _ _ => none
  | .retrainRelock _ _ => none
  | .downRetry _ => none
  | .frameReceive _ _ => none
  | .linkControlBlock _ _ => none
  | .linkControlSend _ => none
  | .frameSend _ => none
  | .messageSend => none
  | .reassemblyTimeout _ => none
  | .queueSample _ => none
  | .imgData _ => none
  | .imgAck _ => none
  | .imgResendTimer _ => none
  | .imgGiveUp _ => none
  | .mrRead _ _ => none
  | .mrWrite _ _ => none
  | .mrAcquire _ _ => none
  | .mrWriteback _ _ => none
  | .mrOp _ _ => none
  | .mrPublish _ _ => none
  | .mrPubRead _ _ => none
  | .mrRecallData _ => none
  | .mrResp _ => none
  | .recallTimeout _ _ => none
  | .remoteCopyTimeout _ => none
  | .granuleMigrate _ => none
  | .ckNotice _ => none
  | .ckPrepare _ => none
  | .ckReady _ => none
  | .ckAbort _ => none
  | .ckDone _ => none
  | .ckCommit _ => none
  | .ckFetch _ => none
  | .ckData _ => none
  | .ckDataAck _ => none
  | .ckDataEnd _ => none
  | .ckCut _ => none
  | .shardWriteComplete _ => none
  | .ckDeadline _ => none
  | .ckOrphanTimeout _ => none
  | .ckStageTtlExpiry _ => none
  | .restoreLayerResident _ _ => none
  | .zeroizeNonceLapse => none
  | .selftestComplete _ => none
  | .drbgHealthFailure => none
  | .ideIntegrityFailure _ => none
  | .tdispRequest _ _ => none
  | .spdmRequest _ _ => none
  | .mctpJournalRead _ => none
  | .faultRead _ => none
  | .healthRead => none
  | .zeroizeNonce => none
  | .zeroize _ => none
  | .unitTestComplete _ => none
  | .faultDetect _ => none
  | .unitWatchdog _ _ => none
  | .fltFirstArm _ => none
  | .fltBedFirstArm _ _ => none
  | .fltInject _ => none
  | .ctrClear _ => none
  | .ctrRun _ _ => none
  | .ctrGlobalStart => none
  | .ctrGlobalStop => none
  | .ctrGrant _ => none
  | .traceRecordWrite _ => none
  | .traceHeadWrite _ _ => none
  | .powerOn => none
  | .powerOnResetRelease _ => none
  | .stackTrainingComplete _ => none
  | .memoryReady => none
  | .vinLow => none
  | .vinHigh => none
  | .vinOvervoltage => none
  | .powerLoss => none
  | .thermalWarning _ _ => none
  | .thermalShutdown => none
  | .deviceReset => none
  | .hubResetCtrl _ => none
  | .hubRegionReset _ => none
  | .perst => none
  | .cxlLinkUp _ _ _ => none
  | .hostLinkUp => none
  | .hostLinkDown => none
  | .devResetNAssert => none
  | .thermalWarningEnd _ _ => none

/-- A well-formed command. -/
def Instr.wf : Instr → Bool
  | .pairLowerRead a => a.wf
  | .pairLowerWrite a _ => a.wf
  | .pairUpperWrite a _ => a.wf
  | .rcRead a _ => a.wf
  | .w1cWrite a _ _ => a.wf
  | .intEnableWrite a _ => a.wf
  | .registerWrite a _ => a.wf
  | .beacon _ m => m.wf
  | .delayRequest => true
  | .delayResponse m => m.wf
  | .exchangeAbandon => true
  | .ftHostCommit _ => true
  | .slewEnd => true
  | .ftBeaconTimeout => true
  | .holdoverExpired => true
  | .ftSourceWrite _ => true
  | .stepNow => true
  | .timeWord _ => true
  | .replicaWordLoss x => x.wf
  | .replicaResync _ => true
  | .gateReq _ _ => true
  | .regionClockStop _ => true
  | .regionClockRestart _ => true
  | .supplyDroop _ mhz => Nat.ble mhz 1800
  | .ifOpen d => d.wf 0x0001
  | .ifClose d => d.wf 0x0002
  | .ringCreate d => d.wf 0x0010
  | .ringDestroy d => d.wf 0x0011
  | .ringDrainComplete _ _ => true
  | .nop d => d.wf 0x0020
  | .journalRead d => d.wf 0x0030
  | .mailboxGo _ _ => true
  | .ringDoorbell _ _ _ => true
  | .descriptorFetch _ _ => true
  | .ringIrqDelay _ _ => true
  | .functionLevelReset _ => true
  | .keepStoreProgram => true
  | .sesOpen d => d.wf 0x0100
  | .sesClose d => d.wf 0x0101
  | .sesPause d => d.wf 0x0102
  | .sesResume d => d.wf 0x0103
  | .sesPark d => d.wf 0x0104
  | .sesCut d => d.wf 0x0105
  | .sesMove d => d.wf 0x0106
  | .sesAccept d => d.wf 0x0107
  | .sesQuery d => d.wf 0x0108
  | .sesSetLimit d => d.wf 0x0109
  | .sesMapLoad d => d.wf 0x010A
  | .offer m => m.wf
  | .claim m => m.wf
  | .confirm m => m.wf
  | .refuse m => m.wf
  | .query m => m.wf
  | .answer m => m.wf
  | .renew m => m.wf
  | .renewAck m => m.wf
  | .trxAppend m => m.wf
  | .trxAck m => m.wf
  | .dropNote m => m.wf
  | .closeNote m => m.wf
  | .homeXfer m => m.wf
  | .homeXferEnd m => m.wf
  | .trxFetch m => m.wf
  | .trxData m => m.wf
  | .homeXferResend _ => true
  | .homeXferTimeout _ => true
  | .noteResend _ => true
  | .ownershipQueryTimer _ => true
  | .renewSend _ => true
  | .leaseGuardExpiry _ => true
  | .leaseExpiry _ => true
  | .homeUnreachableTimeout _ => true
  | .rebuildWindowEnd => true
  | .ttlPausedExpiry _ => true
  | .ttlCxlExpiry _ => true
  | .ttlMulchExpiry _ => true
  | .ttlDroppedExpiry _ => true
  | .tombstoneExpiry _ => true
  | .schProfileLoad d => d.wf 0x0200
  | .schProfileUnload d => d.wf 0x0201
  | .schSlotRead d => d.wf 0x0202
  | .schSetSeq d => d.wf 0x0203
  | .stepBoundary _ _ => true
  | .lxLayer h payload => h.wf && h.length == payload.length
  | .lxReturn _ => true
  | .lxLogits h payload => h.wf && h.length == payload.length
  | .entryAbandon _ => true
  | .entrySampling _ => true
  | .prefillChunkComplete _ => true
  | .graftLoad d => d.wf 0x0300
  | .graftDrop d => d.wf 0x0301
  | .graftStow d => d.wf 0x0302
  | .graftBind d => d.wf 0x0303
  | .lxGroupSet d => d.wf 0x0304
  | .graftQuota d => d.wf 0x0305
  | .graftQuery d => d.wf 0x0306
  | .graftLayerResident _ _ => true
  | .kvMap d => d.wf 0x0400
  | .kvUnmap d => d.wf 0x0401
  | .kvSeqSet d => d.wf 0x0402
  | .kvPrefixFlush d => d.wf 0x0403
  | .kvPageQuery d => d.wf 0x0404
  | .pfxEnableWrite _ _ => true
  | .kvCopyPass _ => true
  | .inSubmit d => d.wf 0x0500
  | .inTableLoad d => d.wf 0x0501
  | .inTableUnload d => d.wf 0x0502
  | .inTokenize d => d.wf 0x0503
  | .tokenizeChunk _ _ => true
  | .furCreate d => d.wf 0x0600
  | .furDestroy d => d.wf 0x0601
  | .smpSet d => d.wf 0x0602
  | .smpStopSet d => d.wf 0x0603
  | .smpGrammarLoad d => d.wf 0x0604
  | .smpGrammarUnload d => d.wf 0x0605
  | .furrowHeadWrite _ _ => true
  | .furrowBacklogDrain _ => true
  | .furrowIrqDelay _ => true
  | .tierQuota d => d.wf 0x0700
  | .tierHint d => d.wf 0x0701
  | .tierSetQuery d => d.wf 0x0702
  | .cxlExtentAdd d => d.wf 0x0703
  | .cxlExtentRelease d => d.wf 0x0704
  | .cxlExtentLost d => d.wf 0x0705
  | .extentReleaseComplete _ _ => true
  | .movePiece _ => true
  | .moveComplete _ => true
  | .backingExpiry _ => true
  | .cxlLinkDown _ => true
  | .cxlPoisonRead _ _ => true
  | .cxlEnable _ _ => true
  | .hdmCommit _ _ _ => true
  | .cxlIoGo _ _ => true
  | .cxlIoDone _ _ _ => true
  | .cxlDeviceEvent _ => true
  | .cxlRakeBlock _ _ _ => true
  | .rakeStripe _ _ wrong => wrong.all wrongWf
  | .spareNow _ _ => true
  | .spareStripeCopy _ _ wrong => wrong.all wrongWf
  | .flDiscardSync d => d.wf 0x0800
  | .flKeepRead d => d.wf 0x0801
  | .appendLogProgram _ => true
  | .compostCopy _ => true
  | .compostCopyComplete _ => true
  | .flashRakePage _ _ _ => true
  | .flashOpFailure _ _ => true
  | .blockErase _ _ => true
  | .keepStoreLoad _ => true
  | .vsPublish d => d.wf 0x0900
  | .vsUnload d => d.wf 0x0901
  | .vsQuery d => d.wf 0x0902
  | .vsDelete d => d.wf 0x0903
  | .vsShare d => d.wf 0x0904
  | .vsInfo d => d.wf 0x0905
  | .vsWalkComplete _ => true
  | .vsReq m => m.wf
  | .vsResp m => m.wf
  | .shardTimeout _ => true
  | .plwKeyLoad d => d.wf 0x0A00
  | .plwKeySend d => d.wf 0x0A01
  | .plwKeyDrop d => d.wf 0x0A02
  | .plwEnable _ _ => true
  | .laneLock _ _ => true
  | .trainBlock _ t => t.wf
  | .portTrainingTimeout _ => true
  | .laneLost _ _ _ => true
  | .retrainRelock _ _ => true
  | .downRetry _ => true
  | .frameReceive _ f => f.wf
  | .linkControlBlock _ c => c.wf
  | .linkControlSend _ => true
  | .frameSend _ => true
  | .messageSend => true
  | .reassemblyTimeout _ => true
  | .queueSample _ => true
  | .imgData m => m.wf
  | .imgAck m => m.wf
  | .imgResendTimer k => k.wf
  | .imgGiveUp k => k.wf
  | .expCreate d => d.wf 0x0B00
  | .expRevoke d => d.wf 0x0B01
  | .expNodeLost d => d.wf 0x0B02
  | .memFill d => d.wf 0x0B03
  | .memCopy d => d.wf 0x0B04
  | .memCompare d => d.wf 0x0B05
  | .memReduce d => d.wf 0x0B06
  | .expPublish d => d.wf 0x0B07
  | .expWithdraw d => d.wf 0x0B08
  | .memHint d => d.wf 0x0B09
  | .expQuery d => d.wf 0x0B0A
  | .mrRead m _ => m.wf
  | .mrWrite m _ => m.wf
  | .mrAcquire m _ => m.wf
  | .mrWriteback m _ => m.wf
  | .mrOp m _ => m.wf
  | .mrPublish m _ => m.wf
  | .mrPubRead m _ => m.wf
  | .mrRecallData m => m.wf
  | .mrResp m => m.wf
  | .recallTimeout _ _ => true
  | .remoteCopyTimeout _ => true
  | .granuleMigrate _ => true
  | .ckArm d => d.wf 0x0C00
  | .ckStart d => d.wf 0x0C01
  | .ckRestore d => d.wf 0x0C02
  | .ckRestoreCommit d => d.wf 0x0C03
  | .ckRestoreCancel d => d.wf 0x0C04
  | .ckShardFree d => d.wf 0x0C05
  | .ckRegroup d => d.wf 0x0C06
  | .ckManifestRead d => d.wf 0x0C07
  | .ckNotice m => m.wf
  | .ckPrepare m => m.wf
  | .ckReady m => m.wf
  | .ckAbort m => m.wf
  | .ckDone m => m.wf
  | .ckCommit m => m.wf
  | .ckFetch m => m.wf
  | .ckData m => m.wf
  | .ckDataAck m => m.wf
  | .ckDataEnd m => m.wf
  | .ckCut _ => true
  | .shardWriteComplete _ => true
  | .ckDeadline _ => true
  | .ckOrphanTimeout _ => true
  | .ckStageTtlExpiry _ => true
  | .restoreLayerResident _ _ => true
  | .secOwnerEnroll d => d.wf 0x0D00
  | .secBundleLoad d => d.wf 0x0D01
  | .secPartitionReset d => d.wf 0x0D02
  | .secNonce d => d.wf 0x0D03
  | .secZeroize d => d.wf 0x0D04
  | .secCertRead d => d.wf 0x0D05
  | .secMeasure d => d.wf 0x0D06
  | .zeroizeNonceLapse => true
  | .selftestComplete _ => true
  | .drbgHealthFailure => true
  | .ideIntegrityFailure _ => true
  | .tdispRequest _ r => r.wf
  | .spdmRequest _ _ => true
  | .mctpJournalRead _ => true
  | .faultRead _ => true
  | .healthRead => true
  | .zeroizeNonce => true
  | .zeroize token => token.length == 384
  | .fltLogRead d => d.wf 0x0E00
  | .fltUnitUnfence d => d.wf 0x0E01
  | .fltRegionRecover d => d.wf 0x0E02
  | .unitTestComplete e => e.wf
  | .faultDetect f => f.wf
  | .unitWatchdog _ _ => true
  | .fltFirstArm _ => true
  | .fltBedFirstArm _ _ => true
  | .fltInject _ => true
  | .ctrClear _ => true
  | .ctrRun _ _ => true
  | .ctrGlobalStart => true
  | .ctrGlobalStop => true
  | .ctrGrant _ => true
  | .trcMark d => d.wf 0x0F00
  | .ctrSnapshot d => d.wf 0x0F01
  | .traceRecordWrite _ => true
  | .traceHeadWrite _ _ => true
  | .powerOn => true
  | .powerOnResetRelease _ => true
  | .stackTrainingComplete _ => true
  | .memoryReady => true
  | .vinLow => true
  | .vinHigh => true
  | .vinOvervoltage => true
  | .powerLoss => true
  | .thermalWarning _ _ => true
  | .thermalShutdown => true
  | .deviceReset => true
  | .hubResetCtrl _ => true
  | .hubRegionReset _ => true
  | .perst => true
  | .cxlLinkUp _ _ _ => true
  | .hostLinkUp => true
  | .hostLinkDown => true
  | .devResetNAssert => true
  | .thermalWarningEnd _ _ => true

end Sys2Proof
end

