-- ==== Sys2Proof/Decode.lean ====
section
/-! DEFINITION. Which command a descriptor is (R67), and the command that a word of the table spells. The rows of the command table
give no bits, so no word spells one (log entry 51). -/

namespace Sys2Proof

/-- The command of an opcode (R67): every opcode of stepping A1. -/
def commandOf (d : Desc) : Option Instr :=
  match d.opcode.toNat with
  | 0x0001 => some (.ifOpen d)
  | 0x0002 => some (.ifClose d)
  | 0x0010 => some (.ringCreate d)
  | 0x0011 => some (.ringDestroy d)
  | 0x0020 => some (.nop d)
  | 0x0030 => some (.journalRead d)
  | 0x0100 => some (.sesOpen d)
  | 0x0101 => some (.sesClose d)
  | 0x0102 => some (.sesPause d)
  | 0x0103 => some (.sesResume d)
  | 0x0104 => some (.sesPark d)
  | 0x0105 => some (.sesCut d)
  | 0x0106 => some (.sesMove d)
  | 0x0107 => some (.sesAccept d)
  | 0x0108 => some (.sesQuery d)
  | 0x0109 => some (.sesSetLimit d)
  | 0x010A => some (.sesMapLoad d)
  | 0x0200 => some (.schProfileLoad d)
  | 0x0201 => some (.schProfileUnload d)
  | 0x0202 => some (.schSlotRead d)
  | 0x0203 => some (.schSetSeq d)
  | 0x0300 => some (.graftLoad d)
  | 0x0301 => some (.graftDrop d)
  | 0x0302 => some (.graftStow d)
  | 0x0303 => some (.graftBind d)
  | 0x0304 => some (.lxGroupSet d)
  | 0x0305 => some (.graftQuota d)
  | 0x0306 => some (.graftQuery d)
  | 0x0400 => some (.kvMap d)
  | 0x0401 => some (.kvUnmap d)
  | 0x0402 => some (.kvSeqSet d)
  | 0x0403 => some (.kvPrefixFlush d)
  | 0x0404 => some (.kvPageQuery d)
  | 0x0500 => some (.inSubmit d)
  | 0x0501 => some (.inTableLoad d)
  | 0x0502 => some (.inTableUnload d)
  | 0x0503 => some (.inTokenize d)
  | 0x0600 => some (.furCreate d)
  | 0x0601 => some (.furDestroy d)
  | 0x0602 => some (.smpSet d)
  | 0x0603 => some (.smpStopSet d)
  | 0x0604 => some (.smpGrammarLoad d)
  | 0x0605 => some (.smpGrammarUnload d)
  | 0x0700 => some (.tierQuota d)
  | 0x0701 => some (.tierHint d)
  | 0x0702 => some (.tierSetQuery d)
  | 0x0703 => some (.cxlExtentAdd d)
  | 0x0704 => some (.cxlExtentRelease d)
  | 0x0705 => some (.cxlExtentLost d)
  | 0x0800 => some (.flDiscardSync d)
  | 0x0801 => some (.flKeepRead d)
  | 0x0900 => some (.vsPublish d)
  | 0x0901 => some (.vsUnload d)
  | 0x0902 => some (.vsQuery d)
  | 0x0903 => some (.vsDelete d)
  | 0x0904 => some (.vsShare d)
  | 0x0905 => some (.vsInfo d)
  | 0x0A00 => some (.plwKeyLoad d)
  | 0x0A01 => some (.plwKeySend d)
  | 0x0A02 => some (.plwKeyDrop d)
  | 0x0B00 => some (.expCreate d)
  | 0x0B01 => some (.expRevoke d)
  | 0x0B02 => some (.expNodeLost d)
  | 0x0B03 => some (.memFill d)
  | 0x0B04 => some (.memCopy d)
  | 0x0B05 => some (.memCompare d)
  | 0x0B06 => some (.memReduce d)
  | 0x0B07 => some (.expPublish d)
  | 0x0B08 => some (.expWithdraw d)
  | 0x0B09 => some (.memHint d)
  | 0x0B0A => some (.expQuery d)
  | 0x0C00 => some (.ckArm d)
  | 0x0C01 => some (.ckStart d)
  | 0x0C02 => some (.ckRestore d)
  | 0x0C03 => some (.ckRestoreCommit d)
  | 0x0C04 => some (.ckRestoreCancel d)
  | 0x0C05 => some (.ckShardFree d)
  | 0x0C06 => some (.ckRegroup d)
  | 0x0C07 => some (.ckManifestRead d)
  | 0x0D00 => some (.secOwnerEnroll d)
  | 0x0D01 => some (.secBundleLoad d)
  | 0x0D02 => some (.secPartitionReset d)
  | 0x0D03 => some (.secNonce d)
  | 0x0D04 => some (.secZeroize d)
  | 0x0D05 => some (.secCertRead d)
  | 0x0D06 => some (.secMeasure d)
  | 0x0E00 => some (.fltLogRead d)
  | 0x0E01 => some (.fltUnitUnfence d)
  | 0x0E02 => some (.fltRegionRecover d)
  | 0x0F00 => some (.trcMark d)
  | 0x0F01 => some (.ctrSnapshot d)
  | _ => none

/-- The command that a word spells by the table's bits: no row has any. -/
def decodeTableWord (_nbits _w : Nat) : Option Instr := none

end Sys2Proof
end

