-- ==== Sys2Proof/Config.lean ====
section
/-! DEFINITION. What an implementation fixes and the spec does not, and the free values: constants without a body, so
that no proof can see what they are. Each is named in the assumption log. -/

namespace Sys2Proof

/-- The fuse value of ID_SERIAL (R65): one number per device. -/
opaque Config.serial : W64

/-- A fresh free value: `tag` names what it stands for, `n` is the counter of the state, and the result is any 64-bit
value (log entry 1). -/
opaque Config.fresh : Nat → Nat → W64

/-- exp of an FP32 argument as the exponent pipe returns it: free within the relative error of R153 (log entry 21). -/
opaque Config.exp32 : W32 → W32

/-- Natural logarithm of an FP32 value: the spec gives no error bound (log entry 21). -/
opaque Config.ln32 : W32 → W32

/-- The order of an FP32 sum of three or more terms, which the spec does not state (R150): of the terms that are left, each as
significand, exponent and number of products in it, the places of the two that are added next, and whether they are added exactly
(log entry 21). -/
opaque Config.sumPick : List (Int × Int × Nat) → Nat × Nat × Bool

/-- Which of the FP32 values within one unit in the last place of a quotient the context takes (R151, log entry 21). -/
opaque Config.ulp32 : W32 → W32 → Nat

/-- cos and sin of the rotary angle for ROPE_THETA, ROPE_DIMS, pair index and position, as FP32: free within 2^-22 (R184, log entry 27). -/
opaque Config.rope32 : W32 → Nat → Nat → Nat → W32 × W32

/-- The set of a merge cache or character cache that holds a slot of a table: kind, Bed, TABLE_ID, VERSION, slot; free (R241, log
entry 23). -/
opaque Config.tokSet : Nat → Nat → Nat → W32 → Nat → Nat

/-- What the transcript header held by a home on another node says of the SMP_SET values and stop strings of a session (R251): no message
of the spec carries them, so they are free (log entry 109); the second argument is the counter of the state. -/
opaque Config.headerCtl : W64 → Nat → Option (Controls × List (List Byte))

/-- Where R254 states no token for a draw, the place of the one drawn among the ranked tokens (token, logit), for TEMPERATURE and the
uniform number: free (log entry 24). -/
opaque Config.openDraw : List (Nat × W32) → W32 → Nat → Nat

/-- AES-KW unwrap of a wrapped record under a key-wrapping key, each as bytes; none where its integrity check fails
(R427, R431, log entry 37). -/
opaque Config.kwUnwrap : List Byte → List Byte → Option (List Byte)

/-- The 16 KiB that an output context takes in an image, and the context that such bytes hold: the spec does not give their
layout (R251, R289, log entry 43). -/
opaque Config.ctxBytes : OutCtx → List Byte
opaque Config.ctxOf : List Byte → Option OutCtx

/-- AES-256-GCM: bytes sealed under a key and an IV with the tag behind them, and their plaintext, none where the tag fails
(R442, log entry 37). -/
opaque Config.gcmSeal : List Byte → List Byte → List Byte → List Byte
opaque Config.gcmOpen : List Byte → List Byte → List Byte → Option (List Byte)

/-- AES-256-XTS of a 64-byte line under a memory key, and the first 56 bits of its GMAC: the key (`memKey`, `parkKey`), its GEN, the
tweak or the IV, and the bytes (R440, R441, log entry 37). -/
opaque Config.xts : Nat → Nat → Nat → List Byte → List Byte
opaque Config.gmac56 : Nat → Nat → List Byte → List Byte → List Byte

/-- The Reed-Solomon parity of symbols 0 to 71 of a line (R277): the spec gives neither the field's polynomial nor the generator (log
entry 37). -/
opaque Config.rsParity : List Byte → List Byte

/-- RSAES-OAEP unwrap with the transport key, none where it fails, and RSASSA-PSS verification: key, message, signature (R427, R436,
R445, log entry 45). -/
opaque Config.oaepUnwrap : List Byte → Option (List Byte)
opaque Config.pssVerify : List Byte → List Byte → List Byte → Bool

/-- The identity certificate chain written at manufacture (R448), and the value of measurement 1 (R449). -/
opaque Config.certChain : List Byte
opaque Config.measureId : List Byte

/-- The value of measurement 3: a digest of the lifecycle, POLICY and the owner key, whose encoding R449 does not give (log entry
45). -/
opaque Config.measureState : Nat → Nat → List Byte → List Byte

/-- What the SPDM responder answers to a request that the DMTF standard alone describes: request code, request bytes and a fresh value
(R448, log entry 46). -/
opaque Config.spdmReply : Nat → List Byte → W64 → List Byte

/-- The 48 bytes of the interface report, from its fields in the order of R447, whose places R447 does not give (log entry 46). -/
opaque Config.tdiReport : Nat → Nat → Nat → Nat → Nat → List Byte → List Byte

end Sys2Proof
end

