-- ==== Sys2Proof/Machine/Map.lean ====
section
/-! DEFINITION. The two containers of the state: a table that lists only the keys whose value differs from what an
unlisted key reads as, and byte memory in one canonical form (addresses strictly rising, no byte equal to what an
unlisted address reads as). -/

namespace Sys2Proof.Machine

/-- The value of key `k` in a table; `d` is what an unlisted key reads as. -/
def Table.get {κ α : Type} [DecidableEq κ] (t : List (κ × α)) (d : α) (k : κ) : α :=
  match t with
  | [] => d
  | (k', v) :: r => if k' = k then v else Table.get r d k

/-- The table without key `k`. -/
def Table.erase {κ α : Type} [DecidableEq κ] (t : List (κ × α)) (k : κ) : List (κ × α) :=
  t.filter fun p => !decide (p.1 = k)

/-- The table with key `k` set to `v`; setting what an unlisted key reads as removes the entry. -/
def Table.set {κ α : Type} [DecidableEq κ] [DecidableEq α] (t : List (κ × α)) (d : α) (k : κ) (v : α) :
    List (κ × α) :=
  if v = d then Table.erase t k else (k, v) :: Table.erase t k

/-- The first number of `start`, `start + 1`, … (`count` of them) that has a property. -/
def firstFrom (start : Nat) (p : Nat → Bool) : Nat → Option Nat
  | 0 => none
  | count + 1 => if p start then some start else firstFrom (start + 1) p count

/-- What a byte of memory that nothing has written reads as. Near memory: a fresh line reads as zero (R443). Host
memory is the host's own; its contents before a write are a DESIGN CHOICE (log entry 3). -/
def Mem.fresh : Byte := 0

/-- Read one byte. -/
def Mem.read (m : List Host.Cell) (a : Nat) : Byte :=
  match m with
  | [] => Mem.fresh
  | (b, v) :: r => if b = a then v else Mem.read r a

/-- Write one byte, keeping the addresses strictly rising and no byte equal to a fresh one listed. -/
def Mem.write (m : List Host.Cell) (a : Nat) (v : Byte) : List Host.Cell :=
  match m with
  | [] => if v = Mem.fresh then [] else [(a, v)]
  | (b, w) :: r =>
    if a < b then (if v = Mem.fresh then (b, w) :: r else (a, v) :: (b, w) :: r)
    else if a = b then (if v = Mem.fresh then r else (a, v) :: r)
    else (b, w) :: Mem.write r a v

/-- Every listed address is above `lo`, addresses rise strictly, and no listed byte is fresh. -/
def Mem.wfFrom (lo : Option Nat) : List Host.Cell → Bool
  | [] => true
  | (a, v) :: r => (match lo with | none => true | some l => decide (l < a)) && !decide (v = Mem.fresh)
      && Mem.wfFrom (some a) r

/-- The canonical form of memory. -/
def Mem.wf (m : List Host.Cell) : Bool := Mem.wfFrom none m

/-- Write consecutive bytes from `a` upwards. -/
def Mem.writeBytes (m : List Host.Cell) (a : Nat) : List Byte → List Host.Cell
  | [] => m
  | b :: bs => Mem.writeBytes (Mem.write m a b) (a + 1) bs

/-- Read `n` consecutive bytes from `a` upwards. -/
def Mem.readBytes (m : List Host.Cell) (a n : Nat) : List Byte :=
  (List.range n).map fun i => Mem.read m (a + i)

/-- The memory with every byte of `[a, a + n)` fresh again. -/
def Mem.clear (m : List Host.Cell) (a n : Nat) : List Host.Cell :=
  m.filter fun p => !(decide (a ≤ p.1) && decide (p.1 < a + n))

/-- The little-endian bytes of a number, `n` of them (R9). -/
def leBytes (n v : Nat) : List Byte :=
  (List.range n).map fun i => BitVec.ofNat 8 (v >>> (8 * i))

/-- The number that little-endian bytes spell (R9). -/
def leNat : List Byte → Nat
  | [] => 0
  | b :: bs => b.toNat + 256 * leNat bs

/-- Bytes `[hi:lo]` of a byte list, as a little-endian number. -/
def bytesAt (bs : List Byte) (lo n : Nat) : Nat := leNat ((bs.drop lo).take n)

/-- Bits `[hi:lo]` of a number (R9). -/
def bits (v hi lo : Nat) : Nat := (v >>> lo) % 2 ^ (hi - lo + 1)

/-- The first record of a list that satisfies `p`, changed by `f`; the others as they were. -/
def updFirst {α : Type} (p : α → Bool) (f : α → α) : List α → List α
  | [] => []
  | a :: r => if p a then f a :: r else a :: updFirst p f r

/-- Every record of a list that satisfies `p`, changed by `f`. -/
def updAll {α : Type} (p : α → Bool) (f : α → α) (l : List α) : List α :=
  l.map fun a => if p a then f a else a

/-- The last `n` entries of a list. -/
def lastN {α : Type} (n : Nat) (l : List α) : List α := l.drop (l.length - n)

/-- One counter step that stops at the top of 32 bits (R82). -/
def satInc (v : W32) : W32 := if v = 0xFFFFFFFF#32 then v else v + 1

/-- A bit of a 32-bit mask for a number below 32, else no bit. -/
def bitMask (n : Nat) : Nat := 2 ^ n

/-- Whether bit `n` of `v` is set. -/
def bitSet (v n : Nat) : Bool := (v >>> n) % 2 == 1

/-- The two halves of a 64-bit quantity (R12). -/
def lo32 (v : Nat) : W32 := BitVec.ofNat 32 v
def hi32 (v : Nat) : W32 := BitVec.ofNat 32 (v >>> 32)

/-- The least key of a list, if any. -/
def minNat? : List Nat → Option Nat
  | [] => none
  | a :: r => match minNat? r with | none => some a | some b => some (if a ≤ b then a else b)

end Sys2Proof.Machine
end

