-- ==== Sys2Proof/Machine/Fp.lean ====
section
/-! DEFINITION. Binary32 and bfloat16 (R144, R147, R150, R153): exact values as m × 2^e, one rounding to nearest even, and
the values that the spec leaves free within a bound. An exact zero is +0 (log entry 21). -/

namespace Sys2Proof.Machine

/-- A value: NaN, an infinity (true: negative) or m × 2^e. -/
inductive Fx where
  | nan
  | inf (neg : Bool)
  | fin (m e : Int)
  deriving DecidableEq, Repr

/-- The FP32 NaN, infinity, largest finite value and one. -/
def f32Nan : W32 := 0x7FC00000#32
def f32Inf : W32 := 0x7F800000#32
def f32Max : W32 := 0x7F7FFFFF#32
def f32One : W32 := 0x3F800000#32

/-- m × 2^k for any integer k, rounded down when k is negative. -/
def shiftInt (m : Nat) (k : Int) : Nat := if 0 ≤ k then m * 2 ^ k.toNat else m / 2 ^ (-k).toNat

/-- The value of an FP32 number. -/
def f32Val (w : W32) : Fx :=
  let v := w.toNat
  let neg := 2147483648 ≤ v
  let ex := bits v 30 23
  let mant := v % 8388608
  if ex = 255 then (if mant = 0 then .inf neg else .nan)
  else
    let m : Int := if ex = 0 then mant else mant + 8388608
    .fin (if neg then -m else m) ((if ex = 0 then (1 : Int) else (ex : Int)) - 150)

/-- Round a × 2^e, for a natural a, to FP32 to nearest even, flushing what lies below the smallest normal (R147); `more` says that the exact value is a little larger. -/
def f32RoundNat (a : Nat) (e : Int) (more : Bool) : W32 :=
  if a = 0 then 0 else
    let n : Int := (Nat.log2 a : Int) + 1
    let qe := max (e + n - 24) (-149)
    let sh := qe - e
    let q := if sh ≤ 0 then a * 2 ^ (-sh).toNat else
      let d := 2 ^ sh.toNat
      let r := a % d
      let up := decide (d < 2 * r) || (decide (d = 2 * r) && (more || a / d % 2 == 1))
      a / d + if up then 1 else 0
    let b := (qe + 149).toNat * 8388608 + q
    if 2139095040 ≤ b then f32Inf else if b < 8388608 then 0 else BitVec.ofNat 32 b

/-- Round m × 2^e to FP32. -/
def f32Round (m e : Int) (more : Bool := false) : W32 :=
  let w := f32RoundNat m.natAbs e more
  if m < 0 then w ||| 0x80000000#32 else w

/-- An exact value as FP32. -/
def f32OfFx : Fx → W32
  | .nan => f32Nan
  | .inf neg => if neg then 0xFF800000#32 else f32Inf
  | .fin m e => f32Round m e

/-- Exact sum, difference and product. -/
def fxNeg : Fx → Fx
  | .nan => .nan
  | .inf n => .inf (!n)
  | .fin m e => .fin (-m) e
def fxAdd : Fx → Fx → Fx
  | .nan, _ => .nan
  | _, .nan => .nan
  | .inf a, .inf b => if a = b then .inf a else .nan
  | .inf a, _ => .inf a
  | _, .inf b => .inf b
  | .fin m e, .fin n f =>
    let g := min e f
    .fin (m * 2 ^ (e - g).toNat + n * 2 ^ (f - g).toNat) g
def fxMul : Fx → Fx → Fx
  | .nan, _ => .nan
  | _, .nan => .nan
  | .inf a, .inf b => .inf (a != b)
  | .inf a, .fin n _ => if n = 0 then .nan else .inf (a != decide (n < 0))
  | .fin m _, .inf b => if m = 0 then .nan else .inf (b != decide (m < 0))
  | .fin m e, .fin n f => .fin (m * n) (e + f)

/-- a < b; false with a NaN. -/
def fxLt : Fx → Fx → Bool
  | .nan, _ => false
  | _, .nan => false
  | .inf a, .inf b => a && !b
  | .inf a, .fin _ _ => a
  | .fin _ _, .inf b => !b
  | .fin m e, .fin n f =>
    let g := min e f
    decide (m * 2 ^ (e - g).toNat < n * 2 ^ (f - g).toNat)

/-- FP32 addition, subtraction and multiplication, each rounded once. -/
def f32Add (a b : W32) : W32 := f32OfFx (fxAdd (f32Val a) (f32Val b))
def f32Sub (a b : W32) : W32 := f32OfFx (fxAdd (f32Val a) (fxNeg (f32Val b)))
def f32Mul (a b : W32) : W32 := f32OfFx (fxMul (f32Val a) (f32Val b))

/-- FP32 division of finite values, rounded once; a zero divisor gives the infinity of the sign, or NaN. -/
def f32Div (a b : W32) : W32 :=
  match f32Val a, f32Val b with
  | .nan, _ => f32Nan
  | _, .nan => f32Nan
  | .inf _, .inf _ => f32Nan
  | .inf n, .fin m _ => f32OfFx (.inf (n != decide (m < 0)))
  | .fin _ _, .inf _ => 0
  | .fin m e, .fin n f =>
    if n = 0 then (if m = 0 then f32Nan else f32OfFx (.inf (decide (m < 0)))) else
      let num := m.natAbs * 2 ^ 64
      let q := num / n.natAbs
      let w := f32RoundNat q (e - f - 64) (num % n.natAbs != 0)
      if m != 0 && decide (m < 0) != decide (n < 0) then w ||| 0x80000000#32 else w

/-- Comparisons. -/
def f32Lt (a b : W32) : Bool := fxLt (f32Val a) (f32Val b)
def f32Le (a b : W32) : Bool := f32Lt a b || (f32Val a != .nan && f32Val b != .nan && !f32Lt b a)
def f32IsNan (a : W32) : Bool := f32Val a == .nan
def f32IsFinite (a : W32) : Bool := match f32Val a with | .fin _ _ => true | _ => false
def f32Max2 (a b : W32) : W32 := if f32IsNan a then a else if f32IsNan b then b else if f32Lt a b then b else a

/-- A natural number as FP32. -/
def f32OfNat (n : Nat) : W32 := f32Round n 0

/-! ## bfloat16 -/

/-- BF16 as FP32, exactly. -/
def bf16To32 (b : W16) : W32 := b.setWidth 32 <<< 16

/-- FP32 to BF16, to nearest even; beyond the largest finite value, and an infinity, the largest finite value (R147). -/
def bf16Of32 (w : W32) : W16 :=
  match f32Val w with
  | .nan => 0x7FC0#16
  | .inf n => if n then 0xFF7F#16 else 0x7F7F#16
  | .fin _ _ =>
    let v := w.toNat % 2147483648
    let q := v / 65536 + if 65536 < 2 * (v % 65536) || (2 * (v % 65536) = 65536 && v / 65536 % 2 = 1) then 1 else 0
    let q := min q 0x7F7F
    BitVec.ofNat 16 (q + if 2147483648 ≤ w.toNat then 32768 else 0)

/-! ## Values free within a bound -/

/-- exp(-n / 2^256) × 2^256 for n up to 88 × 2^256, by a series on n / 128 and seven squarings. -/
def expFix (n : Nat) : Nat :=
  let s := 2 ^ 256
  let y := n / 128
  let terms := (List.range 60).foldl (fun (a : Nat × Nat × Nat) k =>
    let t := if k = 0 then s else a.1 * y / (s * k)
    if k % 2 = 0 then (t, a.2.1 + t, a.2.2) else (t, a.2.1, a.2.2 + t)) (0, 0, 0)
  let v := terms.2.1 - terms.2.2
  (List.range 7).foldl (fun v _ => v * v / s) v

/-- The exponent pipe (R153): exact at 0 and below -87.33; elsewhere any value within a relative error of 2^-22. -/
def f32Exp (x : W32) : W32 :=
  match f32Val x with
  | .nan => f32Nan
  | .inf n => if n then 0 else Config.exp32 x
  | .fin m e =>
    if m = 0 then f32One
    else if 0 < m then Config.exp32 x
    else if fxLt (.fin m e) (.fin (-8733 * 2 ^ 20 / 100) (-20)) then 0
    else
      let v := expFix (shiftInt m.natAbs (e + 256))
      let f := Config.exp32 x
      match f32Val f with
      | .fin fm fe =>
        let g := shiftInt fm.natAbs (fe + 256)
        if 0 ≤ fm && decide ((if g ≤ v then v - g else g - v) * 4194304 ≤ v) then f else f32RoundNat v (-256) false
      | _ => f32RoundNat v (-256) false

/-- Natural logarithm. -/
def f32Ln (x : W32) : W32 := if f32IsNan x then f32Nan else Config.ln32 x

/-- The sum of t_k / (2k + 1) for a power series t_0 = `t`, t_(k+1) = t_k × z² with z² = `num` / `den`, alternating or not, over `n`
terms, in units of 2^-256. -/
def oddSeries (alt : Bool) (num den n t : Nat) : Nat :=
  let r := (List.range n).foldl (fun (a : Nat × Nat × Nat) k =>
    let x := a.1 / (2 * k + 1)
    if alt && k % 2 == 1 then (a.1 * num / den, a.2.1, a.2.2 + x) else (a.1 * num / den, a.2.1 + x, a.2.2)) (t, 0, 0)
  r.2.1 - r.2.2

/-- Pi in units of 2^-256 (Machin). -/
def piFix : Nat := 16 * oddSeries true 1 25 60 (2 ^ 256 / 5) - 4 * oddSeries true 1 57121 30 (2 ^ 256 / 239)

/-- ln of m / 2^23 for m from 2^23 to 2^24, and ln of an FP32 number above 1, in units of 2^-256. -/
def lnMant (m : Nat) : Nat :=
  let num := m - 8388608
  let den := m + 8388608
  2 * oddSeries false (num * num) (den * den) 90 (num * 2 ^ 256 / den)
def lnFix (w : W32) : Nat :=
  match f32Val w with
  | .fin m e => lnMant m.natAbs + (e + 23).toNat * lnMant 16777216
  | _ => 0

/-- cos and sin of x for x from 0 to 2 pi, in units of 2^-256. -/
def cosSinFix (x : Nat) : Int × Int :=
  let s := 2 ^ 256
  let r := (List.range 96).foldl (fun (a : Nat × Int × Int) k =>
    let t : Int := if k % 4 < 2 then (a.1 : Int) else -(a.1 : Int)
    (a.1 * x / s / (k + 1), if k % 2 = 0 then a.2.1 + t else a.2.1, if k % 2 = 0 then a.2.2 else a.2.2 + t)) (s, 0, 0)
  r.2

/-- A value that is free within 2^-22 of an exact one: the free value where it lies within the bound, else the nearest (R184). -/
def freeNear (exact : Int) (f : W32) : W32 :=
  match f32Val f with
  | .fin m e =>
    let g : Int := shiftInt m.natAbs (e + 256)
    if ((if m < 0 then -g else g) - exact).natAbs + 2 ^ 64 ≤ 2 ^ 234 then f else f32Round exact (-256)
  | _ => f32Round exact (-256)

/-- cos and sin of pos × theta^(-2i / r), each within 2^-22 of its exact value (R184, log entry 27). -/
def ropeCosSin (theta : W32) (r i pos : Nat) : W32 × W32 :=
  let x := cosSinFix (pos * expFix (2 * i * lnFix theta / r) % (2 * piFix))
  let f := Config.rope32 theta r i pos
  (freeNear x.1 f.1, freeNear x.2 f.2)

/-! ## Sums (R150) -/

/-- A term of a sum: an exact value that holds `n` products not yet rounded; `n` is 0 once it is an FP32 number. -/
structure Term where
  v : Fx
  n : Nat := 0
  deriving DecidableEq, Repr

/-- What a term adds: an exact partial sum of several products is rounded first. -/
def Term.part (t : Term) : Fx := if t.n ≤ 1 then t.v else f32Val (f32OfFx t.v)

/-- Two terms together: rounded once, or a partial sum of at most 32 products that stays exact (R150). -/
def mergeTerms (exact : Bool) (a b : Term) : Term :=
  if exact && a.n != 0 && b.n != 0 && decide (a.n + b.n ≤ 32) then { v := fxAdd a.v b.v, n := a.n + b.n }
  else { v := f32Val (f32OfFx (fxAdd a.part b.part)) }

/-- A term as the choice of the order sees it. -/
def Term.key (t : Term) : Int × Int × Nat :=
  match t.v with
  | .fin m e => (m, e, t.n)
  | .inf neg => (if neg then -1 else 1, 1024, t.n)
  | .nan => (0, 1024, t.n)

/-- Add the terms in an order that is free; `n` bounds the additions. -/
def sumTerms : Nat → List Term → Fx
  | 0, l => match l with | a :: _ => a.v | [] => .fin 0 0
  | n + 1, l =>
    match l with
    | [] => .fin 0 0
    | [a] => a.v
    | [a, b] =>
      if a.n ≤ 1 && b.n ≤ 1 then fxAdd a.v b.v else (mergeTerms (Config.sumPick ([a, b].map Term.key)).2.2 a b).v
    | a :: r =>
      let k := Config.sumPick ((a :: r).map Term.key)
      let i := k.1 % (r.length + 1)
      let x := (a :: r).getD i a
      let rest := (a :: r).eraseIdx i
      let j := k.2.1 % max 1 rest.length
      let y := rest.getD j a
      sumTerms n (mergeTerms k.2.2 x y :: rest.eraseIdx j)

/-- A sum in FP32 (R150): the order of three or more terms is not stated. -/
def f32Sum (l : List W32) : W32 := f32OfFx (sumTerms l.length (l.map fun x => { v := f32Val x }))

/-- A sum of exact products in FP32 (R150). -/
def fxDot (a b : List Fx) : W32 :=
  let l := (a.zip b).map fun p => ({ v := fxMul p.1 p.2, n := 1 } : Term)
  f32OfFx (sumTerms l.length l)

end Sys2Proof.Machine
end

