-- ==== Sys2Proof/Machine/RegTable.lean ====
section
/-! DEFINITION. The register tables of the spec (every table whose rows give Bits, Field, Access, Reset and Meaning):
the name of each register, where it stands in its block, and for each field its bits, its access type (R13), its reset
value and the lowest reset level that restores it (R15). A row that the spec calls Reserved is the absence of a field:
its bits read as zero and a write to them is discarded (R13, RsvdZ). -/

namespace Sys2Proof.Machine

/-- The name of a register, as the spec spells it. A 64-bit pair is two names, LO and HI (R12). An array of registers
(`_k`, `_v`, `_r`, `_b` in the spec) is one name, and `Reg.idx` says which of them. -/
inductive RN where
  | RGN_CLK_CTRL | RGN_CLK_STATUS | FT_CTRL | FT_STATUS | FT_REF_NODE | FT_REF_PORT_MASK
  | FT_REPLICA_STATUS | FT_NOW_LO | FT_NOW_HI | FT_HOST_LO | FT_HOST_HI | FT_OFFSET_LO
  | FT_OFFSET_HI | FT_PATH_DELAY | FT_ASYM_CORR | FT_LOCK_THRESH | FT_STEP_LIMIT | FT_BEACON_TIMEOUT
  | FT_HOLDOVER_LIMIT | FT_FREQ_OFFSET | FT_EVENT_COALESCE | ID_VENDOR | ID_STEPPING | ID_IFV_OFFERED
  | ID_SERIAL_LO | ID_SERIAL_HI | ID_CAP_OPC | ID_CAP_FEAT | MB_DESC | MB_COMP
  | MB_DOORBELL | MB_STATUS | MB_DATA | RING_DOORBELL | RING_SQ | RING_CQ
  | RING_IRQ_CTRL | RING_STATE | IF_STATE | IF_INT_STATUS | IF_INT_ENABLE | IF_INT_COALESCE
  | JRN_NEWEST_SEQ | JRN_OLDEST_SEQ | JRN_STATUS | JRN_COALESCE | SES_QUOTA_DIR | SES_USE_DIR
  | SES_QUOTA_LIVE | SES_USE_LIVE | SES_TTL_PAUSED | SES_TTL_CXL | SES_TTL_MULCH | SES_TTL_DROPPED
  | SES_STATUS | SES_COALESCE | SES_MAP_VERSION | SES_LEASE | SES_DIR_WIN | SES_HOME_COUNT
  | SES_OWNER_COUNT | SES_REBUILD_LEFT | SCH_CTRL | SCH_SLICE | SCH_SKIP_EST | SCH_STATUS
  | SCH_COALESCE | SCH_PROFILES | SCH_STEPS | SCH_SKIPPED | SCH_HELD | SCH_LATE
  | SCH_OVERCOMMIT | SCH_JOBS | RGN_ATT_CTRL | RGN_ATT_STATUS | RGN_ATT_COALESCE | RGN_ATT_NONFINITE_ROWS
  | RGN_ATT_TESTED_LO | RGN_ATT_TESTED_HI | RGN_ATT_SKIPPED_LO | RGN_ATT_SKIPPED_HI | RGN_ATT_FETCHED_LO | RGN_ATT_FETCHED_HI
  | RGN_ATT_SUMMARY_BYTES_LO | RGN_ATT_SUMMARY_BYTES_HI | RGN_ATT_ROWS_LO | RGN_ATT_ROWS_HI | LX_STATUS | LX_COALESCE
  | LX_GRAFT_QUOTA | LX_GRAFT_USE | LX_REJECTS | LX_ABANDONED | LX_LAYER_MSGS_LO | LX_LAYER_MSGS_HI
  | LX_GROUP_STEP | LX_GROUP_NODES | KV_CTRL | KV_STATUS | KV_COALESCE | KV_PFX_CTRL
  | KV_FAULT_VA_LO | KV_FAULT_VA_HI | KV_RANGES | KV_PFX_NODES | KV_FRAMES | KV_PLOTS
  | KV_PFX_HITS_LO | KV_PFX_HITS_HI | KV_PFX_MISSES_LO | KV_PFX_MISSES_HI | KV_PRUNED_LO | KV_PRUNED_HI
  | RGN_PW_HITS_LO | RGN_PW_HITS_HI | RGN_PW_MISSES_LO | RGN_PW_MISSES_HI | RGN_PW_FREE_PLOTS | IN_STATUS
  | IN_COALESCE | IN_TABLES | IN_PIECE_CUTS | IN_BYTES_LO | IN_BYTES_HI | IN_TOKENS_LO
  | IN_TOKENS_HI | IN_FALLBACK_LO | IN_FALLBACK_HI | IN_AUDIO_LO | IN_AUDIO_HI | IN_PASSED_LO
  | IN_PASSED_HI | DS_TOK_CACHE_HITS_LO | DS_TOK_CACHE_HITS_HI | DS_TOK_CACHE_MISSES_LO | DS_TOK_CACHE_MISSES_HI | DS_TOK_CONTEXTS
  | DS_TOK_BUSY | SMP_STATUS | SMP_COALESCE | SMP_FUR_HEAD | SMP_FUR_SEL | SMP_FUR_STATE
  | SMP_SAMPLED_LO | SMP_SAMPLED_HI | SMP_DRAFTS_LO | SMP_DRAFTS_HI | SMP_ACCEPTED_LO | SMP_ACCEPTED_HI
  | SMP_UNDERRUNS | SMP_STOPS | SMP_GRAMMARS | TIER_CTRL | TIER_STATUS | TIER_COALESCE
  | TIER_QUOTA_NEAR | TIER_USE_NEAR | TIER_QUOTA_CXL | TIER_USE_CXL | TIER_QUOTA_MULCH | TIER_USE_MULCH
  | TIER_MOVED_LO | TIER_MOVED_HI | TIER_QUEUE | CXL_CTRL | CXL_STATUS | CXL_EVENT
  | CXL_COALESCE | CXL_IO_ADDR_LO | CXL_IO_ADDR_HI | CXL_IO_DATA | CXL_IO_CTRL | CXL_RAKE_PERIOD
  | CXL_HDM_BASE | CXL_HDM_SIZE | CXL_HDM_CTRL | CXL_EXTENTS | CXL_RD_BYTES_LO | CXL_RD_BYTES_HI
  | CXL_WR_BYTES_LO | CXL_WR_BYTES_HI | RGN_MEM_STATUS | RGN_MEM_COALESCE | RGN_MEM_CTRL | RGN_MEM_SPARE
  | RGN_MEM_INNER_LO | RGN_MEM_INNER_HI | RGN_MEM_OUTER_LO | RGN_MEM_OUTER_HI | RGN_MEM_POISONED | RGN_MEM_DIE_ERR
  | RGN_RAKE_PERIOD | RGN_RAKE_POS | FL_CTRL | FL_LOG_WATER | FL_READ_LIMIT | FL_REFRESH_BITS
  | FL_STATUS | FL_COALESCE | FL_FREE_BLOCKS | FL_STALE_BLOCKS | FL_POOLS | FL_LOG
  | FL_ERASE | FL_ERASE_MEAN | FL_MAPPED | FL_RAKE_PERIOD | FL_DISCARD_LIMIT | FL_REQ_WR_LO
  | FL_REQ_WR_HI | FL_NAND_WR_LO | FL_NAND_WR_HI | FL_RD_LO | FL_RD_HI | FL_MERGES
  | FL_MOVES | FL_UNCORRECTED | FL_RAKE_POS | FL_DISCARD_PENDING | VS_STATUS | VS_COALESCE
  | VS_INDEXES | VS_QUERIES_LO | VS_QUERIES_HI | VS_VISITS_LO | VS_VISITS_HI | VS_REMOTE_SERVED
  | VS_SHORT | DS_GW_BUSY | DS_GW_INFLIGHT | DS_GW_VISITS_LO | DS_GW_VISITS_HI | PLW_CTRL
  | PLW_STATE | PLW_PARTNER | PLW_STATUS | PLW_COALESCE | PLW_FEC_CORR_LO | PLW_FEC_CORR_HI
  | PLW_FEC_UNCORR | PLW_REPLAYS | PLW_OVERHEAD | PLW_SAMPLE_PERIOD | PLW_TX_BYTES_LO | PLW_TX_BYTES_HI
  | PLW_RX_BYTES_LO | PLW_RX_BYTES_HI | PLW_SHAPE_RATE | PLW_SHAPE_BURST | PLW_POLICE_RATE | PLW_POLICE_BURST
  | PLW_Q_DEPTH | PLW_Q_DELAY | PLW_Q_DELAY_MAX | PLW_POLICED | PLW_DROP | PLW_NODE
  | PLW_GCTRL | PLW_KEYS | PLW_ROUTE | EXP_STATUS | EXP_COALESCE | EXP_RECALL_TIMEOUT
  | EXP_COUNTS | EXP_LINES_HELD | EXP_LINES_POISONED | EXP_REQS_LO | EXP_REQS_HI | EXP_REFUSED
  | CK_STATUS | CK_COALESCE | CK_STATE | CK_LEAD | CK_STAGE_TTL | CK_ID_LO
  | CK_ID_HI | CK_CUT_LO | CK_CUT_HI | CK_SESSIONS | CK_BYTES_LO | CK_BYTES_HI
  | CK_SHARDS_KEPT | SEC_STATE | SEC_STATUS | SEC_COALESCE | SEC_BUNDLE_VERSION | SEC_BUNDLE_DIGEST
  | SEC_TAG_FAIL_LO | SEC_TAG_FAIL_HI | SEC_BED_REGIONS_TABLE | SEC_BED_STATE | SEC_BED_STATUS | SEC_BED_COALESCE
  | SEC_BED_REGIONS | SEC_BED_DIGEST | SEC_BED_TAG_FAIL | SEC_BED_BUNDLE | FLT_STATE | FLT_STATUS
  | FLT_COALESCE | FLT_ENABLE | FLT_CTRL | FLT_WATCHDOG | FLT_COUNT_C | FLT_UNITS_FENCED
  | FLT_LOG_SEQ | FLT_FIRST | FLT_FIRST_ARM | FLT_UNIT_MAP | FLT_INJECT | FLT_BED_STATE
  | FLT_BED_STATUS | FLT_BED_COALESCE | FLT_BED_FIRST | FLT_BED_FIRST_ARM | CTR_CTRL | CTR_STATUS
  | CTR_COALESCE | CTR_SEL | CTR_VAL_LO | CTR_VAL_HI | CTR_GLOBAL | CTR_GLOBAL_CMD
  | CTR_GRANT | TRC_CTRL | TRC_BASE_LO | TRC_BASE_HI | TRC_SIZE | TRC_TAIL
  | TRC_HEAD | TRC_STATUS | TRC_COALESCE | TRC_LOST | TRC_RANGE | HUB_BOOT
  | HUB_RESET_CAUSE | HUB_RESET_CTRL | HUB_REGION_RESET | HUB_VIN | HUB_POWER | HUB_POWER_PEAK
  | HUB_TEMP | HUB_PWR_STATUS | HUB_PWR_COALESCE | HUB_PWR_ENABLE
  deriving DecidableEq, Repr

/-- The register blocks: R62 (physical function), R63 (virtual function), R64 (BAR2). -/
inductive Blk where
  | rgn | frameTime | ident | mailbox | ring | iface | journal | sesBed
  | sesPf | sch | lx | kv | intake | die | smp | tier
  | cxl | flash | search | plw | exp | ck | sec | secBed
  | flt | fltBed | ctr | ctrGlobal | trace | hub
  deriving DecidableEq, Repr

/-- Register access types (R13). A reserved field has no row, so `RsvdZ` needs no constructor; no register of the
stepping has an `RsvdP` or a `W1S` field. -/
inductive Access where
  | rw | ro | w1c | rc | wo
  deriving DecidableEq, Repr

/-- Reset levels (R15). -/
inductive Level where
  | powerOn | device | partition | region | functionLevel
  deriving DecidableEq, Repr

/-- One row of a register table: bits `[hi:lo]`, access, reset value, level. -/
structure FieldInfo where
  hi : Nat
  lo : Nat
  acc : Access
  reset : Nat
  level : Level
  deriving DecidableEq, Repr

/-- Where a register stands in its block: offset `off`, an outer index `first … last` with a stride, and an inner index
of `count2` registers with a stride of 4 (a mailbox's words; the node registers of a partner group). -/
structure Place where
  blk : Blk
  off : Nat
  stride : Nat := 0
  first : Nat := 0
  last : Nat := 0
  stride2 : Nat := 0
  count2 : Nat := 1
  deriving DecidableEq, Repr

/-- A named field of a register, bits `[hi:lo]`. -/
structure Fld where
  reg : RN
  hi : Nat
  lo : Nat
  deriving DecidableEq, Repr

/-- Register names, part 0. -/
def RN.part0 : List RN :=
  [.RGN_CLK_CTRL, .RGN_CLK_STATUS, .FT_CTRL, .FT_STATUS, .FT_REF_NODE, .FT_REF_PORT_MASK,
   .FT_REPLICA_STATUS, .FT_NOW_LO, .FT_NOW_HI, .FT_HOST_LO, .FT_HOST_HI, .FT_OFFSET_LO,
   .FT_OFFSET_HI, .FT_PATH_DELAY, .FT_ASYM_CORR, .FT_LOCK_THRESH, .FT_STEP_LIMIT, .FT_BEACON_TIMEOUT,
   .FT_HOLDOVER_LIMIT, .FT_FREQ_OFFSET, .FT_EVENT_COALESCE, .ID_VENDOR, .ID_STEPPING, .ID_IFV_OFFERED,
   .ID_SERIAL_LO, .ID_SERIAL_HI, .ID_CAP_OPC, .ID_CAP_FEAT, .MB_DESC, .MB_COMP]

/-- Register names, part 1. -/
def RN.part1 : List RN :=
  [.MB_DOORBELL, .MB_STATUS, .MB_DATA, .RING_DOORBELL, .RING_SQ, .RING_CQ,
   .RING_IRQ_CTRL, .RING_STATE, .IF_STATE, .IF_INT_STATUS, .IF_INT_ENABLE, .IF_INT_COALESCE,
   .JRN_NEWEST_SEQ, .JRN_OLDEST_SEQ, .JRN_STATUS, .JRN_COALESCE, .SES_QUOTA_DIR, .SES_USE_DIR,
   .SES_QUOTA_LIVE, .SES_USE_LIVE, .SES_TTL_PAUSED, .SES_TTL_CXL, .SES_TTL_MULCH, .SES_TTL_DROPPED,
   .SES_STATUS, .SES_COALESCE, .SES_MAP_VERSION, .SES_LEASE, .SES_DIR_WIN, .SES_HOME_COUNT]

/-- Register names, part 2. -/
def RN.part2 : List RN :=
  [.SES_OWNER_COUNT, .SES_REBUILD_LEFT, .SCH_CTRL, .SCH_SLICE, .SCH_SKIP_EST, .SCH_STATUS,
   .SCH_COALESCE, .SCH_PROFILES, .SCH_STEPS, .SCH_SKIPPED, .SCH_HELD, .SCH_LATE,
   .SCH_OVERCOMMIT, .SCH_JOBS, .RGN_ATT_CTRL, .RGN_ATT_STATUS, .RGN_ATT_COALESCE, .RGN_ATT_NONFINITE_ROWS,
   .RGN_ATT_TESTED_LO, .RGN_ATT_TESTED_HI, .RGN_ATT_SKIPPED_LO, .RGN_ATT_SKIPPED_HI, .RGN_ATT_FETCHED_LO, .RGN_ATT_FETCHED_HI,
   .RGN_ATT_SUMMARY_BYTES_LO, .RGN_ATT_SUMMARY_BYTES_HI, .RGN_ATT_ROWS_LO, .RGN_ATT_ROWS_HI, .LX_STATUS, .LX_COALESCE]

/-- Register names, part 3. -/
def RN.part3 : List RN :=
  [.LX_GRAFT_QUOTA, .LX_GRAFT_USE, .LX_REJECTS, .LX_ABANDONED, .LX_LAYER_MSGS_LO, .LX_LAYER_MSGS_HI,
   .LX_GROUP_STEP, .LX_GROUP_NODES, .KV_CTRL, .KV_STATUS, .KV_COALESCE, .KV_PFX_CTRL,
   .KV_FAULT_VA_LO, .KV_FAULT_VA_HI, .KV_RANGES, .KV_PFX_NODES, .KV_FRAMES, .KV_PLOTS,
   .KV_PFX_HITS_LO, .KV_PFX_HITS_HI, .KV_PFX_MISSES_LO, .KV_PFX_MISSES_HI, .KV_PRUNED_LO, .KV_PRUNED_HI,
   .RGN_PW_HITS_LO, .RGN_PW_HITS_HI, .RGN_PW_MISSES_LO, .RGN_PW_MISSES_HI, .RGN_PW_FREE_PLOTS, .IN_STATUS]

/-- Register names, part 4. -/
def RN.part4 : List RN :=
  [.IN_COALESCE, .IN_TABLES, .IN_PIECE_CUTS, .IN_BYTES_LO, .IN_BYTES_HI, .IN_TOKENS_LO,
   .IN_TOKENS_HI, .IN_FALLBACK_LO, .IN_FALLBACK_HI, .IN_AUDIO_LO, .IN_AUDIO_HI, .IN_PASSED_LO,
   .IN_PASSED_HI, .DS_TOK_CACHE_HITS_LO, .DS_TOK_CACHE_HITS_HI, .DS_TOK_CACHE_MISSES_LO, .DS_TOK_CACHE_MISSES_HI, .DS_TOK_CONTEXTS,
   .DS_TOK_BUSY, .SMP_STATUS, .SMP_COALESCE, .SMP_FUR_HEAD, .SMP_FUR_SEL, .SMP_FUR_STATE,
   .SMP_SAMPLED_LO, .SMP_SAMPLED_HI, .SMP_DRAFTS_LO, .SMP_DRAFTS_HI, .SMP_ACCEPTED_LO, .SMP_ACCEPTED_HI]

/-- Register names, part 5. -/
def RN.part5 : List RN :=
  [.SMP_UNDERRUNS, .SMP_STOPS, .SMP_GRAMMARS, .TIER_CTRL, .TIER_STATUS, .TIER_COALESCE,
   .TIER_QUOTA_NEAR, .TIER_USE_NEAR, .TIER_QUOTA_CXL, .TIER_USE_CXL, .TIER_QUOTA_MULCH, .TIER_USE_MULCH,
   .TIER_MOVED_LO, .TIER_MOVED_HI, .TIER_QUEUE, .CXL_CTRL, .CXL_STATUS, .CXL_EVENT,
   .CXL_COALESCE, .CXL_IO_ADDR_LO, .CXL_IO_ADDR_HI, .CXL_IO_DATA, .CXL_IO_CTRL, .CXL_RAKE_PERIOD,
   .CXL_HDM_BASE, .CXL_HDM_SIZE, .CXL_HDM_CTRL, .CXL_EXTENTS, .CXL_RD_BYTES_LO, .CXL_RD_BYTES_HI]

/-- Register names, part 6. -/
def RN.part6 : List RN :=
  [.CXL_WR_BYTES_LO, .CXL_WR_BYTES_HI, .RGN_MEM_STATUS, .RGN_MEM_COALESCE, .RGN_MEM_CTRL, .RGN_MEM_SPARE,
   .RGN_MEM_INNER_LO, .RGN_MEM_INNER_HI, .RGN_MEM_OUTER_LO, .RGN_MEM_OUTER_HI, .RGN_MEM_POISONED, .RGN_MEM_DIE_ERR,
   .RGN_RAKE_PERIOD, .RGN_RAKE_POS, .FL_CTRL, .FL_LOG_WATER, .FL_READ_LIMIT, .FL_REFRESH_BITS,
   .FL_STATUS, .FL_COALESCE, .FL_FREE_BLOCKS, .FL_STALE_BLOCKS, .FL_POOLS, .FL_LOG,
   .FL_ERASE, .FL_ERASE_MEAN, .FL_MAPPED, .FL_RAKE_PERIOD, .FL_DISCARD_LIMIT, .FL_REQ_WR_LO]

/-- Register names, part 7. -/
def RN.part7 : List RN :=
  [.FL_REQ_WR_HI, .FL_NAND_WR_LO, .FL_NAND_WR_HI, .FL_RD_LO, .FL_RD_HI, .FL_MERGES,
   .FL_MOVES, .FL_UNCORRECTED, .FL_RAKE_POS, .FL_DISCARD_PENDING, .VS_STATUS, .VS_COALESCE,
   .VS_INDEXES, .VS_QUERIES_LO, .VS_QUERIES_HI, .VS_VISITS_LO, .VS_VISITS_HI, .VS_REMOTE_SERVED,
   .VS_SHORT, .DS_GW_BUSY, .DS_GW_INFLIGHT, .DS_GW_VISITS_LO, .DS_GW_VISITS_HI, .PLW_CTRL,
   .PLW_STATE, .PLW_PARTNER, .PLW_STATUS, .PLW_COALESCE, .PLW_FEC_CORR_LO, .PLW_FEC_CORR_HI]

/-- Register names, part 8. -/
def RN.part8 : List RN :=
  [.PLW_FEC_UNCORR, .PLW_REPLAYS, .PLW_OVERHEAD, .PLW_SAMPLE_PERIOD, .PLW_TX_BYTES_LO, .PLW_TX_BYTES_HI,
   .PLW_RX_BYTES_LO, .PLW_RX_BYTES_HI, .PLW_SHAPE_RATE, .PLW_SHAPE_BURST, .PLW_POLICE_RATE, .PLW_POLICE_BURST,
   .PLW_Q_DEPTH, .PLW_Q_DELAY, .PLW_Q_DELAY_MAX, .PLW_POLICED, .PLW_DROP, .PLW_NODE,
   .PLW_GCTRL, .PLW_KEYS, .PLW_ROUTE, .EXP_STATUS, .EXP_COALESCE, .EXP_RECALL_TIMEOUT,
   .EXP_COUNTS, .EXP_LINES_HELD, .EXP_LINES_POISONED, .EXP_REQS_LO, .EXP_REQS_HI, .EXP_REFUSED]

/-- Register names, part 9. -/
def RN.part9 : List RN :=
  [.CK_STATUS, .CK_COALESCE, .CK_STATE, .CK_LEAD, .CK_STAGE_TTL, .CK_ID_LO,
   .CK_ID_HI, .CK_CUT_LO, .CK_CUT_HI, .CK_SESSIONS, .CK_BYTES_LO, .CK_BYTES_HI,
   .CK_SHARDS_KEPT, .SEC_STATE, .SEC_STATUS, .SEC_COALESCE, .SEC_BUNDLE_VERSION, .SEC_BUNDLE_DIGEST,
   .SEC_TAG_FAIL_LO, .SEC_TAG_FAIL_HI, .SEC_BED_REGIONS_TABLE, .SEC_BED_STATE, .SEC_BED_STATUS, .SEC_BED_COALESCE,
   .SEC_BED_REGIONS, .SEC_BED_DIGEST, .SEC_BED_TAG_FAIL, .SEC_BED_BUNDLE, .FLT_STATE, .FLT_STATUS]

/-- Register names, part 10. -/
def RN.part10 : List RN :=
  [.FLT_COALESCE, .FLT_ENABLE, .FLT_CTRL, .FLT_WATCHDOG, .FLT_COUNT_C, .FLT_UNITS_FENCED,
   .FLT_LOG_SEQ, .FLT_FIRST, .FLT_FIRST_ARM, .FLT_UNIT_MAP, .FLT_INJECT, .FLT_BED_STATE,
   .FLT_BED_STATUS, .FLT_BED_COALESCE, .FLT_BED_FIRST, .FLT_BED_FIRST_ARM, .CTR_CTRL, .CTR_STATUS,
   .CTR_COALESCE, .CTR_SEL, .CTR_VAL_LO, .CTR_VAL_HI, .CTR_GLOBAL, .CTR_GLOBAL_CMD,
   .CTR_GRANT, .TRC_CTRL, .TRC_BASE_LO, .TRC_BASE_HI, .TRC_SIZE, .TRC_TAIL]

/-- Register names, part 11. -/
def RN.part11 : List RN :=
  [.TRC_HEAD, .TRC_STATUS, .TRC_COALESCE, .TRC_LOST, .TRC_RANGE, .HUB_BOOT,
   .HUB_RESET_CAUSE, .HUB_RESET_CTRL, .HUB_REGION_RESET, .HUB_VIN, .HUB_POWER, .HUB_POWER_PEAK,
   .HUB_TEMP, .HUB_PWR_STATUS, .HUB_PWR_COALESCE, .HUB_PWR_ENABLE]

/-- Every register name. -/
def RN.all : List RN :=
  List.flatten [RN.part0, RN.part1, RN.part2, RN.part3, RN.part4, RN.part5, RN.part6, RN.part7, RN.part8, RN.part9, RN.part10, RN.part11]

/-- A register of the tables: its place and its fields. -/
structure RegRow where
  place : Place
  fields : List FieldInfo
  deriving DecidableEq, Repr

namespace Row

def RGN_CLK_CTRL : RegRow :=
  ⟨⟨.rgn, 0x0000, 0, 0, 0, 0, 1⟩,
    [⟨0, 0, .rw, 0x0, .region⟩]⟩
def RGN_CLK_STATUS : RegRow :=
  ⟨⟨.rgn, 0x0004, 0, 0, 0, 0, 1⟩,
    [⟨19, 8, .ro, 0x708, .region⟩, ⟨2, 2, .ro, 0x0, .region⟩, ⟨1, 1, .ro, 0x0, .region⟩, ⟨0, 0, .ro, 0x0, .region⟩]⟩
def FT_CTRL : RegRow :=
  ⟨⟨.frameTime, 0x0008, 0, 0, 0, 0, 1⟩,
    [⟨8, 8, .wo, 0x0, .device⟩, ⟨1, 0, .rw, 0x0, .device⟩]⟩
def FT_STATUS : RegRow :=
  ⟨⟨.frameTime, 0x000C, 0, 0, 0, 0, 1⟩,
    [⟨7, 7, .w1c, 0x0, .device⟩, ⟨6, 6, .w1c, 0x0, .device⟩, ⟨5, 5, .w1c, 0x0, .device⟩,
     ⟨4, 4, .w1c, 0x0, .device⟩, ⟨3, 3, .w1c, 0x0, .device⟩, ⟨2, 0, .ro, 0x0, .device⟩]⟩
def FT_REF_NODE : RegRow :=
  ⟨⟨.frameTime, 0x0018, 0, 0, 0, 0, 1⟩,
    [⟨23, 16, .rw, 0x0, .device⟩, ⟨8, 0, .rw, 0x0, .device⟩]⟩
def FT_REF_PORT_MASK : RegRow :=
  ⟨⟨.frameTime, 0x001C, 0, 0, 0, 0, 1⟩,
    [⟨7, 0, .rw, 0xFF, .device⟩]⟩
def FT_REPLICA_STATUS : RegRow :=
  ⟨⟨.frameTime, 0x0044, 0, 0, 0, 0, 1⟩,
    [⟨19, 16, .ro, 0x0, .device⟩, ⟨15, 0, .ro, 0x0, .device⟩]⟩
def FT_NOW_LO : RegRow :=
  ⟨⟨.frameTime, 0x0000, 0, 0, 0, 0, 1⟩,
    [⟨31, 0, .ro, 0x0, .powerOn⟩]⟩
def FT_NOW_HI : RegRow :=
  ⟨⟨.frameTime, 0x0004, 0, 0, 0, 0, 1⟩,
    [⟨31, 0, .ro, 0x0, .powerOn⟩]⟩
def FT_HOST_LO : RegRow :=
  ⟨⟨.frameTime, 0x0010, 0, 0, 0, 0, 1⟩,
    [⟨31, 0, .wo, 0x0, .device⟩]⟩
def FT_HOST_HI : RegRow :=
  ⟨⟨.frameTime, 0x0014, 0, 0, 0, 0, 1⟩,
    [⟨31, 0, .wo, 0x0, .device⟩]⟩
def FT_OFFSET_LO : RegRow :=
  ⟨⟨.frameTime, 0x0020, 0, 0, 0, 0, 1⟩,
    [⟨31, 0, .ro, 0x0, .device⟩]⟩
def FT_OFFSET_HI : RegRow :=
  ⟨⟨.frameTime, 0x0024, 0, 0, 0, 0, 1⟩,
    [⟨31, 0, .ro, 0x0, .device⟩]⟩
def FT_PATH_DELAY : RegRow :=
  ⟨⟨.frameTime, 0x0028, 0, 0, 0, 0, 1⟩,
    [⟨31, 0, .ro, 0x0, .device⟩]⟩
def FT_ASYM_CORR : RegRow :=
  ⟨⟨.frameTime, 0x002C, 0, 0, 0, 0, 1⟩,
    [⟨31, 0, .rw, 0x0, .device⟩]⟩
def FT_LOCK_THRESH : RegRow :=
  ⟨⟨.frameTime, 0x0030, 0, 0, 0, 0, 1⟩,
    [⟨31, 0, .rw, 0x9C40, .device⟩]⟩
def FT_STEP_LIMIT : RegRow :=
  ⟨⟨.frameTime, 0x0034, 0, 0, 0, 0, 1⟩,
    [⟨31, 0, .rw, 0x30000000, .device⟩]⟩
def FT_BEACON_TIMEOUT : RegRow :=
  ⟨⟨.frameTime, 0x0038, 0, 0, 0, 0, 1⟩,
    [⟨31, 0, .rw, 0x8, .device⟩]⟩
def FT_HOLDOVER_LIMIT : RegRow :=
  ⟨⟨.frameTime, 0x003C, 0, 0, 0, 0, 1⟩,
    [⟨31, 0, .rw, 0x75300, .device⟩]⟩
def FT_FREQ_OFFSET : RegRow :=
  ⟨⟨.frameTime, 0x0040, 0, 0, 0, 0, 1⟩,
    [⟨31, 0, .ro, 0x0, .powerOn⟩]⟩
def FT_EVENT_COALESCE : RegRow :=
  ⟨⟨.frameTime, 0x0048, 0, 0, 0, 0, 1⟩,
    [⟨31, 0, .rc, 0x0, .device⟩]⟩
def ID_VENDOR : RegRow :=
  ⟨⟨.ident, 0x0000, 0, 0, 0, 0, 1⟩,
    [⟨31, 16, .ro, 0x4160, .powerOn⟩, ⟨15, 0, .ro, 0x1F5A, .powerOn⟩]⟩
def ID_STEPPING : RegRow :=
  ⟨⟨.ident, 0x0004, 0, 0, 0, 0, 1⟩,
    [⟨7, 4, .ro, 0x1, .powerOn⟩, ⟨3, 0, .ro, 0x1, .powerOn⟩]⟩
def ID_IFV_OFFERED : RegRow :=
  ⟨⟨.ident, 0x0008, 0, 0, 0, 0, 1⟩,
    [⟨26, 24, .ro, 0x7, .powerOn⟩, ⟨23, 16, .ro, 0x0, .powerOn⟩, ⟨15, 8, .ro, 0x2, .powerOn⟩,
     ⟨7, 0, .ro, 0x3, .powerOn⟩]⟩
def ID_SERIAL_LO : RegRow :=
  ⟨⟨.ident, 0x0010, 0, 0, 0, 0, 1⟩,
    [⟨31, 0, .ro, 0x0, .powerOn⟩]⟩
def ID_SERIAL_HI : RegRow :=
  ⟨⟨.ident, 0x0014, 0, 0, 0, 0, 1⟩,
    [⟨31, 0, .ro, 0x0, .powerOn⟩]⟩
def ID_CAP_OPC : RegRow :=
  ⟨⟨.ident, 0x0100, 4, 0, 127, 0, 1⟩,
    [⟨31, 0, .ro, 0x0, .powerOn⟩]⟩
def ID_CAP_FEAT : RegRow :=
  ⟨⟨.ident, 0x0300, 4, 0, 7, 0, 1⟩,
    [⟨31, 0, .ro, 0x0, .powerOn⟩]⟩
def MB_DESC : RegRow :=
  ⟨⟨.mailbox, 0x0000, 256, 0, 15, 4, 16⟩,
    [⟨31, 0, .rw, 0x0, .functionLevel⟩]⟩
def MB_COMP : RegRow :=
  ⟨⟨.mailbox, 0x0040, 256, 0, 15, 4, 8⟩,
    [⟨31, 0, .ro, 0x0, .functionLevel⟩]⟩
def MB_DOORBELL : RegRow :=
  ⟨⟨.mailbox, 0x0060, 256, 0, 15, 4, 1⟩,
    [⟨0, 0, .wo, 0x0, .functionLevel⟩]⟩
def MB_STATUS : RegRow :=
  ⟨⟨.mailbox, 0x0064, 256, 0, 15, 4, 1⟩,
    [⟨0, 0, .ro, 0x0, .functionLevel⟩]⟩
def MB_DATA : RegRow :=
  ⟨⟨.mailbox, 0x0080, 256, 0, 15, 4, 32⟩,
    [⟨31, 0, .rw, 0x0, .functionLevel⟩]⟩
def RING_DOORBELL : RegRow :=
  ⟨⟨.ring, 0x0000, 4, 0, 255, 0, 1⟩,
    [⟨15, 0, .wo, 0x0, .functionLevel⟩]⟩
def RING_SQ : RegRow :=
  ⟨⟨.ring, 0x0000, 32, 0, 255, 0, 1⟩,
    [⟨31, 16, .ro, 0x0, .functionLevel⟩, ⟨15, 0, .ro, 0x0, .functionLevel⟩]⟩
def RING_CQ : RegRow :=
  ⟨⟨.ring, 0x0004, 32, 0, 255, 0, 1⟩,
    [⟨31, 16, .ro, 0x0, .functionLevel⟩, ⟨15, 0, .rw, 0x0, .functionLevel⟩]⟩
def RING_IRQ_CTRL : RegRow :=
  ⟨⟨.ring, 0x0008, 32, 0, 255, 0, 1⟩,
    [⟨31, 24, .rw, 0x1, .functionLevel⟩, ⟨21, 16, .rw, 0x0, .functionLevel⟩, ⟨15, 0, .rw, 0x0, .functionLevel⟩]⟩
def RING_STATE : RegRow :=
  ⟨⟨.ring, 0x000C, 32, 0, 255, 0, 1⟩,
    [⟨5, 2, .ro, 0x0, .functionLevel⟩, ⟨1, 0, .ro, 0x0, .functionLevel⟩]⟩
def IF_STATE : RegRow :=
  ⟨⟨.iface, 0x0000, 0, 0, 0, 0, 1⟩,
    [⟨8, 8, .ro, 0x0, .functionLevel⟩, ⟨7, 0, .ro, 0x0, .functionLevel⟩]⟩
def IF_INT_STATUS : RegRow :=
  ⟨⟨.iface, 0x0004, 0, 0, 0, 0, 1⟩,
    [⟨17, 17, .w1c, 0x0, .functionLevel⟩, ⟨16, 16, .w1c, 0x0, .functionLevel⟩, ⟨15, 0, .w1c, 0x0, .functionLevel⟩]⟩
def IF_INT_ENABLE : RegRow :=
  ⟨⟨.iface, 0x0008, 0, 0, 0, 0, 1⟩,
    [⟨17, 0, .rw, 0x0, .functionLevel⟩]⟩
def IF_INT_COALESCE : RegRow :=
  ⟨⟨.iface, 0x000C, 0, 0, 0, 0, 1⟩,
    [⟨31, 0, .rc, 0x0, .functionLevel⟩]⟩
def JRN_NEWEST_SEQ : RegRow :=
  ⟨⟨.journal, 0x0000, 0, 0, 0, 0, 1⟩,
    [⟨31, 0, .ro, 0x0, .device⟩]⟩
def JRN_OLDEST_SEQ : RegRow :=
  ⟨⟨.journal, 0x0004, 0, 0, 0, 0, 1⟩,
    [⟨31, 0, .ro, 0x0, .device⟩]⟩
def JRN_STATUS : RegRow :=
  ⟨⟨.journal, 0x0008, 0, 0, 0, 0, 1⟩,
    [⟨1, 1, .w1c, 0x0, .device⟩, ⟨0, 0, .w1c, 0x0, .device⟩]⟩
def JRN_COALESCE : RegRow :=
  ⟨⟨.journal, 0x000C, 0, 0, 0, 0, 1⟩,
    [⟨31, 0, .rc, 0x0, .device⟩]⟩
def SES_QUOTA_DIR : RegRow :=
  ⟨⟨.sesBed, 0x0000, 0, 0, 0, 0, 1⟩,
    [⟨31, 0, .ro, 0x0, .partition⟩]⟩
def SES_USE_DIR : RegRow :=
  ⟨⟨.sesBed, 0x0004, 0, 0, 0, 0, 1⟩,
    [⟨31, 0, .ro, 0x0, .partition⟩]⟩
def SES_QUOTA_LIVE : RegRow :=
  ⟨⟨.sesBed, 0x0008, 0, 0, 0, 0, 1⟩,
    [⟨31, 0, .ro, 0x0, .partition⟩]⟩
def SES_USE_LIVE : RegRow :=
  ⟨⟨.sesBed, 0x000C, 0, 0, 0, 0, 1⟩,
    [⟨31, 0, .ro, 0x0, .partition⟩]⟩
def SES_TTL_PAUSED : RegRow :=
  ⟨⟨.sesBed, 0x0010, 0, 0, 0, 0, 1⟩,
    [⟨31, 0, .ro, 0x15F900, .partition⟩]⟩
def SES_TTL_CXL : RegRow :=
  ⟨⟨.sesBed, 0x0014, 0, 0, 0, 0, 1⟩,
    [⟨31, 0, .ro, 0xA4CB800, .partition⟩]⟩
def SES_TTL_MULCH : RegRow :=
  ⟨⟨.sesBed, 0x0018, 0, 0, 0, 0, 1⟩,
    [⟨31, 0, .ro, 0xF7314000, .partition⟩]⟩
def SES_TTL_DROPPED : RegRow :=
  ⟨⟨.sesBed, 0x001C, 0, 0, 0, 0, 1⟩,
    [⟨31, 0, .ro, 0xFFFFFFFF, .partition⟩]⟩
def SES_STATUS : RegRow :=
  ⟨⟨.sesBed, 0x0020, 0, 0, 0, 0, 1⟩,
    [⟨5, 5, .w1c, 0x0, .partition⟩, ⟨4, 4, .w1c, 0x0, .partition⟩, ⟨3, 3, .w1c, 0x0, .partition⟩,
     ⟨2, 2, .w1c, 0x0, .partition⟩, ⟨1, 1, .w1c, 0x0, .partition⟩, ⟨0, 0, .w1c, 0x0, .partition⟩]⟩
def SES_COALESCE : RegRow :=
  ⟨⟨.sesBed, 0x0024, 0, 0, 0, 0, 1⟩,
    [⟨31, 0, .rc, 0x0, .partition⟩]⟩
def SES_MAP_VERSION : RegRow :=
  ⟨⟨.sesBed, 0x0028, 0, 0, 0, 0, 1⟩,
    [⟨31, 0, .ro, 0x0, .device⟩]⟩
def SES_LEASE : RegRow :=
  ⟨⟨.sesBed, 0x002C, 0, 0, 0, 0, 1⟩,
    [⟨31, 0, .ro, 0x0, .device⟩]⟩
def SES_DIR_WIN : RegRow :=
  ⟨⟨.sesPf, 0x0000, 0, 0, 0, 0, 1⟩,
    [⟨5, 0, .rw, 0x0, .device⟩]⟩
def SES_HOME_COUNT : RegRow :=
  ⟨⟨.sesPf, 0x0004, 0, 0, 0, 0, 1⟩,
    [⟨31, 0, .ro, 0x0, .device⟩]⟩
def SES_OWNER_COUNT : RegRow :=
  ⟨⟨.sesPf, 0x0008, 0, 0, 0, 0, 1⟩,
    [⟨31, 0, .ro, 0x0, .device⟩]⟩
def SES_REBUILD_LEFT : RegRow :=
  ⟨⟨.sesPf, 0x000C, 0, 0, 0, 0, 1⟩,
    [⟨31, 0, .ro, 0x0, .device⟩]⟩
def SCH_CTRL : RegRow :=
  ⟨⟨.sch, 0x0000, 0, 0, 0, 0, 1⟩,
    [⟨23, 16, .rw, 0x5A, .partition⟩, ⟨15, 8, .rw, 0x4B, .partition⟩, ⟨1, 1, .rw, 0x1, .partition⟩,
     ⟨0, 0, .rw, 0x0, .partition⟩]⟩
def SCH_SLICE : RegRow :=
  ⟨⟨.sch, 0x0004, 0, 0, 0, 0, 1⟩,
    [⟨8, 0, .rw, 0x10, .partition⟩]⟩
def SCH_SKIP_EST : RegRow :=
  ⟨⟨.sch, 0x0008, 0, 0, 0, 0, 1⟩,
    [⟨8, 0, .rw, 0x40, .partition⟩]⟩
def SCH_STATUS : RegRow :=
  ⟨⟨.sch, 0x000C, 0, 0, 0, 0, 1⟩,
    [⟨4, 4, .w1c, 0x0, .partition⟩, ⟨3, 3, .w1c, 0x0, .partition⟩, ⟨2, 2, .w1c, 0x0, .partition⟩,
     ⟨1, 1, .w1c, 0x0, .partition⟩, ⟨0, 0, .w1c, 0x0, .partition⟩]⟩
def SCH_COALESCE : RegRow :=
  ⟨⟨.sch, 0x0010, 0, 0, 0, 0, 1⟩,
    [⟨31, 0, .rc, 0x0, .partition⟩]⟩
def SCH_PROFILES : RegRow :=
  ⟨⟨.sch, 0x0014, 0, 0, 0, 0, 1⟩,
    [⟨31, 16, .ro, 0x0, .partition⟩, ⟨4, 0, .ro, 0x0, .partition⟩]⟩
def SCH_STEPS : RegRow :=
  ⟨⟨.sch, 0x0018, 0, 0, 0, 0, 1⟩,
    [⟨31, 0, .ro, 0x0, .partition⟩]⟩
def SCH_SKIPPED : RegRow :=
  ⟨⟨.sch, 0x001C, 0, 0, 0, 0, 1⟩,
    [⟨31, 0, .ro, 0x0, .partition⟩]⟩
def SCH_HELD : RegRow :=
  ⟨⟨.sch, 0x0020, 0, 0, 0, 0, 1⟩,
    [⟨31, 0, .ro, 0x0, .partition⟩]⟩
def SCH_LATE : RegRow :=
  ⟨⟨.sch, 0x0024, 0, 0, 0, 0, 1⟩,
    [⟨31, 0, .ro, 0x0, .partition⟩]⟩
def SCH_OVERCOMMIT : RegRow :=
  ⟨⟨.sch, 0x0028, 0, 0, 0, 0, 1⟩,
    [⟨31, 0, .ro, 0x0, .partition⟩]⟩
def SCH_JOBS : RegRow :=
  ⟨⟨.sch, 0x0400, 4, 0, 255, 0, 1⟩,
    [⟨31, 0, .ro, 0x0, .partition⟩]⟩
def RGN_ATT_CTRL : RegRow :=
  ⟨⟨.rgn, 0x1000, 0, 0, 0, 0, 1⟩,
    [⟨0, 0, .rw, 0x0, .region⟩]⟩
def RGN_ATT_STATUS : RegRow :=
  ⟨⟨.rgn, 0x1004, 0, 0, 0, 0, 1⟩,
    [⟨1, 1, .w1c, 0x0, .region⟩, ⟨0, 0, .w1c, 0x0, .region⟩]⟩
def RGN_ATT_COALESCE : RegRow :=
  ⟨⟨.rgn, 0x1008, 0, 0, 0, 0, 1⟩,
    [⟨31, 0, .rc, 0x0, .region⟩]⟩
def RGN_ATT_NONFINITE_ROWS : RegRow :=
  ⟨⟨.rgn, 0x100C, 0, 0, 0, 0, 1⟩,
    [⟨31, 0, .ro, 0x0, .region⟩]⟩
def RGN_ATT_TESTED_LO : RegRow :=
  ⟨⟨.rgn, 0x1010, 0, 0, 0, 0, 1⟩,
    [⟨31, 0, .ro, 0x0, .region⟩]⟩
def RGN_ATT_TESTED_HI : RegRow :=
  ⟨⟨.rgn, 0x1014, 0, 0, 0, 0, 1⟩,
    [⟨31, 0, .ro, 0x0, .region⟩]⟩
def RGN_ATT_SKIPPED_LO : RegRow :=
  ⟨⟨.rgn, 0x1018, 0, 0, 0, 0, 1⟩,
    [⟨31, 0, .ro, 0x0, .region⟩]⟩
def RGN_ATT_SKIPPED_HI : RegRow :=
  ⟨⟨.rgn, 0x101C, 0, 0, 0, 0, 1⟩,
    [⟨31, 0, .ro, 0x0, .region⟩]⟩
def RGN_ATT_FETCHED_LO : RegRow :=
  ⟨⟨.rgn, 0x1020, 0, 0, 0, 0, 1⟩,
    [⟨31, 0, .ro, 0x0, .region⟩]⟩
def RGN_ATT_FETCHED_HI : RegRow :=
  ⟨⟨.rgn, 0x1024, 0, 0, 0, 0, 1⟩,
    [⟨31, 0, .ro, 0x0, .region⟩]⟩
def RGN_ATT_SUMMARY_BYTES_LO : RegRow :=
  ⟨⟨.rgn, 0x1028, 0, 0, 0, 0, 1⟩,
    [⟨31, 0, .ro, 0x0, .region⟩]⟩
def RGN_ATT_SUMMARY_BYTES_HI : RegRow :=
  ⟨⟨.rgn, 0x102C, 0, 0, 0, 0, 1⟩,
    [⟨31, 0, .ro, 0x0, .region⟩]⟩
def RGN_ATT_ROWS_LO : RegRow :=
  ⟨⟨.rgn, 0x1030, 0, 0, 0, 0, 1⟩,
    [⟨31, 0, .ro, 0x0, .region⟩]⟩
def RGN_ATT_ROWS_HI : RegRow :=
  ⟨⟨.rgn, 0x1034, 0, 0, 0, 0, 1⟩,
    [⟨31, 0, .ro, 0x0, .region⟩]⟩
def LX_STATUS : RegRow :=
  ⟨⟨.lx, 0x0000, 0, 0, 0, 0, 1⟩,
    [⟨3, 3, .w1c, 0x0, .partition⟩, ⟨2, 2, .w1c, 0x0, .partition⟩, ⟨1, 1, .w1c, 0x0, .partition⟩,
     ⟨0, 0, .w1c, 0x0, .partition⟩]⟩
def LX_COALESCE : RegRow :=
  ⟨⟨.lx, 0x0004, 0, 0, 0, 0, 1⟩,
    [⟨31, 0, .rc, 0x0, .partition⟩]⟩
def LX_GRAFT_QUOTA : RegRow :=
  ⟨⟨.lx, 0x0008, 0, 0, 0, 0, 1⟩,
    [⟨12, 0, .ro, 0x0, .partition⟩]⟩
def LX_GRAFT_USE : RegRow :=
  ⟨⟨.lx, 0x000C, 0, 0, 0, 0, 1⟩,
    [⟨12, 0, .ro, 0x0, .partition⟩]⟩
def LX_REJECTS : RegRow :=
  ⟨⟨.lx, 0x0010, 0, 0, 0, 0, 1⟩,
    [⟨31, 0, .ro, 0x0, .partition⟩]⟩
def LX_ABANDONED : RegRow :=
  ⟨⟨.lx, 0x0014, 0, 0, 0, 0, 1⟩,
    [⟨31, 0, .ro, 0x0, .partition⟩]⟩
def LX_LAYER_MSGS_LO : RegRow :=
  ⟨⟨.lx, 0x0018, 0, 0, 0, 0, 1⟩,
    [⟨31, 0, .ro, 0x0, .partition⟩]⟩
def LX_LAYER_MSGS_HI : RegRow :=
  ⟨⟨.lx, 0x001C, 0, 0, 0, 0, 1⟩,
    [⟨31, 0, .ro, 0x0, .partition⟩]⟩
def LX_GROUP_STEP : RegRow :=
  ⟨⟨.lx, 0x0100, 16, 0, 15, 0, 1⟩,
    [⟨31, 31, .ro, 0x0, .partition⟩, ⟨8, 0, .ro, 0x0, .partition⟩]⟩
def LX_GROUP_NODES : RegRow :=
  ⟨⟨.lx, 0x0104, 16, 0, 15, 4, 3⟩,
    [⟨31, 31, .ro, 0x0, .partition⟩, ⟨24, 16, .ro, 0x0, .partition⟩, ⟨15, 15, .ro, 0x0, .partition⟩,
     ⟨8, 0, .ro, 0x0, .partition⟩]⟩
def KV_CTRL : RegRow :=
  ⟨⟨.kv, 0x0000, 0, 0, 0, 0, 1⟩,
    [⟨2, 2, .rw, 0x1, .partition⟩, ⟨1, 0, .ro, 0x0, .partition⟩]⟩
def KV_STATUS : RegRow :=
  ⟨⟨.kv, 0x0004, 0, 0, 0, 0, 1⟩,
    [⟨5, 5, .w1c, 0x0, .partition⟩, ⟨4, 4, .w1c, 0x0, .partition⟩, ⟨3, 3, .w1c, 0x0, .partition⟩,
     ⟨2, 2, .w1c, 0x0, .partition⟩, ⟨1, 1, .w1c, 0x0, .partition⟩, ⟨0, 0, .w1c, 0x0, .partition⟩]⟩
def KV_COALESCE : RegRow :=
  ⟨⟨.kv, 0x0008, 0, 0, 0, 0, 1⟩,
    [⟨31, 0, .rc, 0x0, .partition⟩]⟩
def KV_PFX_CTRL : RegRow :=
  ⟨⟨.kv, 0x000C, 0, 0, 0, 0, 1⟩,
    [⟨7, 7, .rw, 0x0, .partition⟩, ⟨4, 0, .rw, 0xA, .partition⟩]⟩
def KV_FAULT_VA_LO : RegRow :=
  ⟨⟨.kv, 0x0010, 0, 0, 0, 0, 1⟩,
    [⟨31, 0, .ro, 0x0, .partition⟩]⟩
def KV_FAULT_VA_HI : RegRow :=
  ⟨⟨.kv, 0x0014, 0, 0, 0, 0, 1⟩,
    [⟨31, 0, .ro, 0x0, .partition⟩]⟩
def KV_RANGES : RegRow :=
  ⟨⟨.kv, 0x0018, 0, 0, 0, 0, 1⟩,
    [⟨15, 0, .ro, 0x0, .partition⟩]⟩
def KV_PFX_NODES : RegRow :=
  ⟨⟨.kv, 0x001C, 0, 0, 0, 0, 1⟩,
    [⟨31, 0, .ro, 0x0, .partition⟩]⟩
def KV_FRAMES : RegRow :=
  ⟨⟨.kv, 0x0020, 0, 0, 0, 0, 1⟩,
    [⟨31, 0, .ro, 0x0, .partition⟩]⟩
def KV_PLOTS : RegRow :=
  ⟨⟨.kv, 0x0024, 0, 0, 0, 0, 1⟩,
    [⟨31, 0, .ro, 0x0, .partition⟩]⟩
def KV_PFX_HITS_LO : RegRow :=
  ⟨⟨.kv, 0x0028, 0, 0, 0, 0, 1⟩,
    [⟨31, 0, .ro, 0x0, .partition⟩]⟩
def KV_PFX_HITS_HI : RegRow :=
  ⟨⟨.kv, 0x002C, 0, 0, 0, 0, 1⟩,
    [⟨31, 0, .ro, 0x0, .partition⟩]⟩
def KV_PFX_MISSES_LO : RegRow :=
  ⟨⟨.kv, 0x0030, 0, 0, 0, 0, 1⟩,
    [⟨31, 0, .ro, 0x0, .partition⟩]⟩
def KV_PFX_MISSES_HI : RegRow :=
  ⟨⟨.kv, 0x0034, 0, 0, 0, 0, 1⟩,
    [⟨31, 0, .ro, 0x0, .partition⟩]⟩
def KV_PRUNED_LO : RegRow :=
  ⟨⟨.kv, 0x0038, 0, 0, 0, 0, 1⟩,
    [⟨31, 0, .ro, 0x0, .partition⟩]⟩
def KV_PRUNED_HI : RegRow :=
  ⟨⟨.kv, 0x003C, 0, 0, 0, 0, 1⟩,
    [⟨31, 0, .ro, 0x0, .partition⟩]⟩
def RGN_PW_HITS_LO : RegRow :=
  ⟨⟨.rgn, 0x2000, 0, 0, 0, 0, 1⟩,
    [⟨31, 0, .ro, 0x0, .region⟩]⟩
def RGN_PW_HITS_HI : RegRow :=
  ⟨⟨.rgn, 0x2004, 0, 0, 0, 0, 1⟩,
    [⟨31, 0, .ro, 0x0, .region⟩]⟩
def RGN_PW_MISSES_LO : RegRow :=
  ⟨⟨.rgn, 0x2008, 0, 0, 0, 0, 1⟩,
    [⟨31, 0, .ro, 0x0, .region⟩]⟩
def RGN_PW_MISSES_HI : RegRow :=
  ⟨⟨.rgn, 0x200C, 0, 0, 0, 0, 1⟩,
    [⟨31, 0, .ro, 0x0, .region⟩]⟩
def RGN_PW_FREE_PLOTS : RegRow :=
  ⟨⟨.rgn, 0x2010, 0, 0, 0, 0, 1⟩,
    [⟨15, 0, .ro, 0xB2AC, .region⟩]⟩
def IN_STATUS : RegRow :=
  ⟨⟨.intake, 0x0000, 0, 0, 0, 0, 1⟩,
    [⟨3, 3, .w1c, 0x0, .partition⟩, ⟨2, 2, .w1c, 0x0, .partition⟩, ⟨1, 1, .w1c, 0x0, .partition⟩,
     ⟨0, 0, .w1c, 0x0, .partition⟩]⟩
def IN_COALESCE : RegRow :=
  ⟨⟨.intake, 0x0004, 0, 0, 0, 0, 1⟩,
    [⟨31, 0, .rc, 0x0, .partition⟩]⟩
def IN_TABLES : RegRow :=
  ⟨⟨.intake, 0x0008, 0, 0, 0, 0, 1⟩,
    [⟨19, 16, .ro, 0x0, .partition⟩, ⟨11, 8, .ro, 0x0, .partition⟩, ⟨3, 0, .ro, 0x0, .partition⟩]⟩
def IN_PIECE_CUTS : RegRow :=
  ⟨⟨.intake, 0x000C, 0, 0, 0, 0, 1⟩,
    [⟨31, 0, .ro, 0x0, .partition⟩]⟩
def IN_BYTES_LO : RegRow :=
  ⟨⟨.intake, 0x0010, 0, 0, 0, 0, 1⟩,
    [⟨31, 0, .ro, 0x0, .partition⟩]⟩
def IN_BYTES_HI : RegRow :=
  ⟨⟨.intake, 0x0014, 0, 0, 0, 0, 1⟩,
    [⟨31, 0, .ro, 0x0, .partition⟩]⟩
def IN_TOKENS_LO : RegRow :=
  ⟨⟨.intake, 0x0018, 0, 0, 0, 0, 1⟩,
    [⟨31, 0, .ro, 0x0, .partition⟩]⟩
def IN_TOKENS_HI : RegRow :=
  ⟨⟨.intake, 0x001C, 0, 0, 0, 0, 1⟩,
    [⟨31, 0, .ro, 0x0, .partition⟩]⟩
def IN_FALLBACK_LO : RegRow :=
  ⟨⟨.intake, 0x0020, 0, 0, 0, 0, 1⟩,
    [⟨31, 0, .ro, 0x0, .partition⟩]⟩
def IN_FALLBACK_HI : RegRow :=
  ⟨⟨.intake, 0x0024, 0, 0, 0, 0, 1⟩,
    [⟨31, 0, .ro, 0x0, .partition⟩]⟩
def IN_AUDIO_LO : RegRow :=
  ⟨⟨.intake, 0x0028, 0, 0, 0, 0, 1⟩,
    [⟨31, 0, .ro, 0x0, .partition⟩]⟩
def IN_AUDIO_HI : RegRow :=
  ⟨⟨.intake, 0x002C, 0, 0, 0, 0, 1⟩,
    [⟨31, 0, .ro, 0x0, .partition⟩]⟩
def IN_PASSED_LO : RegRow :=
  ⟨⟨.intake, 0x0030, 0, 0, 0, 0, 1⟩,
    [⟨31, 0, .ro, 0x0, .partition⟩]⟩
def IN_PASSED_HI : RegRow :=
  ⟨⟨.intake, 0x0034, 0, 0, 0, 0, 1⟩,
    [⟨31, 0, .ro, 0x0, .partition⟩]⟩
def DS_TOK_CACHE_HITS_LO : RegRow :=
  ⟨⟨.die, 0x1000, 0, 0, 0, 0, 1⟩,
    [⟨31, 0, .ro, 0x0, .device⟩]⟩
def DS_TOK_CACHE_HITS_HI : RegRow :=
  ⟨⟨.die, 0x1004, 0, 0, 0, 0, 1⟩,
    [⟨31, 0, .ro, 0x0, .device⟩]⟩
def DS_TOK_CACHE_MISSES_LO : RegRow :=
  ⟨⟨.die, 0x1008, 0, 0, 0, 0, 1⟩,
    [⟨31, 0, .ro, 0x0, .device⟩]⟩
def DS_TOK_CACHE_MISSES_HI : RegRow :=
  ⟨⟨.die, 0x100C, 0, 0, 0, 0, 1⟩,
    [⟨31, 0, .ro, 0x0, .device⟩]⟩
def DS_TOK_CONTEXTS : RegRow :=
  ⟨⟨.die, 0x1010, 0, 0, 0, 0, 1⟩,
    [⟨12, 0, .ro, 0x1000, .device⟩]⟩
def DS_TOK_BUSY : RegRow :=
  ⟨⟨.die, 0x1014, 0, 0, 0, 0, 1⟩,
    [⟨3, 0, .ro, 0x0, .device⟩]⟩
def SMP_STATUS : RegRow :=
  ⟨⟨.smp, 0x0000, 0, 0, 0, 0, 1⟩,
    [⟨4, 4, .w1c, 0x0, .partition⟩, ⟨3, 3, .w1c, 0x0, .partition⟩, ⟨2, 2, .w1c, 0x0, .partition⟩,
     ⟨1, 1, .w1c, 0x0, .partition⟩, ⟨0, 0, .w1c, 0x0, .partition⟩]⟩
def SMP_COALESCE : RegRow :=
  ⟨⟨.smp, 0x0004, 0, 0, 0, 0, 1⟩,
    [⟨31, 0, .rc, 0x0, .partition⟩]⟩
def SMP_FUR_HEAD : RegRow :=
  ⟨⟨.smp, 0x0008, 0, 0, 0, 0, 1⟩,
    [⟨31, 16, .wo, 0x0, .partition⟩, ⟨15, 0, .wo, 0x0, .partition⟩]⟩
def SMP_FUR_SEL : RegRow :=
  ⟨⟨.smp, 0x000C, 0, 0, 0, 0, 1⟩,
    [⟨15, 0, .rw, 0x0, .partition⟩]⟩
def SMP_FUR_STATE : RegRow :=
  ⟨⟨.smp, 0x0010, 0, 0, 0, 0, 1⟩,
    [⟨31, 16, .ro, 0x0, .partition⟩, ⟨15, 0, .ro, 0x0, .partition⟩]⟩
def SMP_SAMPLED_LO : RegRow :=
  ⟨⟨.smp, 0x0014, 0, 0, 0, 0, 1⟩,
    [⟨31, 0, .ro, 0x0, .partition⟩]⟩
def SMP_SAMPLED_HI : RegRow :=
  ⟨⟨.smp, 0x0018, 0, 0, 0, 0, 1⟩,
    [⟨31, 0, .ro, 0x0, .partition⟩]⟩
def SMP_DRAFTS_LO : RegRow :=
  ⟨⟨.smp, 0x001C, 0, 0, 0, 0, 1⟩,
    [⟨31, 0, .ro, 0x0, .partition⟩]⟩
def SMP_DRAFTS_HI : RegRow :=
  ⟨⟨.smp, 0x0020, 0, 0, 0, 0, 1⟩,
    [⟨31, 0, .ro, 0x0, .partition⟩]⟩
def SMP_ACCEPTED_LO : RegRow :=
  ⟨⟨.smp, 0x0024, 0, 0, 0, 0, 1⟩,
    [⟨31, 0, .ro, 0x0, .partition⟩]⟩
def SMP_ACCEPTED_HI : RegRow :=
  ⟨⟨.smp, 0x0028, 0, 0, 0, 0, 1⟩,
    [⟨31, 0, .ro, 0x0, .partition⟩]⟩
def SMP_UNDERRUNS : RegRow :=
  ⟨⟨.smp, 0x002C, 0, 0, 0, 0, 1⟩,
    [⟨31, 0, .ro, 0x0, .partition⟩]⟩
def SMP_STOPS : RegRow :=
  ⟨⟨.smp, 0x0030, 0, 0, 0, 0, 1⟩,
    [⟨31, 0, .ro, 0x0, .partition⟩]⟩
def SMP_GRAMMARS : RegRow :=
  ⟨⟨.smp, 0x0034, 0, 0, 0, 0, 1⟩,
    [⟨6, 0, .ro, 0x0, .partition⟩]⟩
def TIER_CTRL : RegRow :=
  ⟨⟨.tier, 0x0000, 0, 0, 0, 0, 1⟩,
    [⟨1, 1, .rw, 0x1, .partition⟩, ⟨0, 0, .rw, 0x1, .partition⟩]⟩
def TIER_STATUS : RegRow :=
  ⟨⟨.tier, 0x0004, 0, 0, 0, 0, 1⟩,
    [⟨3, 3, .w1c, 0x0, .partition⟩, ⟨2, 2, .w1c, 0x0, .partition⟩, ⟨1, 1, .w1c, 0x0, .partition⟩,
     ⟨0, 0, .w1c, 0x0, .partition⟩]⟩
def TIER_COALESCE : RegRow :=
  ⟨⟨.tier, 0x0008, 0, 0, 0, 0, 1⟩,
    [⟨31, 0, .rc, 0x0, .partition⟩]⟩
def TIER_QUOTA_NEAR : RegRow :=
  ⟨⟨.tier, 0x000C, 0, 0, 0, 0, 1⟩,
    [⟨31, 0, .ro, 0x0, .partition⟩]⟩
def TIER_USE_NEAR : RegRow :=
  ⟨⟨.tier, 0x0010, 0, 0, 0, 0, 1⟩,
    [⟨31, 0, .ro, 0x0, .partition⟩]⟩
def TIER_QUOTA_CXL : RegRow :=
  ⟨⟨.tier, 0x0014, 0, 0, 0, 0, 1⟩,
    [⟨31, 0, .ro, 0x0, .partition⟩]⟩
def TIER_USE_CXL : RegRow :=
  ⟨⟨.tier, 0x0018, 0, 0, 0, 0, 1⟩,
    [⟨31, 0, .ro, 0x0, .partition⟩]⟩
def TIER_QUOTA_MULCH : RegRow :=
  ⟨⟨.tier, 0x001C, 0, 0, 0, 0, 1⟩,
    [⟨31, 0, .ro, 0x0, .partition⟩]⟩
def TIER_USE_MULCH : RegRow :=
  ⟨⟨.tier, 0x0020, 0, 0, 0, 0, 1⟩,
    [⟨31, 0, .ro, 0x0, .partition⟩]⟩
def TIER_MOVED_LO : RegRow :=
  ⟨⟨.tier, 0x0024, 0, 0, 0, 0, 1⟩,
    [⟨31, 0, .ro, 0x0, .partition⟩]⟩
def TIER_MOVED_HI : RegRow :=
  ⟨⟨.tier, 0x0028, 0, 0, 0, 0, 1⟩,
    [⟨31, 0, .ro, 0x0, .partition⟩]⟩
def TIER_QUEUE : RegRow :=
  ⟨⟨.tier, 0x002C, 0, 0, 0, 0, 1⟩,
    [⟨15, 0, .ro, 0x0, .partition⟩]⟩
def CXL_CTRL : RegRow :=
  ⟨⟨.cxl, 0x0000, 0, 0, 0, 0, 1⟩,
    [⟨0, 0, .rw, 0x0, .device⟩]⟩
def CXL_STATUS : RegRow :=
  ⟨⟨.cxl, 0x0004, 0, 0, 0, 0, 1⟩,
    [⟨16, 16, .ro, 0x0, .device⟩, ⟨11, 8, .ro, 0x0, .device⟩, ⟨7, 0, .ro, 0x0, .device⟩]⟩
def CXL_EVENT : RegRow :=
  ⟨⟨.cxl, 0x0008, 0, 0, 0, 0, 1⟩,
    [⟨3, 3, .w1c, 0x0, .device⟩, ⟨2, 2, .w1c, 0x0, .device⟩, ⟨1, 1, .w1c, 0x0, .device⟩,
     ⟨0, 0, .w1c, 0x0, .device⟩]⟩
def CXL_COALESCE : RegRow :=
  ⟨⟨.cxl, 0x000C, 0, 0, 0, 0, 1⟩,
    [⟨31, 0, .rc, 0x0, .device⟩]⟩
def CXL_IO_ADDR_LO : RegRow :=
  ⟨⟨.cxl, 0x0010, 0, 0, 0, 0, 1⟩,
    [⟨31, 0, .rw, 0x0, .device⟩]⟩
def CXL_IO_ADDR_HI : RegRow :=
  ⟨⟨.cxl, 0x0014, 0, 0, 0, 0, 1⟩,
    [⟨31, 0, .rw, 0x0, .device⟩]⟩
def CXL_IO_DATA : RegRow :=
  ⟨⟨.cxl, 0x0018, 0, 0, 0, 0, 1⟩,
    [⟨31, 0, .rw, 0x0, .device⟩]⟩
def CXL_IO_CTRL : RegRow :=
  ⟨⟨.cxl, 0x001C, 0, 0, 0, 0, 1⟩,
    [⟨31, 31, .ro, 0x0, .device⟩, ⟨27, 24, .rw, 0xF, .device⟩, ⟨17, 16, .ro, 0x0, .device⟩,
     ⟨8, 8, .wo, 0x0, .device⟩, ⟨1, 0, .rw, 0x0, .device⟩]⟩
def CXL_RAKE_PERIOD : RegRow :=
  ⟨⟨.cxl, 0x0020, 0, 0, 0, 0, 1⟩,
    [⟨31, 0, .rw, 0xA4CB800, .device⟩]⟩
def CXL_HDM_BASE : RegRow :=
  ⟨⟨.cxl, 0x0100, 16, 0, 7, 0, 1⟩,
    [⟨15, 0, .rw, 0x0, .device⟩]⟩
def CXL_HDM_SIZE : RegRow :=
  ⟨⟨.cxl, 0x0104, 16, 0, 7, 0, 1⟩,
    [⟨16, 0, .rw, 0x0, .device⟩]⟩
def CXL_HDM_CTRL : RegRow :=
  ⟨⟨.cxl, 0x0108, 16, 0, 7, 0, 1⟩,
    [⟨1, 1, .ro, 0x0, .device⟩, ⟨0, 0, .rw, 0x0, .device⟩]⟩
def CXL_EXTENTS : RegRow :=
  ⟨⟨.cxl, 0x0200, 0, 0, 0, 0, 1⟩,
    [⟨31, 16, .ro, 0x0, .device⟩, ⟨15, 0, .ro, 0x0, .device⟩]⟩
def CXL_RD_BYTES_LO : RegRow :=
  ⟨⟨.cxl, 0x0210, 0, 0, 0, 0, 1⟩,
    [⟨31, 0, .ro, 0x0, .device⟩]⟩
def CXL_RD_BYTES_HI : RegRow :=
  ⟨⟨.cxl, 0x0214, 0, 0, 0, 0, 1⟩,
    [⟨31, 0, .ro, 0x0, .device⟩]⟩
def CXL_WR_BYTES_LO : RegRow :=
  ⟨⟨.cxl, 0x0218, 0, 0, 0, 0, 1⟩,
    [⟨31, 0, .ro, 0x0, .device⟩]⟩
def CXL_WR_BYTES_HI : RegRow :=
  ⟨⟨.cxl, 0x021C, 0, 0, 0, 0, 1⟩,
    [⟨31, 0, .ro, 0x0, .device⟩]⟩
def RGN_MEM_STATUS : RegRow :=
  ⟨⟨.rgn, 0x3000, 0, 0, 0, 0, 1⟩,
    [⟨3, 3, .w1c, 0x0, .region⟩, ⟨2, 2, .w1c, 0x0, .region⟩, ⟨1, 1, .w1c, 0x0, .region⟩,
     ⟨0, 0, .w1c, 0x0, .region⟩]⟩
def RGN_MEM_COALESCE : RegRow :=
  ⟨⟨.rgn, 0x3004, 0, 0, 0, 0, 1⟩,
    [⟨31, 0, .rc, 0x0, .region⟩]⟩
def RGN_MEM_CTRL : RegRow :=
  ⟨⟨.rgn, 0x3008, 0, 0, 0, 0, 1⟩,
    [⟨31, 31, .wo, 0x0, .region⟩, ⟨27, 24, .rw, 0x0, .region⟩, ⟨23, 16, .rw, 0x5, .region⟩,
     ⟨15, 0, .rw, 0x40, .region⟩]⟩
def RGN_MEM_SPARE : RegRow :=
  ⟨⟨.rgn, 0x300C, 0, 0, 0, 0, 1⟩,
    [⟨17, 16, .ro, 0x0, .powerOn⟩, ⟨11, 8, .ro, 0x0, .powerOn⟩, ⟨6, 0, .ro, 0x0, .powerOn⟩]⟩
def RGN_MEM_INNER_LO : RegRow :=
  ⟨⟨.rgn, 0x3010, 0, 0, 0, 0, 1⟩,
    [⟨31, 0, .ro, 0x0, .region⟩]⟩
def RGN_MEM_INNER_HI : RegRow :=
  ⟨⟨.rgn, 0x3014, 0, 0, 0, 0, 1⟩,
    [⟨31, 0, .ro, 0x0, .region⟩]⟩
def RGN_MEM_OUTER_LO : RegRow :=
  ⟨⟨.rgn, 0x3018, 0, 0, 0, 0, 1⟩,
    [⟨31, 0, .ro, 0x0, .region⟩]⟩
def RGN_MEM_OUTER_HI : RegRow :=
  ⟨⟨.rgn, 0x301C, 0, 0, 0, 0, 1⟩,
    [⟨31, 0, .ro, 0x0, .region⟩]⟩
def RGN_MEM_POISONED : RegRow :=
  ⟨⟨.rgn, 0x3020, 0, 0, 0, 0, 1⟩,
    [⟨31, 0, .ro, 0x0, .region⟩]⟩
def RGN_MEM_DIE_ERR : RegRow :=
  ⟨⟨.rgn, 0x3040, 4, 0, 15, 0, 1⟩,
    [⟨15, 0, .ro, 0x0, .region⟩]⟩
def RGN_RAKE_PERIOD : RegRow :=
  ⟨⟨.rgn, 0x3080, 0, 0, 0, 0, 1⟩,
    [⟨31, 0, .rw, 0xA4CB800, .region⟩]⟩
def RGN_RAKE_POS : RegRow :=
  ⟨⟨.rgn, 0x3084, 0, 0, 0, 0, 1⟩,
    [⟨6, 0, .ro, 0x0, .region⟩]⟩
def FL_CTRL : RegRow :=
  ⟨⟨.flash, 0x0000, 0, 0, 0, 0, 1⟩,
    [⟨31, 16, .rw, 0x12C, .device⟩, ⟨15, 8, .rw, 0x2, .device⟩, ⟨0, 0, .rw, 0x1, .device⟩]⟩
def FL_LOG_WATER : RegRow :=
  ⟨⟨.flash, 0x0004, 0, 0, 0, 0, 1⟩,
    [⟨31, 16, .rw, 0x200, .device⟩, ⟨15, 0, .rw, 0x100, .device⟩]⟩
def FL_READ_LIMIT : RegRow :=
  ⟨⟨.flash, 0x0008, 0, 0, 0, 0, 1⟩,
    [⟨31, 0, .rw, 0x186A0, .device⟩]⟩
def FL_REFRESH_BITS : RegRow :=
  ⟨⟨.flash, 0x000C, 0, 0, 0, 0, 1⟩,
    [⟨7, 0, .rw, 0x50, .device⟩]⟩
def FL_STATUS : RegRow :=
  ⟨⟨.flash, 0x0010, 0, 0, 0, 0, 1⟩,
    [⟨5, 5, .w1c, 0x0, .device⟩, ⟨4, 4, .w1c, 0x0, .device⟩, ⟨3, 3, .w1c, 0x0, .device⟩,
     ⟨2, 2, .w1c, 0x0, .device⟩, ⟨1, 1, .w1c, 0x0, .device⟩, ⟨0, 0, .w1c, 0x0, .device⟩]⟩
def FL_COALESCE : RegRow :=
  ⟨⟨.flash, 0x0014, 0, 0, 0, 0, 1⟩,
    [⟨31, 0, .rc, 0x0, .device⟩]⟩
def FL_FREE_BLOCKS : RegRow :=
  ⟨⟨.flash, 0x0018, 0, 0, 0, 0, 1⟩,
    [⟨31, 0, .ro, 0x0, .device⟩]⟩
def FL_STALE_BLOCKS : RegRow :=
  ⟨⟨.flash, 0x001C, 0, 0, 0, 0, 1⟩,
    [⟨31, 0, .ro, 0x0, .device⟩]⟩
def FL_POOLS : RegRow :=
  ⟨⟨.flash, 0x0020, 0, 0, 0, 0, 1⟩,
    [⟨31, 16, .ro, 0x0, .device⟩, ⟨15, 0, .ro, 0x0, .device⟩]⟩
def FL_LOG : RegRow :=
  ⟨⟨.flash, 0x0024, 0, 0, 0, 0, 1⟩,
    [⟨15, 0, .ro, 0x0, .device⟩]⟩
def FL_ERASE : RegRow :=
  ⟨⟨.flash, 0x0028, 0, 0, 0, 0, 1⟩,
    [⟨31, 16, .ro, 0x0, .device⟩, ⟨15, 0, .ro, 0x0, .device⟩]⟩
def FL_ERASE_MEAN : RegRow :=
  ⟨⟨.flash, 0x002C, 0, 0, 0, 0, 1⟩,
    [⟨15, 0, .ro, 0x0, .device⟩]⟩
def FL_MAPPED : RegRow :=
  ⟨⟨.flash, 0x0030, 0, 0, 0, 0, 1⟩,
    [⟨31, 0, .ro, 0x0, .device⟩]⟩
def FL_RAKE_PERIOD : RegRow :=
  ⟨⟨.flash, 0x0034, 0, 0, 0, 0, 1⟩,
    [⟨31, 0, .rw, 0xF7314000, .device⟩]⟩
def FL_DISCARD_LIMIT : RegRow :=
  ⟨⟨.flash, 0x0038, 0, 0, 0, 0, 1⟩,
    [⟨31, 0, .rw, 0x2BF200, .device⟩]⟩
def FL_REQ_WR_LO : RegRow :=
  ⟨⟨.flash, 0x003C, 0, 0, 0, 0, 1⟩,
    [⟨31, 0, .ro, 0x0, .device⟩]⟩
def FL_REQ_WR_HI : RegRow :=
  ⟨⟨.flash, 0x0040, 0, 0, 0, 0, 1⟩,
    [⟨31, 0, .ro, 0x0, .device⟩]⟩
def FL_NAND_WR_LO : RegRow :=
  ⟨⟨.flash, 0x0044, 0, 0, 0, 0, 1⟩,
    [⟨31, 0, .ro, 0x0, .device⟩]⟩
def FL_NAND_WR_HI : RegRow :=
  ⟨⟨.flash, 0x0048, 0, 0, 0, 0, 1⟩,
    [⟨31, 0, .ro, 0x0, .device⟩]⟩
def FL_RD_LO : RegRow :=
  ⟨⟨.flash, 0x004C, 0, 0, 0, 0, 1⟩,
    [⟨31, 0, .ro, 0x0, .device⟩]⟩
def FL_RD_HI : RegRow :=
  ⟨⟨.flash, 0x0050, 0, 0, 0, 0, 1⟩,
    [⟨31, 0, .ro, 0x0, .device⟩]⟩
def FL_MERGES : RegRow :=
  ⟨⟨.flash, 0x0054, 0, 0, 0, 0, 1⟩,
    [⟨31, 0, .ro, 0x0, .device⟩]⟩
def FL_MOVES : RegRow :=
  ⟨⟨.flash, 0x0058, 0, 0, 0, 0, 1⟩,
    [⟨31, 0, .ro, 0x0, .device⟩]⟩
def FL_UNCORRECTED : RegRow :=
  ⟨⟨.flash, 0x005C, 0, 0, 0, 0, 1⟩,
    [⟨31, 0, .ro, 0x0, .device⟩]⟩
def FL_RAKE_POS : RegRow :=
  ⟨⟨.flash, 0x0060, 0, 0, 0, 0, 1⟩,
    [⟨6, 0, .ro, 0x0, .device⟩]⟩
def FL_DISCARD_PENDING : RegRow :=
  ⟨⟨.flash, 0x0064, 0, 0, 0, 0, 1⟩,
    [⟨31, 0, .ro, 0x0, .device⟩]⟩
def VS_STATUS : RegRow :=
  ⟨⟨.search, 0x0000, 0, 0, 0, 0, 1⟩,
    [⟨3, 3, .w1c, 0x0, .partition⟩, ⟨2, 2, .w1c, 0x0, .partition⟩, ⟨1, 1, .w1c, 0x0, .partition⟩,
     ⟨0, 0, .w1c, 0x0, .partition⟩]⟩
def VS_COALESCE : RegRow :=
  ⟨⟨.search, 0x0004, 0, 0, 0, 0, 1⟩,
    [⟨31, 0, .rc, 0x0, .partition⟩]⟩
def VS_INDEXES : RegRow :=
  ⟨⟨.search, 0x0008, 0, 0, 0, 0, 1⟩,
    [⟨6, 0, .ro, 0x0, .partition⟩]⟩
def VS_QUERIES_LO : RegRow :=
  ⟨⟨.search, 0x000C, 0, 0, 0, 0, 1⟩,
    [⟨31, 0, .ro, 0x0, .partition⟩]⟩
def VS_QUERIES_HI : RegRow :=
  ⟨⟨.search, 0x0010, 0, 0, 0, 0, 1⟩,
    [⟨31, 0, .ro, 0x0, .partition⟩]⟩
def VS_VISITS_LO : RegRow :=
  ⟨⟨.search, 0x0014, 0, 0, 0, 0, 1⟩,
    [⟨31, 0, .ro, 0x0, .partition⟩]⟩
def VS_VISITS_HI : RegRow :=
  ⟨⟨.search, 0x0018, 0, 0, 0, 0, 1⟩,
    [⟨31, 0, .ro, 0x0, .partition⟩]⟩
def VS_REMOTE_SERVED : RegRow :=
  ⟨⟨.search, 0x001C, 0, 0, 0, 0, 1⟩,
    [⟨31, 0, .ro, 0x0, .partition⟩]⟩
def VS_SHORT : RegRow :=
  ⟨⟨.search, 0x0020, 0, 0, 0, 0, 1⟩,
    [⟨31, 0, .ro, 0x0, .partition⟩]⟩
def DS_GW_BUSY : RegRow :=
  ⟨⟨.die, 0x2000, 0, 0, 0, 0, 1⟩,
    [⟨3, 0, .ro, 0x0, .device⟩]⟩
def DS_GW_INFLIGHT : RegRow :=
  ⟨⟨.die, 0x2004, 0, 0, 0, 0, 1⟩,
    [⟨6, 0, .ro, 0x0, .device⟩]⟩
def DS_GW_VISITS_LO : RegRow :=
  ⟨⟨.die, 0x2008, 0, 0, 0, 0, 1⟩,
    [⟨31, 0, .ro, 0x0, .device⟩]⟩
def DS_GW_VISITS_HI : RegRow :=
  ⟨⟨.die, 0x200C, 0, 0, 0, 0, 1⟩,
    [⟨31, 0, .ro, 0x0, .device⟩]⟩
def PLW_CTRL : RegRow :=
  ⟨⟨.plw, 0x0000, 0, 0, 0, 0, 1⟩,
    [⟨18, 18, .rw, 0x0, .device⟩, ⟨17, 16, .rw, 0x0, .device⟩, ⟨15, 8, .rw, 0xFF, .device⟩,
     ⟨0, 0, .rw, 0x0, .device⟩]⟩
def PLW_STATE : RegRow :=
  ⟨⟨.plw, 0x0004, 0, 0, 0, 0, 1⟩,
    [⟨26, 24, .ro, 0x0, .device⟩, ⟨23, 16, .ro, 0x0, .device⟩, ⟨12, 12, .ro, 0x0, .device⟩,
     ⟨11, 8, .ro, 0x0, .device⟩, ⟨2, 0, .ro, 0x0, .device⟩]⟩
def PLW_PARTNER : RegRow :=
  ⟨⟨.plw, 0x0008, 0, 0, 0, 0, 1⟩,
    [⟨19, 16, .ro, 0x0, .device⟩, ⟨8, 0, .ro, 0x0, .device⟩]⟩
def PLW_STATUS : RegRow :=
  ⟨⟨.plw, 0x000C, 0, 0, 0, 0, 1⟩,
    [⟨6, 6, .w1c, 0x0, .device⟩, ⟨5, 5, .w1c, 0x0, .device⟩, ⟨4, 4, .w1c, 0x0, .device⟩,
     ⟨3, 3, .w1c, 0x0, .device⟩, ⟨2, 2, .w1c, 0x0, .device⟩, ⟨1, 1, .w1c, 0x0, .device⟩,
     ⟨0, 0, .w1c, 0x0, .device⟩]⟩
def PLW_COALESCE : RegRow :=
  ⟨⟨.plw, 0x0010, 0, 0, 0, 0, 1⟩,
    [⟨31, 0, .rc, 0x0, .device⟩]⟩
def PLW_FEC_CORR_LO : RegRow :=
  ⟨⟨.plw, 0x0014, 0, 0, 0, 0, 1⟩,
    [⟨31, 0, .ro, 0x0, .device⟩]⟩
def PLW_FEC_CORR_HI : RegRow :=
  ⟨⟨.plw, 0x0018, 0, 0, 0, 0, 1⟩,
    [⟨31, 0, .ro, 0x0, .device⟩]⟩
def PLW_FEC_UNCORR : RegRow :=
  ⟨⟨.plw, 0x001C, 0, 0, 0, 0, 1⟩,
    [⟨31, 0, .ro, 0x0, .device⟩]⟩
def PLW_REPLAYS : RegRow :=
  ⟨⟨.plw, 0x0020, 0, 0, 0, 0, 1⟩,
    [⟨31, 0, .ro, 0x0, .device⟩]⟩
def PLW_OVERHEAD : RegRow :=
  ⟨⟨.plw, 0x0024, 0, 0, 0, 0, 1⟩,
    [⟨7, 0, .rw, 0x0, .device⟩]⟩
def PLW_SAMPLE_PERIOD : RegRow :=
  ⟨⟨.plw, 0x0028, 0, 0, 0, 0, 1⟩,
    [⟨31, 0, .rw, 0x30, .device⟩]⟩
def PLW_TX_BYTES_LO : RegRow :=
  ⟨⟨.plw, 0x0030, 0, 0, 0, 0, 1⟩,
    [⟨31, 0, .ro, 0x0, .device⟩]⟩
def PLW_TX_BYTES_HI : RegRow :=
  ⟨⟨.plw, 0x0034, 0, 0, 0, 0, 1⟩,
    [⟨31, 0, .ro, 0x0, .device⟩]⟩
def PLW_RX_BYTES_LO : RegRow :=
  ⟨⟨.plw, 0x0038, 0, 0, 0, 0, 1⟩,
    [⟨31, 0, .ro, 0x0, .device⟩]⟩
def PLW_RX_BYTES_HI : RegRow :=
  ⟨⟨.plw, 0x003C, 0, 0, 0, 0, 1⟩,
    [⟨31, 0, .ro, 0x0, .device⟩]⟩
def PLW_SHAPE_RATE : RegRow :=
  ⟨⟨.plw, 0x0100, 16, 2, 6, 0, 1⟩,
    [⟨19, 0, .rw, 0x0, .device⟩]⟩
def PLW_SHAPE_BURST : RegRow :=
  ⟨⟨.plw, 0x0104, 16, 2, 6, 0, 1⟩,
    [⟨15, 0, .rw, 0x40, .device⟩]⟩
def PLW_POLICE_RATE : RegRow :=
  ⟨⟨.plw, 0x0108, 16, 2, 6, 0, 1⟩,
    [⟨19, 0, .rw, 0x0, .device⟩]⟩
def PLW_POLICE_BURST : RegRow :=
  ⟨⟨.plw, 0x010C, 16, 2, 6, 0, 1⟩,
    [⟨15, 0, .rw, 0x40, .device⟩]⟩
def PLW_Q_DEPTH : RegRow :=
  ⟨⟨.plw, 0x0200, 16, 0, 6, 0, 1⟩,
    [⟨31, 0, .ro, 0x0, .device⟩]⟩
def PLW_Q_DELAY : RegRow :=
  ⟨⟨.plw, 0x0204, 16, 0, 6, 0, 1⟩,
    [⟨31, 0, .ro, 0x0, .device⟩]⟩
def PLW_Q_DELAY_MAX : RegRow :=
  ⟨⟨.plw, 0x0208, 16, 0, 6, 0, 1⟩,
    [⟨31, 0, .rc, 0x0, .device⟩]⟩
def PLW_POLICED : RegRow :=
  ⟨⟨.plw, 0x020C, 16, 0, 6, 0, 1⟩,
    [⟨31, 0, .ro, 0x0, .device⟩]⟩
def PLW_DROP : RegRow :=
  ⟨⟨.plw, 0x0300, 4, 0, 12, 0, 1⟩,
    [⟨31, 0, .ro, 0x0, .device⟩]⟩
def PLW_NODE : RegRow :=
  ⟨⟨.plw, 0x2000, 0, 0, 0, 0, 1⟩,
    [⟨8, 0, .rw, 0x0, .device⟩]⟩
def PLW_GCTRL : RegRow :=
  ⟨⟨.plw, 0x2004, 0, 0, 0, 0, 1⟩,
    [⟨0, 0, .rw, 0x0, .device⟩]⟩
def PLW_KEYS : RegRow :=
  ⟨⟨.plw, 0x2008, 0, 0, 0, 0, 1⟩,
    [⟨8, 0, .ro, 0x0, .device⟩]⟩
def PLW_ROUTE : RegRow :=
  ⟨⟨.plw, 0x2100, 4, 0, 127, 0, 1⟩,
    [⟨31, 0, .rw, 0x0, .device⟩]⟩
def EXP_STATUS : RegRow :=
  ⟨⟨.exp, 0x0000, 0, 0, 0, 0, 1⟩,
    [⟨4, 4, .w1c, 0x0, .partition⟩, ⟨3, 3, .w1c, 0x0, .partition⟩, ⟨2, 2, .w1c, 0x0, .partition⟩,
     ⟨1, 1, .w1c, 0x0, .partition⟩, ⟨0, 0, .w1c, 0x0, .partition⟩]⟩
def EXP_COALESCE : RegRow :=
  ⟨⟨.exp, 0x0004, 0, 0, 0, 0, 1⟩,
    [⟨31, 0, .rc, 0x0, .partition⟩]⟩
def EXP_RECALL_TIMEOUT : RegRow :=
  ⟨⟨.exp, 0x0008, 0, 0, 0, 0, 1⟩,
    [⟨31, 0, .rw, 0x1E0, .partition⟩]⟩
def EXP_COUNTS : RegRow :=
  ⟨⟨.exp, 0x000C, 0, 0, 0, 0, 1⟩,
    [⟨24, 16, .ro, 0x0, .partition⟩, ⟨8, 0, .ro, 0x0, .partition⟩]⟩
def EXP_LINES_HELD : RegRow :=
  ⟨⟨.exp, 0x0010, 0, 0, 0, 0, 1⟩,
    [⟨31, 0, .ro, 0x0, .partition⟩]⟩
def EXP_LINES_POISONED : RegRow :=
  ⟨⟨.exp, 0x0014, 0, 0, 0, 0, 1⟩,
    [⟨31, 0, .ro, 0x0, .partition⟩]⟩
def EXP_REQS_LO : RegRow :=
  ⟨⟨.exp, 0x0018, 0, 0, 0, 0, 1⟩,
    [⟨31, 0, .ro, 0x0, .partition⟩]⟩
def EXP_REQS_HI : RegRow :=
  ⟨⟨.exp, 0x001C, 0, 0, 0, 0, 1⟩,
    [⟨31, 0, .ro, 0x0, .partition⟩]⟩
def EXP_REFUSED : RegRow :=
  ⟨⟨.exp, 0x0020, 0, 0, 0, 0, 1⟩,
    [⟨31, 0, .ro, 0x0, .partition⟩]⟩
def CK_STATUS : RegRow :=
  ⟨⟨.ck, 0x0000, 0, 0, 0, 0, 1⟩,
    [⟨4, 4, .w1c, 0x0, .partition⟩, ⟨3, 3, .w1c, 0x0, .partition⟩, ⟨2, 2, .w1c, 0x0, .partition⟩,
     ⟨1, 1, .w1c, 0x0, .partition⟩, ⟨0, 0, .w1c, 0x0, .partition⟩]⟩
def CK_COALESCE : RegRow :=
  ⟨⟨.ck, 0x0004, 0, 0, 0, 0, 1⟩,
    [⟨31, 0, .rc, 0x0, .partition⟩]⟩
def CK_STATE : RegRow :=
  ⟨⟨.ck, 0x0008, 0, 0, 0, 0, 1⟩,
    [⟨3, 3, .ro, 0x0, .partition⟩, ⟨2, 0, .ro, 0x0, .partition⟩]⟩
def CK_LEAD : RegRow :=
  ⟨⟨.ck, 0x000C, 0, 0, 0, 0, 1⟩,
    [⟨31, 0, .rw, 0x1E0, .partition⟩]⟩
def CK_STAGE_TTL : RegRow :=
  ⟨⟨.ck, 0x0010, 0, 0, 0, 0, 1⟩,
    [⟨31, 0, .rw, 0x2BF200, .partition⟩]⟩
def CK_ID_LO : RegRow :=
  ⟨⟨.ck, 0x0014, 0, 0, 0, 0, 1⟩,
    [⟨31, 0, .ro, 0x0, .partition⟩]⟩
def CK_ID_HI : RegRow :=
  ⟨⟨.ck, 0x0018, 0, 0, 0, 0, 1⟩,
    [⟨31, 0, .ro, 0x0, .partition⟩]⟩
def CK_CUT_LO : RegRow :=
  ⟨⟨.ck, 0x001C, 0, 0, 0, 0, 1⟩,
    [⟨31, 0, .ro, 0x0, .partition⟩]⟩
def CK_CUT_HI : RegRow :=
  ⟨⟨.ck, 0x0020, 0, 0, 0, 0, 1⟩,
    [⟨31, 0, .ro, 0x0, .partition⟩]⟩
def CK_SESSIONS : RegRow :=
  ⟨⟨.ck, 0x0024, 0, 0, 0, 0, 1⟩,
    [⟨31, 0, .ro, 0x0, .partition⟩]⟩
def CK_BYTES_LO : RegRow :=
  ⟨⟨.ck, 0x0028, 0, 0, 0, 0, 1⟩,
    [⟨31, 0, .ro, 0x0, .partition⟩]⟩
def CK_BYTES_HI : RegRow :=
  ⟨⟨.ck, 0x002C, 0, 0, 0, 0, 1⟩,
    [⟨31, 0, .ro, 0x0, .partition⟩]⟩
def CK_SHARDS_KEPT : RegRow :=
  ⟨⟨.ck, 0x0030, 0, 0, 0, 0, 1⟩,
    [⟨31, 0, .ro, 0x0, .partition⟩]⟩
def SEC_STATE : RegRow :=
  ⟨⟨.sec, 0x0000, 0, 0, 0, 0, 1⟩,
    [⟨31, 16, .ro, 0x0, .device⟩, ⟨7, 7, .ro, 0x1, .powerOn⟩, ⟨5, 4, .ro, 0x0, .device⟩, ⟨2, 0, .ro, 0x0, .device⟩]⟩
def SEC_STATUS : RegRow :=
  ⟨⟨.sec, 0x0004, 0, 0, 0, 0, 1⟩,
    [⟨5, 5, .w1c, 0x0, .device⟩, ⟨4, 4, .w1c, 0x0, .device⟩, ⟨3, 3, .w1c, 0x0, .device⟩,
     ⟨2, 2, .w1c, 0x0, .device⟩, ⟨1, 1, .w1c, 0x0, .powerOn⟩, ⟨0, 0, .w1c, 0x0, .device⟩]⟩
def SEC_COALESCE : RegRow :=
  ⟨⟨.sec, 0x0008, 0, 0, 0, 0, 1⟩,
    [⟨31, 0, .rc, 0x0, .device⟩]⟩
def SEC_BUNDLE_VERSION : RegRow :=
  ⟨⟨.sec, 0x000C, 0, 0, 0, 0, 1⟩,
    [⟨31, 0, .ro, 0x0, .device⟩]⟩
def SEC_BUNDLE_DIGEST : RegRow :=
  ⟨⟨.sec, 0x0010, 4, 0, 7, 0, 1⟩,
    [⟨31, 0, .ro, 0x0, .device⟩]⟩
def SEC_TAG_FAIL_LO : RegRow :=
  ⟨⟨.sec, 0x0030, 0, 0, 0, 0, 1⟩,
    [⟨31, 0, .ro, 0x0, .device⟩]⟩
def SEC_TAG_FAIL_HI : RegRow :=
  ⟨⟨.sec, 0x0034, 0, 0, 0, 0, 1⟩,
    [⟨31, 0, .ro, 0x0, .device⟩]⟩
def SEC_BED_REGIONS_TABLE : RegRow :=
  ⟨⟨.sec, 0x0040, 4, 0, 15, 0, 1⟩,
    [⟨17, 16, .ro, 0x0, .device⟩, ⟨15, 0, .ro, 0x0, .device⟩]⟩
def SEC_BED_STATE : RegRow :=
  ⟨⟨.secBed, 0x0000, 0, 0, 0, 0, 1⟩,
    [⟨23, 16, .ro, 0x0, .partition⟩, ⟨4, 2, .ro, 0x0, .functionLevel⟩, ⟨1, 1, .ro, 0x0, .partition⟩,
     ⟨0, 0, .ro, 0x0, .device⟩]⟩
def SEC_BED_STATUS : RegRow :=
  ⟨⟨.secBed, 0x0004, 0, 0, 0, 0, 1⟩,
    [⟨2, 2, .w1c, 0x0, .partition⟩, ⟨1, 1, .w1c, 0x0, .functionLevel⟩, ⟨0, 0, .w1c, 0x0, .partition⟩]⟩
def SEC_BED_COALESCE : RegRow :=
  ⟨⟨.secBed, 0x0008, 0, 0, 0, 0, 1⟩,
    [⟨31, 0, .rc, 0x0, .partition⟩]⟩
def SEC_BED_REGIONS : RegRow :=
  ⟨⟨.secBed, 0x000C, 0, 0, 0, 0, 1⟩,
    [⟨17, 16, .ro, 0x0, .device⟩, ⟨15, 0, .ro, 0x0, .device⟩]⟩
def SEC_BED_DIGEST : RegRow :=
  ⟨⟨.secBed, 0x0010, 4, 0, 7, 0, 1⟩,
    [⟨31, 0, .ro, 0x0, .device⟩]⟩
def SEC_BED_TAG_FAIL : RegRow :=
  ⟨⟨.secBed, 0x0030, 0, 0, 0, 0, 1⟩,
    [⟨31, 0, .ro, 0x0, .partition⟩]⟩
def SEC_BED_BUNDLE : RegRow :=
  ⟨⟨.secBed, 0x0034, 0, 0, 0, 0, 1⟩,
    [⟨31, 0, .ro, 0x0, .device⟩]⟩
def FLT_STATE : RegRow :=
  ⟨⟨.flt, 0x0000, 0, 0, 0, 0, 1⟩,
    [⟨31, 31, .ro, 0x0, .powerOn⟩, ⟨30, 30, .ro, 0x0, .device⟩, ⟨26, 24, .ro, 0x0, .powerOn⟩,
     ⟨15, 0, .ro, 0x0, .device⟩]⟩
def FLT_STATUS : RegRow :=
  ⟨⟨.flt, 0x0004, 0, 0, 0, 0, 1⟩,
    [⟨7, 7, .w1c, 0x0, .powerOn⟩, ⟨6, 6, .w1c, 0x0, .device⟩, ⟨4, 4, .w1c, 0x0, .powerOn⟩,
     ⟨3, 3, .w1c, 0x0, .device⟩, ⟨2, 2, .w1c, 0x0, .device⟩, ⟨1, 1, .w1c, 0x0, .device⟩,
     ⟨0, 0, .w1c, 0x0, .device⟩]⟩
def FLT_COALESCE : RegRow :=
  ⟨⟨.flt, 0x0008, 0, 0, 0, 0, 1⟩,
    [⟨31, 0, .rc, 0x0, .device⟩]⟩
def FLT_ENABLE : RegRow :=
  ⟨⟨.flt, 0x000C, 0, 0, 0, 0, 1⟩,
    [⟨12, 8, .rw, 0xC, .device⟩, ⟨4, 0, .rw, 0x1E, .device⟩]⟩
def FLT_CTRL : RegRow :=
  ⟨⟨.flt, 0x0010, 0, 0, 0, 0, 1⟩,
    [⟨31, 24, .rw, 0x8, .device⟩, ⟨2, 2, .rw, 0x0, .device⟩, ⟨1, 1, .rw, 0x0, .device⟩, ⟨0, 0, .rw, 0x0, .device⟩]⟩
def FLT_WATCHDOG : RegRow :=
  ⟨⟨.flt, 0x0014, 0, 0, 0, 0, 1⟩,
    [⟨31, 0, .rw, 0x1E0, .device⟩]⟩
def FLT_COUNT_C : RegRow :=
  ⟨⟨.flt, 0x0020, 4, 0, 4, 0, 1⟩,
    [⟨31, 0, .ro, 0x0, .device⟩]⟩
def FLT_UNITS_FENCED : RegRow :=
  ⟨⟨.flt, 0x0034, 0, 0, 0, 0, 1⟩,
    [⟨10, 0, .ro, 0x0, .device⟩]⟩
def FLT_LOG_SEQ : RegRow :=
  ⟨⟨.flt, 0x0038, 0, 0, 0, 0, 1⟩,
    [⟨31, 0, .ro, 0x0, .device⟩]⟩
def FLT_FIRST : RegRow :=
  ⟨⟨.flt, 0x0100, 4, 0, 15, 0, 1⟩,
    [⟨31, 0, .ro, 0x0, .device⟩]⟩
def FLT_FIRST_ARM : RegRow :=
  ⟨⟨.flt, 0x0140, 0, 0, 0, 0, 1⟩,
    [⟨0, 0, .wo, 0x0, .device⟩]⟩
def FLT_UNIT_MAP : RegRow :=
  ⟨⟨.flt, 0x0200, 4, 0, 31, 0, 1⟩,
    [⟨31, 0, .ro, 0x0, .device⟩]⟩
def FLT_INJECT : RegRow :=
  ⟨⟨.flt, 0x0300, 0, 0, 0, 0, 1⟩,
    [⟨31, 31, .wo, 0x0, .device⟩, ⟨25, 16, .rw, 0x0, .device⟩, ⟨15, 0, .rw, 0x0, .device⟩]⟩
def FLT_BED_STATE : RegRow :=
  ⟨⟨.fltBed, 0x0000, 0, 0, 0, 0, 1⟩,
    [⟨31, 31, .ro, 0x0, .partition⟩, ⟨15, 0, .ro, 0x0, .partition⟩]⟩
def FLT_BED_STATUS : RegRow :=
  ⟨⟨.fltBed, 0x0004, 0, 0, 0, 0, 1⟩,
    [⟨3, 3, .w1c, 0x0, .partition⟩, ⟨2, 2, .w1c, 0x0, .partition⟩, ⟨1, 1, .w1c, 0x0, .partition⟩,
     ⟨0, 0, .w1c, 0x0, .partition⟩]⟩
def FLT_BED_COALESCE : RegRow :=
  ⟨⟨.fltBed, 0x0008, 0, 0, 0, 0, 1⟩,
    [⟨31, 0, .rc, 0x0, .partition⟩]⟩
def FLT_BED_FIRST : RegRow :=
  ⟨⟨.fltBed, 0x0040, 4, 0, 15, 0, 1⟩,
    [⟨31, 0, .ro, 0x0, .partition⟩]⟩
def FLT_BED_FIRST_ARM : RegRow :=
  ⟨⟨.fltBed, 0x0080, 0, 0, 0, 0, 1⟩,
    [⟨0, 0, .wo, 0x0, .partition⟩]⟩
def CTR_CTRL : RegRow :=
  ⟨⟨.ctr, 0x0000, 0, 0, 0, 0, 1⟩,
    [⟨1, 1, .wo, 0x0, .device⟩, ⟨0, 0, .rw, 0x0, .device⟩]⟩
def CTR_STATUS : RegRow :=
  ⟨⟨.ctr, 0x0004, 0, 0, 0, 0, 1⟩,
    [⟨7, 0, .w1c, 0x0, .device⟩]⟩
def CTR_COALESCE : RegRow :=
  ⟨⟨.ctr, 0x0008, 0, 0, 0, 0, 1⟩,
    [⟨31, 0, .rc, 0x0, .device⟩]⟩
def CTR_SEL : RegRow :=
  ⟨⟨.ctr, 0x0020, 4, 0, 7, 0, 1⟩,
    [⟨23, 23, .rw, 0x0, .device⟩, ⟨22, 19, .rw, 0x0, .device⟩, ⟨18, 18, .rw, 0x0, .device⟩,
     ⟨17, 12, .rw, 0x0, .device⟩, ⟨7, 0, .rw, 0x0, .device⟩]⟩
def CTR_VAL_LO : RegRow :=
  ⟨⟨.ctr, 0x0040, 8, 0, 7, 0, 1⟩,
    [⟨31, 0, .ro, 0x0, .device⟩]⟩
def CTR_VAL_HI : RegRow :=
  ⟨⟨.ctr, 0x0044, 8, 0, 7, 0, 1⟩,
    [⟨31, 0, .ro, 0x0, .device⟩]⟩
def CTR_GLOBAL : RegRow :=
  ⟨⟨.ctrGlobal, 0x2000, 0, 0, 0, 0, 1⟩,
    [⟨31, 0, .wo, 0x0, .device⟩]⟩
def CTR_GLOBAL_CMD : RegRow :=
  ⟨⟨.ctrGlobal, 0x2004, 0, 0, 0, 0, 1⟩,
    [⟨1, 1, .wo, 0x0, .device⟩, ⟨0, 0, .wo, 0x0, .device⟩]⟩
def CTR_GRANT : RegRow :=
  ⟨⟨.ctrGlobal, 0x2008, 0, 0, 0, 0, 1⟩,
    [⟨15, 0, .rw, 0x0, .device⟩]⟩
def TRC_CTRL : RegRow :=
  ⟨⟨.trace, 0x0000, 0, 0, 0, 0, 1⟩,
    [⟨19, 16, .rw, 0x0, .device⟩, ⟨9, 9, .rw, 0x0, .device⟩, ⟨8, 8, .rw, 0x0, .device⟩, ⟨4, 0, .rw, 0x0, .device⟩]⟩
def TRC_BASE_LO : RegRow :=
  ⟨⟨.trace, 0x0004, 0, 0, 0, 0, 1⟩,
    [⟨31, 0, .rw, 0x0, .device⟩]⟩
def TRC_BASE_HI : RegRow :=
  ⟨⟨.trace, 0x0008, 0, 0, 0, 0, 1⟩,
    [⟨31, 0, .rw, 0x0, .device⟩]⟩
def TRC_SIZE : RegRow :=
  ⟨⟨.trace, 0x000C, 0, 0, 0, 0, 1⟩,
    [⟨4, 0, .rw, 0xA, .device⟩]⟩
def TRC_TAIL : RegRow :=
  ⟨⟨.trace, 0x0010, 0, 0, 0, 0, 1⟩,
    [⟨31, 0, .ro, 0x0, .device⟩]⟩
def TRC_HEAD : RegRow :=
  ⟨⟨.trace, 0x0014, 0, 0, 0, 0, 1⟩,
    [⟨31, 0, .rw, 0x0, .device⟩]⟩
def TRC_STATUS : RegRow :=
  ⟨⟨.trace, 0x0018, 0, 0, 0, 0, 1⟩,
    [⟨2, 2, .w1c, 0x0, .device⟩, ⟨1, 1, .w1c, 0x0, .device⟩, ⟨0, 0, .w1c, 0x0, .device⟩]⟩
def TRC_COALESCE : RegRow :=
  ⟨⟨.trace, 0x001C, 0, 0, 0, 0, 1⟩,
    [⟨31, 0, .rc, 0x0, .device⟩]⟩
def TRC_LOST : RegRow :=
  ⟨⟨.trace, 0x0020, 0, 0, 0, 0, 1⟩,
    [⟨31, 0, .ro, 0x0, .device⟩]⟩
def TRC_RANGE : RegRow :=
  ⟨⟨.trace, 0x0024, 0, 0, 0, 0, 1⟩,
    [⟨15, 0, .rw, 0x0, .device⟩]⟩
def HUB_BOOT : RegRow :=
  ⟨⟨.hub, 0x0000, 0, 0, 0, 0, 1⟩,
    [⟨31, 31, .ro, 0x0, .device⟩, ⟨30, 30, .ro, 0x0, .device⟩, ⟨23, 16, .ro, 0x0, .device⟩,
     ⟨15, 0, .ro, 0x0, .device⟩]⟩
def HUB_RESET_CAUSE : RegRow :=
  ⟨⟨.hub, 0x0004, 0, 0, 0, 0, 1⟩,
    [⟨23, 8, .ro, 0x0, .powerOn⟩, ⟨1, 0, .ro, 0x0, .powerOn⟩]⟩
def HUB_RESET_CTRL : RegRow :=
  ⟨⟨.hub, 0x0008, 0, 0, 0, 0, 1⟩,
    [⟨31, 24, .wo, 0x0, .device⟩, ⟨0, 0, .wo, 0x0, .device⟩]⟩
def HUB_REGION_RESET : RegRow :=
  ⟨⟨.hub, 0x000C, 0, 0, 0, 0, 1⟩,
    [⟨15, 0, .wo, 0x0, .device⟩]⟩
def HUB_VIN : RegRow :=
  ⟨⟨.hub, 0x0010, 0, 0, 0, 0, 1⟩,
    [⟨31, 16, .ro, 0x0, .powerOn⟩, ⟨15, 0, .ro, 0x0, .powerOn⟩]⟩
def HUB_POWER : RegRow :=
  ⟨⟨.hub, 0x0014, 0, 0, 0, 0, 1⟩,
    [⟨15, 0, .ro, 0x0, .powerOn⟩]⟩
def HUB_POWER_PEAK : RegRow :=
  ⟨⟨.hub, 0x0018, 0, 0, 0, 0, 1⟩,
    [⟨15, 0, .rc, 0x0, .powerOn⟩]⟩
def HUB_TEMP : RegRow :=
  ⟨⟨.hub, 0x0020, 4, 0, 3, 0, 1⟩,
    [⟨23, 16, .ro, 0x0, .powerOn⟩, ⟨15, 0, .ro, 0x0, .powerOn⟩]⟩
def HUB_PWR_STATUS : RegRow :=
  ⟨⟨.hub, 0x0030, 0, 0, 0, 0, 1⟩,
    [⟨5, 5, .w1c, 0x0, .device⟩, ⟨4, 4, .w1c, 0x0, .device⟩, ⟨3, 0, .w1c, 0x0, .device⟩]⟩
def HUB_PWR_COALESCE : RegRow :=
  ⟨⟨.hub, 0x0034, 0, 0, 0, 0, 1⟩,
    [⟨31, 0, .rc, 0x0, .device⟩]⟩
def HUB_PWR_ENABLE : RegRow :=
  ⟨⟨.hub, 0x0038, 0, 0, 0, 0, 1⟩,
    [⟨5, 0, .rw, 0x3F, .device⟩]⟩

end Row

/-- The row of each register. -/
def RN.row : RN → RegRow
  | .RGN_CLK_CTRL => Row.RGN_CLK_CTRL
  | .RGN_CLK_STATUS => Row.RGN_CLK_STATUS
  | .FT_CTRL => Row.FT_CTRL
  | .FT_STATUS => Row.FT_STATUS
  | .FT_REF_NODE => Row.FT_REF_NODE
  | .FT_REF_PORT_MASK => Row.FT_REF_PORT_MASK
  | .FT_REPLICA_STATUS => Row.FT_REPLICA_STATUS
  | .FT_NOW_LO => Row.FT_NOW_LO
  | .FT_NOW_HI => Row.FT_NOW_HI
  | .FT_HOST_LO => Row.FT_HOST_LO
  | .FT_HOST_HI => Row.FT_HOST_HI
  | .FT_OFFSET_LO => Row.FT_OFFSET_LO
  | .FT_OFFSET_HI => Row.FT_OFFSET_HI
  | .FT_PATH_DELAY => Row.FT_PATH_DELAY
  | .FT_ASYM_CORR => Row.FT_ASYM_CORR
  | .FT_LOCK_THRESH => Row.FT_LOCK_THRESH
  | .FT_STEP_LIMIT => Row.FT_STEP_LIMIT
  | .FT_BEACON_TIMEOUT => Row.FT_BEACON_TIMEOUT
  | .FT_HOLDOVER_LIMIT => Row.FT_HOLDOVER_LIMIT
  | .FT_FREQ_OFFSET => Row.FT_FREQ_OFFSET
  | .FT_EVENT_COALESCE => Row.FT_EVENT_COALESCE
  | .ID_VENDOR => Row.ID_VENDOR
  | .ID_STEPPING => Row.ID_STEPPING
  | .ID_IFV_OFFERED => Row.ID_IFV_OFFERED
  | .ID_SERIAL_LO => Row.ID_SERIAL_LO
  | .ID_SERIAL_HI => Row.ID_SERIAL_HI
  | .ID_CAP_OPC => Row.ID_CAP_OPC
  | .ID_CAP_FEAT => Row.ID_CAP_FEAT
  | .MB_DESC => Row.MB_DESC
  | .MB_COMP => Row.MB_COMP
  | .MB_DOORBELL => Row.MB_DOORBELL
  | .MB_STATUS => Row.MB_STATUS
  | .MB_DATA => Row.MB_DATA
  | .RING_DOORBELL => Row.RING_DOORBELL
  | .RING_SQ => Row.RING_SQ
  | .RING_CQ => Row.RING_CQ
  | .RING_IRQ_CTRL => Row.RING_IRQ_CTRL
  | .RING_STATE => Row.RING_STATE
  | .IF_STATE => Row.IF_STATE
  | .IF_INT_STATUS => Row.IF_INT_STATUS
  | .IF_INT_ENABLE => Row.IF_INT_ENABLE
  | .IF_INT_COALESCE => Row.IF_INT_COALESCE
  | .JRN_NEWEST_SEQ => Row.JRN_NEWEST_SEQ
  | .JRN_OLDEST_SEQ => Row.JRN_OLDEST_SEQ
  | .JRN_STATUS => Row.JRN_STATUS
  | .JRN_COALESCE => Row.JRN_COALESCE
  | .SES_QUOTA_DIR => Row.SES_QUOTA_DIR
  | .SES_USE_DIR => Row.SES_USE_DIR
  | .SES_QUOTA_LIVE => Row.SES_QUOTA_LIVE
  | .SES_USE_LIVE => Row.SES_USE_LIVE
  | .SES_TTL_PAUSED => Row.SES_TTL_PAUSED
  | .SES_TTL_CXL => Row.SES_TTL_CXL
  | .SES_TTL_MULCH => Row.SES_TTL_MULCH
  | .SES_TTL_DROPPED => Row.SES_TTL_DROPPED
  | .SES_STATUS => Row.SES_STATUS
  | .SES_COALESCE => Row.SES_COALESCE
  | .SES_MAP_VERSION => Row.SES_MAP_VERSION
  | .SES_LEASE => Row.SES_LEASE
  | .SES_DIR_WIN => Row.SES_DIR_WIN
  | .SES_HOME_COUNT => Row.SES_HOME_COUNT
  | .SES_OWNER_COUNT => Row.SES_OWNER_COUNT
  | .SES_REBUILD_LEFT => Row.SES_REBUILD_LEFT
  | .SCH_CTRL => Row.SCH_CTRL
  | .SCH_SLICE => Row.SCH_SLICE
  | .SCH_SKIP_EST => Row.SCH_SKIP_EST
  | .SCH_STATUS => Row.SCH_STATUS
  | .SCH_COALESCE => Row.SCH_COALESCE
  | .SCH_PROFILES => Row.SCH_PROFILES
  | .SCH_STEPS => Row.SCH_STEPS
  | .SCH_SKIPPED => Row.SCH_SKIPPED
  | .SCH_HELD => Row.SCH_HELD
  | .SCH_LATE => Row.SCH_LATE
  | .SCH_OVERCOMMIT => Row.SCH_OVERCOMMIT
  | .SCH_JOBS => Row.SCH_JOBS
  | .RGN_ATT_CTRL => Row.RGN_ATT_CTRL
  | .RGN_ATT_STATUS => Row.RGN_ATT_STATUS
  | .RGN_ATT_COALESCE => Row.RGN_ATT_COALESCE
  | .RGN_ATT_NONFINITE_ROWS => Row.RGN_ATT_NONFINITE_ROWS
  | .RGN_ATT_TESTED_LO => Row.RGN_ATT_TESTED_LO
  | .RGN_ATT_TESTED_HI => Row.RGN_ATT_TESTED_HI
  | .RGN_ATT_SKIPPED_LO => Row.RGN_ATT_SKIPPED_LO
  | .RGN_ATT_SKIPPED_HI => Row.RGN_ATT_SKIPPED_HI
  | .RGN_ATT_FETCHED_LO => Row.RGN_ATT_FETCHED_LO
  | .RGN_ATT_FETCHED_HI => Row.RGN_ATT_FETCHED_HI
  | .RGN_ATT_SUMMARY_BYTES_LO => Row.RGN_ATT_SUMMARY_BYTES_LO
  | .RGN_ATT_SUMMARY_BYTES_HI => Row.RGN_ATT_SUMMARY_BYTES_HI
  | .RGN_ATT_ROWS_LO => Row.RGN_ATT_ROWS_LO
  | .RGN_ATT_ROWS_HI => Row.RGN_ATT_ROWS_HI
  | .LX_STATUS => Row.LX_STATUS
  | .LX_COALESCE => Row.LX_COALESCE
  | .LX_GRAFT_QUOTA => Row.LX_GRAFT_QUOTA
  | .LX_GRAFT_USE => Row.LX_GRAFT_USE
  | .LX_REJECTS => Row.LX_REJECTS
  | .LX_ABANDONED => Row.LX_ABANDONED
  | .LX_LAYER_MSGS_LO => Row.LX_LAYER_MSGS_LO
  | .LX_LAYER_MSGS_HI => Row.LX_LAYER_MSGS_HI
  | .LX_GROUP_STEP => Row.LX_GROUP_STEP
  | .LX_GROUP_NODES => Row.LX_GROUP_NODES
  | .KV_CTRL => Row.KV_CTRL
  | .KV_STATUS => Row.KV_STATUS
  | .KV_COALESCE => Row.KV_COALESCE
  | .KV_PFX_CTRL => Row.KV_PFX_CTRL
  | .KV_FAULT_VA_LO => Row.KV_FAULT_VA_LO
  | .KV_FAULT_VA_HI => Row.KV_FAULT_VA_HI
  | .KV_RANGES => Row.KV_RANGES
  | .KV_PFX_NODES => Row.KV_PFX_NODES
  | .KV_FRAMES => Row.KV_FRAMES
  | .KV_PLOTS => Row.KV_PLOTS
  | .KV_PFX_HITS_LO => Row.KV_PFX_HITS_LO
  | .KV_PFX_HITS_HI => Row.KV_PFX_HITS_HI
  | .KV_PFX_MISSES_LO => Row.KV_PFX_MISSES_LO
  | .KV_PFX_MISSES_HI => Row.KV_PFX_MISSES_HI
  | .KV_PRUNED_LO => Row.KV_PRUNED_LO
  | .KV_PRUNED_HI => Row.KV_PRUNED_HI
  | .RGN_PW_HITS_LO => Row.RGN_PW_HITS_LO
  | .RGN_PW_HITS_HI => Row.RGN_PW_HITS_HI
  | .RGN_PW_MISSES_LO => Row.RGN_PW_MISSES_LO
  | .RGN_PW_MISSES_HI => Row.RGN_PW_MISSES_HI
  | .RGN_PW_FREE_PLOTS => Row.RGN_PW_FREE_PLOTS
  | .IN_STATUS => Row.IN_STATUS
  | .IN_COALESCE => Row.IN_COALESCE
  | .IN_TABLES => Row.IN_TABLES
  | .IN_PIECE_CUTS => Row.IN_PIECE_CUTS
  | .IN_BYTES_LO => Row.IN_BYTES_LO
  | .IN_BYTES_HI => Row.IN_BYTES_HI
  | .IN_TOKENS_LO => Row.IN_TOKENS_LO
  | .IN_TOKENS_HI => Row.IN_TOKENS_HI
  | .IN_FALLBACK_LO => Row.IN_FALLBACK_LO
  | .IN_FALLBACK_HI => Row.IN_FALLBACK_HI
  | .IN_AUDIO_LO => Row.IN_AUDIO_LO
  | .IN_AUDIO_HI => Row.IN_AUDIO_HI
  | .IN_PASSED_LO => Row.IN_PASSED_LO
  | .IN_PASSED_HI => Row.IN_PASSED_HI
  | .DS_TOK_CACHE_HITS_LO => Row.DS_TOK_CACHE_HITS_LO
  | .DS_TOK_CACHE_HITS_HI => Row.DS_TOK_CACHE_HITS_HI
  | .DS_TOK_CACHE_MISSES_LO => Row.DS_TOK_CACHE_MISSES_LO
  | .DS_TOK_CACHE_MISSES_HI => Row.DS_TOK_CACHE_MISSES_HI
  | .DS_TOK_CONTEXTS => Row.DS_TOK_CONTEXTS
  | .DS_TOK_BUSY => Row.DS_TOK_BUSY
  | .SMP_STATUS => Row.SMP_STATUS
  | .SMP_COALESCE => Row.SMP_COALESCE
  | .SMP_FUR_HEAD => Row.SMP_FUR_HEAD
  | .SMP_FUR_SEL => Row.SMP_FUR_SEL
  | .SMP_FUR_STATE => Row.SMP_FUR_STATE
  | .SMP_SAMPLED_LO => Row.SMP_SAMPLED_LO
  | .SMP_SAMPLED_HI => Row.SMP_SAMPLED_HI
  | .SMP_DRAFTS_LO => Row.SMP_DRAFTS_LO
  | .SMP_DRAFTS_HI => Row.SMP_DRAFTS_HI
  | .SMP_ACCEPTED_LO => Row.SMP_ACCEPTED_LO
  | .SMP_ACCEPTED_HI => Row.SMP_ACCEPTED_HI
  | .SMP_UNDERRUNS => Row.SMP_UNDERRUNS
  | .SMP_STOPS => Row.SMP_STOPS
  | .SMP_GRAMMARS => Row.SMP_GRAMMARS
  | .TIER_CTRL => Row.TIER_CTRL
  | .TIER_STATUS => Row.TIER_STATUS
  | .TIER_COALESCE => Row.TIER_COALESCE
  | .TIER_QUOTA_NEAR => Row.TIER_QUOTA_NEAR
  | .TIER_USE_NEAR => Row.TIER_USE_NEAR
  | .TIER_QUOTA_CXL => Row.TIER_QUOTA_CXL
  | .TIER_USE_CXL => Row.TIER_USE_CXL
  | .TIER_QUOTA_MULCH => Row.TIER_QUOTA_MULCH
  | .TIER_USE_MULCH => Row.TIER_USE_MULCH
  | .TIER_MOVED_LO => Row.TIER_MOVED_LO
  | .TIER_MOVED_HI => Row.TIER_MOVED_HI
  | .TIER_QUEUE => Row.TIER_QUEUE
  | .CXL_CTRL => Row.CXL_CTRL
  | .CXL_STATUS => Row.CXL_STATUS
  | .CXL_EVENT => Row.CXL_EVENT
  | .CXL_COALESCE => Row.CXL_COALESCE
  | .CXL_IO_ADDR_LO => Row.CXL_IO_ADDR_LO
  | .CXL_IO_ADDR_HI => Row.CXL_IO_ADDR_HI
  | .CXL_IO_DATA => Row.CXL_IO_DATA
  | .CXL_IO_CTRL => Row.CXL_IO_CTRL
  | .CXL_RAKE_PERIOD => Row.CXL_RAKE_PERIOD
  | .CXL_HDM_BASE => Row.CXL_HDM_BASE
  | .CXL_HDM_SIZE => Row.CXL_HDM_SIZE
  | .CXL_HDM_CTRL => Row.CXL_HDM_CTRL
  | .CXL_EXTENTS => Row.CXL_EXTENTS
  | .CXL_RD_BYTES_LO => Row.CXL_RD_BYTES_LO
  | .CXL_RD_BYTES_HI => Row.CXL_RD_BYTES_HI
  | .CXL_WR_BYTES_LO => Row.CXL_WR_BYTES_LO
  | .CXL_WR_BYTES_HI => Row.CXL_WR_BYTES_HI
  | .RGN_MEM_STATUS => Row.RGN_MEM_STATUS
  | .RGN_MEM_COALESCE => Row.RGN_MEM_COALESCE
  | .RGN_MEM_CTRL => Row.RGN_MEM_CTRL
  | .RGN_MEM_SPARE => Row.RGN_MEM_SPARE
  | .RGN_MEM_INNER_LO => Row.RGN_MEM_INNER_LO
  | .RGN_MEM_INNER_HI => Row.RGN_MEM_INNER_HI
  | .RGN_MEM_OUTER_LO => Row.RGN_MEM_OUTER_LO
  | .RGN_MEM_OUTER_HI => Row.RGN_MEM_OUTER_HI
  | .RGN_MEM_POISONED => Row.RGN_MEM_POISONED
  | .RGN_MEM_DIE_ERR => Row.RGN_MEM_DIE_ERR
  | .RGN_RAKE_PERIOD => Row.RGN_RAKE_PERIOD
  | .RGN_RAKE_POS => Row.RGN_RAKE_POS
  | .FL_CTRL => Row.FL_CTRL
  | .FL_LOG_WATER => Row.FL_LOG_WATER
  | .FL_READ_LIMIT => Row.FL_READ_LIMIT
  | .FL_REFRESH_BITS => Row.FL_REFRESH_BITS
  | .FL_STATUS => Row.FL_STATUS
  | .FL_COALESCE => Row.FL_COALESCE
  | .FL_FREE_BLOCKS => Row.FL_FREE_BLOCKS
  | .FL_STALE_BLOCKS => Row.FL_STALE_BLOCKS
  | .FL_POOLS => Row.FL_POOLS
  | .FL_LOG => Row.FL_LOG
  | .FL_ERASE => Row.FL_ERASE
  | .FL_ERASE_MEAN => Row.FL_ERASE_MEAN
  | .FL_MAPPED => Row.FL_MAPPED
  | .FL_RAKE_PERIOD => Row.FL_RAKE_PERIOD
  | .FL_DISCARD_LIMIT => Row.FL_DISCARD_LIMIT
  | .FL_REQ_WR_LO => Row.FL_REQ_WR_LO
  | .FL_REQ_WR_HI => Row.FL_REQ_WR_HI
  | .FL_NAND_WR_LO => Row.FL_NAND_WR_LO
  | .FL_NAND_WR_HI => Row.FL_NAND_WR_HI
  | .FL_RD_LO => Row.FL_RD_LO
  | .FL_RD_HI => Row.FL_RD_HI
  | .FL_MERGES => Row.FL_MERGES
  | .FL_MOVES => Row.FL_MOVES
  | .FL_UNCORRECTED => Row.FL_UNCORRECTED
  | .FL_RAKE_POS => Row.FL_RAKE_POS
  | .FL_DISCARD_PENDING => Row.FL_DISCARD_PENDING
  | .VS_STATUS => Row.VS_STATUS
  | .VS_COALESCE => Row.VS_COALESCE
  | .VS_INDEXES => Row.VS_INDEXES
  | .VS_QUERIES_LO => Row.VS_QUERIES_LO
  | .VS_QUERIES_HI => Row.VS_QUERIES_HI
  | .VS_VISITS_LO => Row.VS_VISITS_LO
  | .VS_VISITS_HI => Row.VS_VISITS_HI
  | .VS_REMOTE_SERVED => Row.VS_REMOTE_SERVED
  | .VS_SHORT => Row.VS_SHORT
  | .DS_GW_BUSY => Row.DS_GW_BUSY
  | .DS_GW_INFLIGHT => Row.DS_GW_INFLIGHT
  | .DS_GW_VISITS_LO => Row.DS_GW_VISITS_LO
  | .DS_GW_VISITS_HI => Row.DS_GW_VISITS_HI
  | .PLW_CTRL => Row.PLW_CTRL
  | .PLW_STATE => Row.PLW_STATE
  | .PLW_PARTNER => Row.PLW_PARTNER
  | .PLW_STATUS => Row.PLW_STATUS
  | .PLW_COALESCE => Row.PLW_COALESCE
  | .PLW_FEC_CORR_LO => Row.PLW_FEC_CORR_LO
  | .PLW_FEC_CORR_HI => Row.PLW_FEC_CORR_HI
  | .PLW_FEC_UNCORR => Row.PLW_FEC_UNCORR
  | .PLW_REPLAYS => Row.PLW_REPLAYS
  | .PLW_OVERHEAD => Row.PLW_OVERHEAD
  | .PLW_SAMPLE_PERIOD => Row.PLW_SAMPLE_PERIOD
  | .PLW_TX_BYTES_LO => Row.PLW_TX_BYTES_LO
  | .PLW_TX_BYTES_HI => Row.PLW_TX_BYTES_HI
  | .PLW_RX_BYTES_LO => Row.PLW_RX_BYTES_LO
  | .PLW_RX_BYTES_HI => Row.PLW_RX_BYTES_HI
  | .PLW_SHAPE_RATE => Row.PLW_SHAPE_RATE
  | .PLW_SHAPE_BURST => Row.PLW_SHAPE_BURST
  | .PLW_POLICE_RATE => Row.PLW_POLICE_RATE
  | .PLW_POLICE_BURST => Row.PLW_POLICE_BURST
  | .PLW_Q_DEPTH => Row.PLW_Q_DEPTH
  | .PLW_Q_DELAY => Row.PLW_Q_DELAY
  | .PLW_Q_DELAY_MAX => Row.PLW_Q_DELAY_MAX
  | .PLW_POLICED => Row.PLW_POLICED
  | .PLW_DROP => Row.PLW_DROP
  | .PLW_NODE => Row.PLW_NODE
  | .PLW_GCTRL => Row.PLW_GCTRL
  | .PLW_KEYS => Row.PLW_KEYS
  | .PLW_ROUTE => Row.PLW_ROUTE
  | .EXP_STATUS => Row.EXP_STATUS
  | .EXP_COALESCE => Row.EXP_COALESCE
  | .EXP_RECALL_TIMEOUT => Row.EXP_RECALL_TIMEOUT
  | .EXP_COUNTS => Row.EXP_COUNTS
  | .EXP_LINES_HELD => Row.EXP_LINES_HELD
  | .EXP_LINES_POISONED => Row.EXP_LINES_POISONED
  | .EXP_REQS_LO => Row.EXP_REQS_LO
  | .EXP_REQS_HI => Row.EXP_REQS_HI
  | .EXP_REFUSED => Row.EXP_REFUSED
  | .CK_STATUS => Row.CK_STATUS
  | .CK_COALESCE => Row.CK_COALESCE
  | .CK_STATE => Row.CK_STATE
  | .CK_LEAD => Row.CK_LEAD
  | .CK_STAGE_TTL => Row.CK_STAGE_TTL
  | .CK_ID_LO => Row.CK_ID_LO
  | .CK_ID_HI => Row.CK_ID_HI
  | .CK_CUT_LO => Row.CK_CUT_LO
  | .CK_CUT_HI => Row.CK_CUT_HI
  | .CK_SESSIONS => Row.CK_SESSIONS
  | .CK_BYTES_LO => Row.CK_BYTES_LO
  | .CK_BYTES_HI => Row.CK_BYTES_HI
  | .CK_SHARDS_KEPT => Row.CK_SHARDS_KEPT
  | .SEC_STATE => Row.SEC_STATE
  | .SEC_STATUS => Row.SEC_STATUS
  | .SEC_COALESCE => Row.SEC_COALESCE
  | .SEC_BUNDLE_VERSION => Row.SEC_BUNDLE_VERSION
  | .SEC_BUNDLE_DIGEST => Row.SEC_BUNDLE_DIGEST
  | .SEC_TAG_FAIL_LO => Row.SEC_TAG_FAIL_LO
  | .SEC_TAG_FAIL_HI => Row.SEC_TAG_FAIL_HI
  | .SEC_BED_REGIONS_TABLE => Row.SEC_BED_REGIONS_TABLE
  | .SEC_BED_STATE => Row.SEC_BED_STATE
  | .SEC_BED_STATUS => Row.SEC_BED_STATUS
  | .SEC_BED_COALESCE => Row.SEC_BED_COALESCE
  | .SEC_BED_REGIONS => Row.SEC_BED_REGIONS
  | .SEC_BED_DIGEST => Row.SEC_BED_DIGEST
  | .SEC_BED_TAG_FAIL => Row.SEC_BED_TAG_FAIL
  | .SEC_BED_BUNDLE => Row.SEC_BED_BUNDLE
  | .FLT_STATE => Row.FLT_STATE
  | .FLT_STATUS => Row.FLT_STATUS
  | .FLT_COALESCE => Row.FLT_COALESCE
  | .FLT_ENABLE => Row.FLT_ENABLE
  | .FLT_CTRL => Row.FLT_CTRL
  | .FLT_WATCHDOG => Row.FLT_WATCHDOG
  | .FLT_COUNT_C => Row.FLT_COUNT_C
  | .FLT_UNITS_FENCED => Row.FLT_UNITS_FENCED
  | .FLT_LOG_SEQ => Row.FLT_LOG_SEQ
  | .FLT_FIRST => Row.FLT_FIRST
  | .FLT_FIRST_ARM => Row.FLT_FIRST_ARM
  | .FLT_UNIT_MAP => Row.FLT_UNIT_MAP
  | .FLT_INJECT => Row.FLT_INJECT
  | .FLT_BED_STATE => Row.FLT_BED_STATE
  | .FLT_BED_STATUS => Row.FLT_BED_STATUS
  | .FLT_BED_COALESCE => Row.FLT_BED_COALESCE
  | .FLT_BED_FIRST => Row.FLT_BED_FIRST
  | .FLT_BED_FIRST_ARM => Row.FLT_BED_FIRST_ARM
  | .CTR_CTRL => Row.CTR_CTRL
  | .CTR_STATUS => Row.CTR_STATUS
  | .CTR_COALESCE => Row.CTR_COALESCE
  | .CTR_SEL => Row.CTR_SEL
  | .CTR_VAL_LO => Row.CTR_VAL_LO
  | .CTR_VAL_HI => Row.CTR_VAL_HI
  | .CTR_GLOBAL => Row.CTR_GLOBAL
  | .CTR_GLOBAL_CMD => Row.CTR_GLOBAL_CMD
  | .CTR_GRANT => Row.CTR_GRANT
  | .TRC_CTRL => Row.TRC_CTRL
  | .TRC_BASE_LO => Row.TRC_BASE_LO
  | .TRC_BASE_HI => Row.TRC_BASE_HI
  | .TRC_SIZE => Row.TRC_SIZE
  | .TRC_TAIL => Row.TRC_TAIL
  | .TRC_HEAD => Row.TRC_HEAD
  | .TRC_STATUS => Row.TRC_STATUS
  | .TRC_COALESCE => Row.TRC_COALESCE
  | .TRC_LOST => Row.TRC_LOST
  | .TRC_RANGE => Row.TRC_RANGE
  | .HUB_BOOT => Row.HUB_BOOT
  | .HUB_RESET_CAUSE => Row.HUB_RESET_CAUSE
  | .HUB_RESET_CTRL => Row.HUB_RESET_CTRL
  | .HUB_REGION_RESET => Row.HUB_REGION_RESET
  | .HUB_VIN => Row.HUB_VIN
  | .HUB_POWER => Row.HUB_POWER
  | .HUB_POWER_PEAK => Row.HUB_POWER_PEAK
  | .HUB_TEMP => Row.HUB_TEMP
  | .HUB_PWR_STATUS => Row.HUB_PWR_STATUS
  | .HUB_PWR_COALESCE => Row.HUB_PWR_COALESCE
  | .HUB_PWR_ENABLE => Row.HUB_PWR_ENABLE

/-- The place of each register: block, offset, strides. -/
def RN.place (n : RN) : Place := n.row.place

/-- The fields of each register (the rows of the register tables). -/
def RN.fields (n : RN) : List FieldInfo := n.row.fields

/-- The upper register of a 64-bit pair, for its lower register (R12). -/
def RN.upper : RN → Option RN
  | .FT_NOW_LO => some .FT_NOW_HI
  | .FT_HOST_LO => some .FT_HOST_HI
  | .FT_OFFSET_LO => some .FT_OFFSET_HI
  | .ID_SERIAL_LO => some .ID_SERIAL_HI
  | .RGN_ATT_TESTED_LO => some .RGN_ATT_TESTED_HI
  | .RGN_ATT_SKIPPED_LO => some .RGN_ATT_SKIPPED_HI
  | .RGN_ATT_FETCHED_LO => some .RGN_ATT_FETCHED_HI
  | .RGN_ATT_SUMMARY_BYTES_LO => some .RGN_ATT_SUMMARY_BYTES_HI
  | .RGN_ATT_ROWS_LO => some .RGN_ATT_ROWS_HI
  | .LX_LAYER_MSGS_LO => some .LX_LAYER_MSGS_HI
  | .KV_FAULT_VA_LO => some .KV_FAULT_VA_HI
  | .KV_PFX_HITS_LO => some .KV_PFX_HITS_HI
  | .KV_PFX_MISSES_LO => some .KV_PFX_MISSES_HI
  | .KV_PRUNED_LO => some .KV_PRUNED_HI
  | .RGN_PW_HITS_LO => some .RGN_PW_HITS_HI
  | .RGN_PW_MISSES_LO => some .RGN_PW_MISSES_HI
  | .IN_BYTES_LO => some .IN_BYTES_HI
  | .IN_TOKENS_LO => some .IN_TOKENS_HI
  | .IN_FALLBACK_LO => some .IN_FALLBACK_HI
  | .IN_AUDIO_LO => some .IN_AUDIO_HI
  | .IN_PASSED_LO => some .IN_PASSED_HI
  | .DS_TOK_CACHE_HITS_LO => some .DS_TOK_CACHE_HITS_HI
  | .DS_TOK_CACHE_MISSES_LO => some .DS_TOK_CACHE_MISSES_HI
  | .SMP_SAMPLED_LO => some .SMP_SAMPLED_HI
  | .SMP_DRAFTS_LO => some .SMP_DRAFTS_HI
  | .SMP_ACCEPTED_LO => some .SMP_ACCEPTED_HI
  | .TIER_MOVED_LO => some .TIER_MOVED_HI
  | .CXL_IO_ADDR_LO => some .CXL_IO_ADDR_HI
  | .CXL_RD_BYTES_LO => some .CXL_RD_BYTES_HI
  | .CXL_WR_BYTES_LO => some .CXL_WR_BYTES_HI
  | .RGN_MEM_INNER_LO => some .RGN_MEM_INNER_HI
  | .RGN_MEM_OUTER_LO => some .RGN_MEM_OUTER_HI
  | .FL_REQ_WR_LO => some .FL_REQ_WR_HI
  | .FL_NAND_WR_LO => some .FL_NAND_WR_HI
  | .FL_RD_LO => some .FL_RD_HI
  | .VS_QUERIES_LO => some .VS_QUERIES_HI
  | .VS_VISITS_LO => some .VS_VISITS_HI
  | .DS_GW_VISITS_LO => some .DS_GW_VISITS_HI
  | .PLW_FEC_CORR_LO => some .PLW_FEC_CORR_HI
  | .PLW_TX_BYTES_LO => some .PLW_TX_BYTES_HI
  | .PLW_RX_BYTES_LO => some .PLW_RX_BYTES_HI
  | .EXP_REQS_LO => some .EXP_REQS_HI
  | .CK_ID_LO => some .CK_ID_HI
  | .CK_CUT_LO => some .CK_CUT_HI
  | .CK_BYTES_LO => some .CK_BYTES_HI
  | .SEC_TAG_FAIL_LO => some .SEC_TAG_FAIL_HI
  | .CTR_VAL_LO => some .CTR_VAL_HI
  | .TRC_BASE_LO => some .TRC_BASE_HI
  | _ => none

/-- The lower register of a 64-bit pair, for its upper register (R12). -/
def RN.lower : RN → Option RN
  | .FT_NOW_HI => some .FT_NOW_LO
  | .FT_HOST_HI => some .FT_HOST_LO
  | .FT_OFFSET_HI => some .FT_OFFSET_LO
  | .ID_SERIAL_HI => some .ID_SERIAL_LO
  | .RGN_ATT_TESTED_HI => some .RGN_ATT_TESTED_LO
  | .RGN_ATT_SKIPPED_HI => some .RGN_ATT_SKIPPED_LO
  | .RGN_ATT_FETCHED_HI => some .RGN_ATT_FETCHED_LO
  | .RGN_ATT_SUMMARY_BYTES_HI => some .RGN_ATT_SUMMARY_BYTES_LO
  | .RGN_ATT_ROWS_HI => some .RGN_ATT_ROWS_LO
  | .LX_LAYER_MSGS_HI => some .LX_LAYER_MSGS_LO
  | .KV_FAULT_VA_HI => some .KV_FAULT_VA_LO
  | .KV_PFX_HITS_HI => some .KV_PFX_HITS_LO
  | .KV_PFX_MISSES_HI => some .KV_PFX_MISSES_LO
  | .KV_PRUNED_HI => some .KV_PRUNED_LO
  | .RGN_PW_HITS_HI => some .RGN_PW_HITS_LO
  | .RGN_PW_MISSES_HI => some .RGN_PW_MISSES_LO
  | .IN_BYTES_HI => some .IN_BYTES_LO
  | .IN_TOKENS_HI => some .IN_TOKENS_LO
  | .IN_FALLBACK_HI => some .IN_FALLBACK_LO
  | .IN_AUDIO_HI => some .IN_AUDIO_LO
  | .IN_PASSED_HI => some .IN_PASSED_LO
  | .DS_TOK_CACHE_HITS_HI => some .DS_TOK_CACHE_HITS_LO
  | .DS_TOK_CACHE_MISSES_HI => some .DS_TOK_CACHE_MISSES_LO
  | .SMP_SAMPLED_HI => some .SMP_SAMPLED_LO
  | .SMP_DRAFTS_HI => some .SMP_DRAFTS_LO
  | .SMP_ACCEPTED_HI => some .SMP_ACCEPTED_LO
  | .TIER_MOVED_HI => some .TIER_MOVED_LO
  | .CXL_IO_ADDR_HI => some .CXL_IO_ADDR_LO
  | .CXL_RD_BYTES_HI => some .CXL_RD_BYTES_LO
  | .CXL_WR_BYTES_HI => some .CXL_WR_BYTES_LO
  | .RGN_MEM_INNER_HI => some .RGN_MEM_INNER_LO
  | .RGN_MEM_OUTER_HI => some .RGN_MEM_OUTER_LO
  | .FL_REQ_WR_HI => some .FL_REQ_WR_LO
  | .FL_NAND_WR_HI => some .FL_NAND_WR_LO
  | .FL_RD_HI => some .FL_RD_LO
  | .VS_QUERIES_HI => some .VS_QUERIES_LO
  | .VS_VISITS_HI => some .VS_VISITS_LO
  | .DS_GW_VISITS_HI => some .DS_GW_VISITS_LO
  | .PLW_FEC_CORR_HI => some .PLW_FEC_CORR_LO
  | .PLW_TX_BYTES_HI => some .PLW_TX_BYTES_LO
  | .PLW_RX_BYTES_HI => some .PLW_RX_BYTES_LO
  | .EXP_REQS_HI => some .EXP_REQS_LO
  | .CK_ID_HI => some .CK_ID_LO
  | .CK_CUT_HI => some .CK_CUT_LO
  | .CK_BYTES_HI => some .CK_BYTES_LO
  | .SEC_TAG_FAIL_HI => some .SEC_TAG_FAIL_LO
  | .CTR_VAL_HI => some .CTR_VAL_LO
  | .TRC_BASE_HI => some .TRC_BASE_LO
  | _ => none

/-- The companion coalesce counter of each register that holds write-1-to-clear fields (R82). -/
def RN.coalesce : RN → Option RN
  | .FT_STATUS => some .FT_EVENT_COALESCE
  | .IF_INT_STATUS => some .IF_INT_COALESCE
  | .JRN_STATUS => some .JRN_COALESCE
  | .SES_STATUS => some .SES_COALESCE
  | .SCH_STATUS => some .SCH_COALESCE
  | .RGN_ATT_STATUS => some .RGN_ATT_COALESCE
  | .LX_STATUS => some .LX_COALESCE
  | .KV_STATUS => some .KV_COALESCE
  | .IN_STATUS => some .IN_COALESCE
  | .SMP_STATUS => some .SMP_COALESCE
  | .TIER_STATUS => some .TIER_COALESCE
  | .CXL_EVENT => some .CXL_COALESCE
  | .RGN_MEM_STATUS => some .RGN_MEM_COALESCE
  | .FL_STATUS => some .FL_COALESCE
  | .VS_STATUS => some .VS_COALESCE
  | .PLW_STATUS => some .PLW_COALESCE
  | .EXP_STATUS => some .EXP_COALESCE
  | .CK_STATUS => some .CK_COALESCE
  | .SEC_STATUS => some .SEC_COALESCE
  | .SEC_BED_STATUS => some .SEC_BED_COALESCE
  | .FLT_STATUS => some .FLT_COALESCE
  | .FLT_BED_STATUS => some .FLT_BED_COALESCE
  | .CTR_STATUS => some .CTR_COALESCE
  | .TRC_STATUS => some .TRC_COALESCE
  | .HUB_PWR_STATUS => some .HUB_PWR_COALESCE
  | _ => none

namespace F

/-- RGN_CLK_CTRL.GATE_REQ, bits [0:0] (R33). -/
def RGN_CLK_CTRL_GATE_REQ : Fld := ⟨.RGN_CLK_CTRL, 0, 0⟩
/-- RGN_CLK_STATUS.FREQ_MHZ, bits [19:8] (R34). -/
def RGN_CLK_STATUS_FREQ_MHZ : Fld := ⟨.RGN_CLK_STATUS, 19, 8⟩
/-- RGN_CLK_STATUS.RESYNC_PENDING, bits [2:2] (R34). -/
def RGN_CLK_STATUS_RESYNC_PENDING : Fld := ⟨.RGN_CLK_STATUS, 2, 2⟩
/-- RGN_CLK_STATUS.STOPPED, bits [1:1] (R34). -/
def RGN_CLK_STATUS_STOPPED : Fld := ⟨.RGN_CLK_STATUS, 1, 1⟩
/-- RGN_CLK_STATUS.STRETCHED, bits [0:0] (R34). -/
def RGN_CLK_STATUS_STRETCHED : Fld := ⟨.RGN_CLK_STATUS, 0, 0⟩
/-- FT_CTRL.STEP_NOW, bits [8:8] (R54). -/
def FT_CTRL_STEP_NOW : Fld := ⟨.FT_CTRL, 8, 8⟩
/-- FT_CTRL.SOURCE, bits [1:0] (R54). -/
def FT_CTRL_SOURCE : Fld := ⟨.FT_CTRL, 1, 0⟩
/-- FT_STATUS.STEP_REFUSED, bits [7:7] (R55). -/
def FT_STATUS_STEP_REFUSED : Fld := ⟨.FT_STATUS, 7, 7⟩
/-- FT_STATUS.OFFSET_RANGE, bits [6:6] (R55). -/
def FT_STATUS_OFFSET_RANGE : Fld := ⟨.FT_STATUS, 6, 6⟩
/-- FT_STATUS.HOLDOVER_EXPIRED, bits [5:5] (R55). -/
def FT_STATUS_HOLDOVER_EXPIRED : Fld := ⟨.FT_STATUS, 5, 5⟩
/-- FT_STATUS.REF_LOST, bits [4:4] (R55). -/
def FT_STATUS_REF_LOST : Fld := ⟨.FT_STATUS, 4, 4⟩
/-- FT_STATUS.LOCK_GAINED, bits [3:3] (R55). -/
def FT_STATUS_LOCK_GAINED : Fld := ⟨.FT_STATUS, 3, 3⟩
/-- FT_STATUS.STATE, bits [2:0] (R55). -/
def FT_STATUS_STATE : Fld := ⟨.FT_STATUS, 2, 0⟩
/-- FT_REF_NODE.DOMAIN, bits [23:16] (R56). -/
def FT_REF_NODE_DOMAIN : Fld := ⟨.FT_REF_NODE, 23, 16⟩
/-- FT_REF_NODE.NODE_ID, bits [8:0] (R56). -/
def FT_REF_NODE_NODE_ID : Fld := ⟨.FT_REF_NODE, 8, 0⟩
/-- FT_REF_PORT_MASK.MASK, bits [7:0] (R56). -/
def FT_REF_PORT_MASK_MASK : Fld := ⟨.FT_REF_PORT_MASK, 7, 0⟩
/-- FT_REPLICA_STATUS.DIE_SYNCED, bits [19:16] (R56). -/
def FT_REPLICA_STATUS_DIE_SYNCED : Fld := ⟨.FT_REPLICA_STATUS, 19, 16⟩
/-- FT_REPLICA_STATUS.REGION_SYNCED, bits [15:0] (R56). -/
def FT_REPLICA_STATUS_REGION_SYNCED : Fld := ⟨.FT_REPLICA_STATUS, 15, 0⟩
/-- ID_VENDOR.DEVICE_ID, bits [31:16] (R65). -/
def ID_VENDOR_DEVICE_ID : Fld := ⟨.ID_VENDOR, 31, 16⟩
/-- ID_VENDOR.VENDOR_ID, bits [15:0] (R65). -/
def ID_VENDOR_VENDOR_ID : Fld := ⟨.ID_VENDOR, 15, 0⟩
/-- ID_STEPPING.LETTER, bits [7:4] (R65). -/
def ID_STEPPING_LETTER : Fld := ⟨.ID_STEPPING, 7, 4⟩
/-- ID_STEPPING.DIGIT, bits [3:0] (R65). -/
def ID_STEPPING_DIGIT : Fld := ⟨.ID_STEPPING, 3, 0⟩
/-- ID_IFV_OFFERED.MAJORS, bits [26:24] (R65). -/
def ID_IFV_OFFERED_MAJORS : Fld := ⟨.ID_IFV_OFFERED, 26, 24⟩
/-- ID_IFV_OFFERED.MINOR3, bits [23:16] (R65). -/
def ID_IFV_OFFERED_MINOR3 : Fld := ⟨.ID_IFV_OFFERED, 23, 16⟩
/-- ID_IFV_OFFERED.MINOR2, bits [15:8] (R65). -/
def ID_IFV_OFFERED_MINOR2 : Fld := ⟨.ID_IFV_OFFERED, 15, 8⟩
/-- ID_IFV_OFFERED.MINOR1, bits [7:0] (R65). -/
def ID_IFV_OFFERED_MINOR1 : Fld := ⟨.ID_IFV_OFFERED, 7, 0⟩
/-- MB_DOORBELL.GO, bits [0:0] (R73). -/
def MB_DOORBELL_GO : Fld := ⟨.MB_DOORBELL, 0, 0⟩
/-- MB_STATUS.BUSY, bits [0:0] (R73). -/
def MB_STATUS_BUSY : Fld := ⟨.MB_STATUS, 0, 0⟩
/-- RING_DOORBELL.SQ_TAIL, bits [15:0] (R75). -/
def RING_DOORBELL_SQ_TAIL : Fld := ⟨.RING_DOORBELL, 15, 0⟩
/-- RING_SQ.HEAD, bits [31:16] (R75). -/
def RING_SQ_HEAD : Fld := ⟨.RING_SQ, 31, 16⟩
/-- RING_SQ.TAIL, bits [15:0] (R75). -/
def RING_SQ_TAIL : Fld := ⟨.RING_SQ, 15, 0⟩
/-- RING_CQ.TAIL, bits [31:16] (R75). -/
def RING_CQ_TAIL : Fld := ⟨.RING_CQ, 31, 16⟩
/-- RING_CQ.HEAD, bits [15:0] (R75). -/
def RING_CQ_HEAD : Fld := ⟨.RING_CQ, 15, 0⟩
/-- RING_IRQ_CTRL.COUNT, bits [31:24] (R75). -/
def RING_IRQ_CTRL_COUNT : Fld := ⟨.RING_IRQ_CTRL, 31, 24⟩
/-- RING_IRQ_CTRL.VECTOR, bits [21:16] (R75). -/
def RING_IRQ_CTRL_VECTOR : Fld := ⟨.RING_IRQ_CTRL, 21, 16⟩
/-- RING_IRQ_CTRL.DELAY, bits [15:0] (R75). -/
def RING_IRQ_CTRL_DELAY : Fld := ⟨.RING_IRQ_CTRL, 15, 0⟩
/-- RING_STATE.LOG2_SIZE, bits [5:2] (R75). -/
def RING_STATE_LOG2_SIZE : Fld := ⟨.RING_STATE, 5, 2⟩
/-- RING_STATE.STATE, bits [1:0] (R75). -/
def RING_STATE_STATE : Fld := ⟨.RING_STATE, 1, 0⟩
/-- IF_STATE.OPEN, bits [8:8] (R80). -/
def IF_STATE_OPEN : Fld := ⟨.IF_STATE, 8, 8⟩
/-- IF_STATE.VERSION, bits [7:0] (R80). -/
def IF_STATE_VERSION : Fld := ⟨.IF_STATE, 7, 0⟩
/-- IF_INT_STATUS.BED_EVENT, bits [17:17] (R80). -/
def IF_INT_STATUS_BED_EVENT : Fld := ⟨.IF_INT_STATUS, 17, 17⟩
/-- IF_INT_STATUS.JOURNAL_NEW, bits [16:16] (R80). -/
def IF_INT_STATUS_JOURNAL_NEW : Fld := ⟨.IF_INT_STATUS, 16, 16⟩
/-- IF_INT_STATUS.MB_DONE, bits [15:0] (R80). -/
def IF_INT_STATUS_MB_DONE : Fld := ⟨.IF_INT_STATUS, 15, 0⟩
/-- IF_INT_ENABLE.MASK, bits [17:0] (R80). -/
def IF_INT_ENABLE_MASK : Fld := ⟨.IF_INT_ENABLE, 17, 0⟩
/-- JRN_STATUS.OVERWRITE, bits [1:1] (R90). -/
def JRN_STATUS_OVERWRITE : Fld := ⟨.JRN_STATUS, 1, 1⟩
/-- JRN_STATUS.NEW_ENTRY, bits [0:0] (R90). -/
def JRN_STATUS_NEW_ENTRY : Fld := ⟨.JRN_STATUS, 0, 0⟩
/-- SES_STATUS.REVIVE_REFUSED, bits [5:5] (R119). -/
def SES_STATUS_REVIVE_REFUSED : Fld := ⟨.SES_STATUS, 5, 5⟩
/-- SES_STATUS.MAP_MISMATCH, bits [4:4] (R119). -/
def SES_STATUS_MAP_MISMATCH : Fld := ⟨.SES_STATUS, 4, 4⟩
/-- SES_STATUS.QUOTA_REFUSED, bits [3:3] (R119). -/
def SES_STATUS_QUOTA_REFUSED : Fld := ⟨.SES_STATUS, 3, 3⟩
/-- SES_STATUS.TTL_EXPIRED, bits [2:2] (R119). -/
def SES_STATUS_TTL_EXPIRED : Fld := ⟨.SES_STATUS, 2, 2⟩
/-- SES_STATUS.DROPPED, bits [1:1] (R119). -/
def SES_STATUS_DROPPED : Fld := ⟨.SES_STATUS, 1, 1⟩
/-- SES_STATUS.IN_DOUBT, bits [0:0] (R119). -/
def SES_STATUS_IN_DOUBT : Fld := ⟨.SES_STATUS, 0, 0⟩
/-- SES_DIR_WIN.INDEX, bits [5:0] (R120). -/
def SES_DIR_WIN_INDEX : Fld := ⟨.SES_DIR_WIN, 5, 0⟩
/-- SCH_CTRL.ARITH_SHARE, bits [23:16] (R140). -/
def SCH_CTRL_ARITH_SHARE : Fld := ⟨.SCH_CTRL, 23, 16⟩
/-- SCH_CTRL.BW_SHARE, bits [15:8] (R140). -/
def SCH_CTRL_BW_SHARE : Fld := ⟨.SCH_CTRL, 15, 8⟩
/-- SCH_CTRL.HOLD_ENABLE, bits [1:1] (R140). -/
def SCH_CTRL_HOLD_ENABLE : Fld := ⟨.SCH_CTRL, 1, 1⟩
/-- SCH_CTRL.SHORT_PATH, bits [0:0] (R140). -/
def SCH_CTRL_SHORT_PATH : Fld := ⟨.SCH_CTRL, 0, 0⟩
/-- SCH_SLICE.POSITIONS, bits [8:0] (R140). -/
def SCH_SLICE_POSITIONS : Fld := ⟨.SCH_SLICE, 8, 0⟩
/-- SCH_SKIP_EST.VALUE, bits [8:0] (R140). -/
def SCH_SKIP_EST_VALUE : Fld := ⟨.SCH_SKIP_EST, 8, 0⟩
/-- SCH_STATUS.NO_REGION, bits [4:4] (R140). -/
def SCH_STATUS_NO_REGION : Fld := ⟨.SCH_STATUS, 4, 4⟩
/-- SCH_STATUS.SKIPPED, bits [3:3] (R140). -/
def SCH_STATUS_SKIPPED : Fld := ⟨.SCH_STATUS, 3, 3⟩
/-- SCH_STATUS.OVERCOMMIT, bits [2:2] (R140). -/
def SCH_STATUS_OVERCOMMIT : Fld := ⟨.SCH_STATUS, 2, 2⟩
/-- SCH_STATUS.LATE, bits [1:1] (R140). -/
def SCH_STATUS_LATE : Fld := ⟨.SCH_STATUS, 1, 1⟩
/-- SCH_STATUS.HELD, bits [0:0] (R140). -/
def SCH_STATUS_HELD : Fld := ⟨.SCH_STATUS, 0, 0⟩
/-- SCH_PROFILES.SHARE_USED, bits [31:16] (R140). -/
def SCH_PROFILES_SHARE_USED : Fld := ⟨.SCH_PROFILES, 31, 16⟩
/-- SCH_PROFILES.COUNT, bits [4:0] (R140). -/
def SCH_PROFILES_COUNT : Fld := ⟨.SCH_PROFILES, 4, 0⟩
/-- RGN_ATT_CTRL.FORCE_DENSE, bits [0:0] (R167). -/
def RGN_ATT_CTRL_FORCE_DENSE : Fld := ⟨.RGN_ATT_CTRL, 0, 0⟩
/-- RGN_ATT_STATUS.SUMMARY_POISON, bits [1:1] (R167). -/
def RGN_ATT_STATUS_SUMMARY_POISON : Fld := ⟨.RGN_ATT_STATUS, 1, 1⟩
/-- RGN_ATT_STATUS.NONFINITE, bits [0:0] (R167). -/
def RGN_ATT_STATUS_NONFINITE : Fld := ⟨.RGN_ATT_STATUS, 0, 0⟩
/-- LX_STATUS.NO_PARTNER, bits [3:3] (R192). -/
def LX_STATUS_NO_PARTNER : Fld := ⟨.LX_STATUS, 3, 3⟩
/-- LX_STATUS.GRAFT_MISSING, bits [2:2] (R192). -/
def LX_STATUS_GRAFT_MISSING : Fld := ⟨.LX_STATUS, 2, 2⟩
/-- LX_STATUS.ABANDONED, bits [1:1] (R192). -/
def LX_STATUS_ABANDONED : Fld := ⟨.LX_STATUS, 1, 1⟩
/-- LX_STATUS.REJECTED, bits [0:0] (R192). -/
def LX_STATUS_REJECTED : Fld := ⟨.LX_STATUS, 0, 0⟩
/-- LX_GRAFT_QUOTA.VALUE, bits [12:0] (R192). -/
def LX_GRAFT_QUOTA_VALUE : Fld := ⟨.LX_GRAFT_QUOTA, 12, 0⟩
/-- LX_GRAFT_USE.VALUE, bits [12:0] (R192). -/
def LX_GRAFT_USE_VALUE : Fld := ⟨.LX_GRAFT_USE, 12, 0⟩
/-- LX_GROUP_STEP.VALID, bits [31:31] (R192). -/
def LX_GROUP_STEP_VALID : Fld := ⟨.LX_GROUP_STEP, 31, 31⟩
/-- LX_GROUP_STEP.NODE, bits [8:0] (R192). -/
def LX_GROUP_STEP_NODE : Fld := ⟨.LX_GROUP_STEP, 8, 0⟩
/-- LX_GROUP_NODES.VALID_HI, bits [31:31] (R192). -/
def LX_GROUP_NODES_VALID_HI : Fld := ⟨.LX_GROUP_NODES, 31, 31⟩
/-- LX_GROUP_NODES.NODE_HI, bits [24:16] (R192). -/
def LX_GROUP_NODES_NODE_HI : Fld := ⟨.LX_GROUP_NODES, 24, 16⟩
/-- LX_GROUP_NODES.VALID_LO, bits [15:15] (R192). -/
def LX_GROUP_NODES_VALID_LO : Fld := ⟨.LX_GROUP_NODES, 15, 15⟩
/-- LX_GROUP_NODES.NODE_LO, bits [8:0] (R192). -/
def LX_GROUP_NODES_NODE_LO : Fld := ⟨.LX_GROUP_NODES, 8, 0⟩
/-- KV_CTRL.PRUNE_ENABLE, bits [2:2] (R223). -/
def KV_CTRL_PRUNE_ENABLE : Fld := ⟨.KV_CTRL, 2, 2⟩
/-- KV_CTRL.GRANULE, bits [1:0] (R223). -/
def KV_CTRL_GRANULE : Fld := ⟨.KV_CTRL, 1, 0⟩
/-- KV_STATUS.CONTEXT_FULL, bits [5:5] (R223). -/
def KV_STATUS_CONTEXT_FULL : Fld := ⟨.KV_STATUS, 5, 5⟩
/-- KV_STATUS.MAP_LOST, bits [4:4] (R223). -/
def KV_STATUS_MAP_LOST : Fld := ⟨.KV_STATUS, 4, 4⟩
/-- KV_STATUS.PFX_FULL, bits [3:3] (R223). -/
def KV_STATUS_PFX_FULL : Fld := ⟨.KV_STATUS, 3, 3⟩
/-- KV_STATUS.PRUNED, bits [2:2] (R223). -/
def KV_STATUS_PRUNED : Fld := ⟨.KV_STATUS, 2, 2⟩
/-- KV_STATUS.NO_FRAME, bits [1:1] (R223). -/
def KV_STATUS_NO_FRAME : Fld := ⟨.KV_STATUS, 1, 1⟩
/-- KV_STATUS.XLATE_FAULT, bits [0:0] (R223). -/
def KV_STATUS_XLATE_FAULT : Fld := ⟨.KV_STATUS, 0, 0⟩
/-- KV_PFX_CTRL.ENABLE, bits [7:7] (R223). -/
def KV_PFX_CTRL_ENABLE : Fld := ⟨.KV_PFX_CTRL, 7, 7⟩
/-- KV_PFX_CTRL.LOG2_BUCKETS, bits [4:0] (R223). -/
def KV_PFX_CTRL_LOG2_BUCKETS : Fld := ⟨.KV_PFX_CTRL, 4, 0⟩
/-- KV_RANGES.VALUE, bits [15:0] (R223). -/
def KV_RANGES_VALUE : Fld := ⟨.KV_RANGES, 15, 0⟩
/-- RGN_PW_FREE_PLOTS.VALUE, bits [15:0] (R224). -/
def RGN_PW_FREE_PLOTS_VALUE : Fld := ⟨.RGN_PW_FREE_PLOTS, 15, 0⟩
/-- IN_STATUS.NO_CONTEXT, bits [3:3] (R249). -/
def IN_STATUS_NO_CONTEXT : Fld := ⟨.IN_STATUS, 3, 3⟩
/-- IN_STATUS.CONTEXT_FULL, bits [2:2] (R249). -/
def IN_STATUS_CONTEXT_FULL : Fld := ⟨.IN_STATUS, 2, 2⟩
/-- IN_STATUS.PIECE_CUT, bits [1:1] (R249). -/
def IN_STATUS_PIECE_CUT : Fld := ⟨.IN_STATUS, 1, 1⟩
/-- IN_STATUS.ILL_FORMED, bits [0:0] (R249). -/
def IN_STATUS_ILL_FORMED : Fld := ⟨.IN_STATUS, 0, 0⟩
/-- IN_TABLES.NORM, bits [19:16] (R249). -/
def IN_TABLES_NORM : Fld := ⟨.IN_TABLES, 19, 16⟩
/-- IN_TABLES.MERGE, bits [11:8] (R249). -/
def IN_TABLES_MERGE : Fld := ⟨.IN_TABLES, 11, 8⟩
/-- IN_TABLES.VOCAB, bits [3:0] (R249). -/
def IN_TABLES_VOCAB : Fld := ⟨.IN_TABLES, 3, 0⟩
/-- DS_TOK_CONTEXTS.FREE, bits [12:0] (R250). -/
def DS_TOK_CONTEXTS_FREE : Fld := ⟨.DS_TOK_CONTEXTS, 12, 0⟩
/-- DS_TOK_BUSY.ENGINES, bits [3:0] (R250). -/
def DS_TOK_BUSY_ENGINES : Fld := ⟨.DS_TOK_BUSY, 3, 0⟩
/-- SMP_STATUS.PLAYLOG_WRAP, bits [4:4] (R275). -/
def SMP_STATUS_PLAYLOG_WRAP : Fld := ⟨.SMP_STATUS, 4, 4⟩
/-- SMP_STATUS.BACKLOG, bits [3:3] (R275). -/
def SMP_STATUS_BACKLOG : Fld := ⟨.SMP_STATUS, 3, 3⟩
/-- SMP_STATUS.UNDERRUN, bits [2:2] (R275). -/
def SMP_STATUS_UNDERRUN : Fld := ⟨.SMP_STATUS, 2, 2⟩
/-- SMP_STATUS.NONFINITE_LOGIT, bits [1:1] (R275). -/
def SMP_STATUS_NONFINITE_LOGIT : Fld := ⟨.SMP_STATUS, 1, 1⟩
/-- SMP_STATUS.MASK_EMPTY, bits [0:0] (R275). -/
def SMP_STATUS_MASK_EMPTY : Fld := ⟨.SMP_STATUS, 0, 0⟩
/-- SMP_FUR_HEAD.HEAD, bits [31:16] (R275). -/
def SMP_FUR_HEAD_HEAD : Fld := ⟨.SMP_FUR_HEAD, 31, 16⟩
/-- SMP_FUR_HEAD.FURROW, bits [15:0] (R275). -/
def SMP_FUR_HEAD_FURROW : Fld := ⟨.SMP_FUR_HEAD, 15, 0⟩
/-- SMP_FUR_SEL.FURROW, bits [15:0] (R275). -/
def SMP_FUR_SEL_FURROW : Fld := ⟨.SMP_FUR_SEL, 15, 0⟩
/-- SMP_FUR_STATE.TAIL, bits [31:16] (R275). -/
def SMP_FUR_STATE_TAIL : Fld := ⟨.SMP_FUR_STATE, 31, 16⟩
/-- SMP_FUR_STATE.HEAD, bits [15:0] (R275). -/
def SMP_FUR_STATE_HEAD : Fld := ⟨.SMP_FUR_STATE, 15, 0⟩
/-- SMP_GRAMMARS.COUNT, bits [6:0] (R275). -/
def SMP_GRAMMARS_COUNT : Fld := ⟨.SMP_GRAMMARS, 6, 0⟩
/-- TIER_CTRL.STRIPE, bits [1:1] (R302). -/
def TIER_CTRL_STRIPE : Fld := ⟨.TIER_CTRL, 1, 1⟩
/-- TIER_CTRL.KEEP_BACKING, bits [0:0] (R302). -/
def TIER_CTRL_KEEP_BACKING : Fld := ⟨.TIER_CTRL, 0, 0⟩
/-- TIER_STATUS.EXTENT_LOST, bits [3:3] (R302). -/
def TIER_STATUS_EXTENT_LOST : Fld := ⟨.TIER_STATUS, 3, 3⟩
/-- TIER_STATUS.DRAIN_DROP, bits [2:2] (R302). -/
def TIER_STATUS_DRAIN_DROP : Fld := ⟨.TIER_STATUS, 2, 2⟩
/-- TIER_STATUS.NO_ROOM, bits [1:1] (R302). -/
def TIER_STATUS_NO_ROOM : Fld := ⟨.TIER_STATUS, 1, 1⟩
/-- TIER_STATUS.PARK_FALLBACK, bits [0:0] (R302). -/
def TIER_STATUS_PARK_FALLBACK : Fld := ⟨.TIER_STATUS, 0, 0⟩
/-- TIER_QUEUE.MOVES, bits [15:0] (R302). -/
def TIER_QUEUE_MOVES : Fld := ⟨.TIER_QUEUE, 15, 0⟩
/-- CXL_CTRL.ENABLE, bits [0:0] (R303). -/
def CXL_CTRL_ENABLE : Fld := ⟨.CXL_CTRL, 0, 0⟩
/-- CXL_STATUS.LINK_UP, bits [16:16] (R303). -/
def CXL_STATUS_LINK_UP : Fld := ⟨.CXL_STATUS, 16, 16⟩
/-- CXL_STATUS.WIDTH, bits [11:8] (R303). -/
def CXL_STATUS_WIDTH : Fld := ⟨.CXL_STATUS, 11, 8⟩
/-- CXL_STATUS.RATE, bits [7:0] (R303). -/
def CXL_STATUS_RATE : Fld := ⟨.CXL_STATUS, 7, 0⟩
/-- CXL_EVENT.POISON_READ, bits [3:3] (R303). -/
def CXL_EVENT_POISON_READ : Fld := ⟨.CXL_EVENT, 3, 3⟩
/-- CXL_EVENT.LINK_DOWN, bits [2:2] (R303). -/
def CXL_EVENT_LINK_DOWN : Fld := ⟨.CXL_EVENT, 2, 2⟩
/-- CXL_EVENT.DEVICE_EVENT, bits [1:1] (R303). -/
def CXL_EVENT_DEVICE_EVENT : Fld := ⟨.CXL_EVENT, 1, 1⟩
/-- CXL_EVENT.IO_DONE, bits [0:0] (R303). -/
def CXL_EVENT_IO_DONE : Fld := ⟨.CXL_EVENT, 0, 0⟩
/-- CXL_IO_CTRL.BUSY, bits [31:31] (R303). -/
def CXL_IO_CTRL_BUSY : Fld := ⟨.CXL_IO_CTRL, 31, 31⟩
/-- CXL_IO_CTRL.BE, bits [27:24] (R303). -/
def CXL_IO_CTRL_BE : Fld := ⟨.CXL_IO_CTRL, 27, 24⟩
/-- CXL_IO_CTRL.RESULT, bits [17:16] (R303). -/
def CXL_IO_CTRL_RESULT : Fld := ⟨.CXL_IO_CTRL, 17, 16⟩
/-- CXL_IO_CTRL.GO, bits [8:8] (R303). -/
def CXL_IO_CTRL_GO : Fld := ⟨.CXL_IO_CTRL, 8, 8⟩
/-- CXL_IO_CTRL.OP, bits [1:0] (R303). -/
def CXL_IO_CTRL_OP : Fld := ⟨.CXL_IO_CTRL, 1, 0⟩
/-- CXL_HDM_BASE.BASE, bits [15:0] (R303). -/
def CXL_HDM_BASE_BASE : Fld := ⟨.CXL_HDM_BASE, 15, 0⟩
/-- CXL_HDM_SIZE.SIZE, bits [16:0] (R303). -/
def CXL_HDM_SIZE_SIZE : Fld := ⟨.CXL_HDM_SIZE, 16, 0⟩
/-- CXL_HDM_CTRL.COMMITTED, bits [1:1] (R303). -/
def CXL_HDM_CTRL_COMMITTED : Fld := ⟨.CXL_HDM_CTRL, 1, 1⟩
/-- CXL_HDM_CTRL.COMMIT, bits [0:0] (R303). -/
def CXL_HDM_CTRL_COMMIT : Fld := ⟨.CXL_HDM_CTRL, 0, 0⟩
/-- CXL_EXTENTS.DRAINING, bits [31:16] (R303). -/
def CXL_EXTENTS_DRAINING : Fld := ⟨.CXL_EXTENTS, 31, 16⟩
/-- CXL_EXTENTS.ACTIVE, bits [15:0] (R303). -/
def CXL_EXTENTS_ACTIVE : Fld := ⟨.CXL_EXTENTS, 15, 0⟩
/-- RGN_MEM_STATUS.SPARE_NONE, bits [3:3] (R304). -/
def RGN_MEM_STATUS_SPARE_NONE : Fld := ⟨.RGN_MEM_STATUS, 3, 3⟩
/-- RGN_MEM_STATUS.SPARE_DONE, bits [2:2] (R304). -/
def RGN_MEM_STATUS_SPARE_DONE : Fld := ⟨.RGN_MEM_STATUS, 2, 2⟩
/-- RGN_MEM_STATUS.SPARE_START, bits [1:1] (R304). -/
def RGN_MEM_STATUS_SPARE_START : Fld := ⟨.RGN_MEM_STATUS, 1, 1⟩
/-- RGN_MEM_STATUS.UNCORRECTED, bits [0:0] (R304). -/
def RGN_MEM_STATUS_UNCORRECTED : Fld := ⟨.RGN_MEM_STATUS, 0, 0⟩
/-- RGN_MEM_CTRL.SPARE_NOW, bits [31:31] (R304). -/
def RGN_MEM_CTRL_SPARE_NOW : Fld := ⟨.RGN_MEM_CTRL, 31, 31⟩
/-- RGN_MEM_CTRL.SPARE_DIE, bits [27:24] (R304). -/
def RGN_MEM_CTRL_SPARE_DIE : Fld := ⟨.RGN_MEM_CTRL, 27, 24⟩
/-- RGN_MEM_CTRL.SPARE_SHARE, bits [23:16] (R304). -/
def RGN_MEM_CTRL_SPARE_SHARE : Fld := ⟨.RGN_MEM_CTRL, 23, 16⟩
/-- RGN_MEM_CTRL.SPARE_THRESH, bits [15:0] (R304). -/
def RGN_MEM_CTRL_SPARE_THRESH : Fld := ⟨.RGN_MEM_CTRL, 15, 0⟩
/-- RGN_MEM_SPARE.STATE, bits [17:16] (R304). -/
def RGN_MEM_SPARE_STATE : Fld := ⟨.RGN_MEM_SPARE, 17, 16⟩
/-- RGN_MEM_SPARE.DIE, bits [11:8] (R304). -/
def RGN_MEM_SPARE_DIE : Fld := ⟨.RGN_MEM_SPARE, 11, 8⟩
/-- RGN_MEM_SPARE.PROGRESS, bits [6:0] (R304). -/
def RGN_MEM_SPARE_PROGRESS : Fld := ⟨.RGN_MEM_SPARE, 6, 0⟩
/-- RGN_MEM_DIE_ERR.VALUE, bits [15:0] (R304). -/
def RGN_MEM_DIE_ERR_VALUE : Fld := ⟨.RGN_MEM_DIE_ERR, 15, 0⟩
/-- RGN_RAKE_POS.PERCENT, bits [6:0] (R304). -/
def RGN_RAKE_POS_PERCENT : Fld := ⟨.RGN_RAKE_POS, 6, 0⟩
/-- FL_CTRL.WEAR_GAP, bits [31:16] (R330). -/
def FL_CTRL_WEAR_GAP : Fld := ⟨.FL_CTRL, 31, 16⟩
/-- FL_CTRL.WEAR_WEIGHT, bits [15:8] (R330). -/
def FL_CTRL_WEAR_WEIGHT : Fld := ⟨.FL_CTRL, 15, 8⟩
/-- FL_CTRL.WEAR_ENABLE, bits [0:0] (R330). -/
def FL_CTRL_WEAR_ENABLE : Fld := ⟨.FL_CTRL, 0, 0⟩
/-- FL_LOG_WATER.HIGH, bits [31:16] (R330). -/
def FL_LOG_WATER_HIGH : Fld := ⟨.FL_LOG_WATER, 31, 16⟩
/-- FL_LOG_WATER.LOW, bits [15:0] (R330). -/
def FL_LOG_WATER_LOW : Fld := ⟨.FL_LOG_WATER, 15, 0⟩
/-- FL_REFRESH_BITS.VALUE, bits [7:0] (R330). -/
def FL_REFRESH_BITS_VALUE : Fld := ⟨.FL_REFRESH_BITS, 7, 0⟩
/-- FL_STATUS.KEEP_TORN, bits [5:5] (R330). -/
def FL_STATUS_KEEP_TORN : Fld := ⟨.FL_STATUS, 5, 5⟩
/-- FL_STATUS.RECOVERED, bits [4:4] (R330). -/
def FL_STATUS_RECOVERED : Fld := ⟨.FL_STATUS, 4, 4⟩
/-- FL_STATUS.UNCORRECTED, bits [3:3] (R330). -/
def FL_STATUS_UNCORRECTED : Fld := ⟨.FL_STATUS, 3, 3⟩
/-- FL_STATUS.BAD_BLOCK, bits [2:2] (R330). -/
def FL_STATUS_BAD_BLOCK : Fld := ⟨.FL_STATUS, 2, 2⟩
/-- FL_STATUS.SPARES_LOW, bits [1:1] (R330). -/
def FL_STATUS_SPARES_LOW : Fld := ⟨.FL_STATUS, 1, 1⟩
/-- FL_STATUS.LOG_LOW, bits [0:0] (R330). -/
def FL_STATUS_LOG_LOW : Fld := ⟨.FL_STATUS, 0, 0⟩
/-- FL_POOLS.BAD, bits [31:16] (R330). -/
def FL_POOLS_BAD : Fld := ⟨.FL_POOLS, 31, 16⟩
/-- FL_POOLS.SPARES_LEFT, bits [15:0] (R330). -/
def FL_POOLS_SPARES_LEFT : Fld := ⟨.FL_POOLS, 15, 0⟩
/-- FL_LOG.FREE, bits [15:0] (R330). -/
def FL_LOG_FREE : Fld := ⟨.FL_LOG, 15, 0⟩
/-- FL_ERASE.MAX, bits [31:16] (R330). -/
def FL_ERASE_MAX : Fld := ⟨.FL_ERASE, 31, 16⟩
/-- FL_ERASE.MIN, bits [15:0] (R330). -/
def FL_ERASE_MIN : Fld := ⟨.FL_ERASE, 15, 0⟩
/-- FL_ERASE_MEAN.VALUE, bits [15:0] (R330). -/
def FL_ERASE_MEAN_VALUE : Fld := ⟨.FL_ERASE_MEAN, 15, 0⟩
/-- FL_RAKE_POS.PERCENT, bits [6:0] (R330). -/
def FL_RAKE_POS_PERCENT : Fld := ⟨.FL_RAKE_POS, 6, 0⟩
/-- VS_STATUS.DELETE_FULL, bits [3:3] (R349). -/
def VS_STATUS_DELETE_FULL : Fld := ⟨.VS_STATUS, 3, 3⟩
/-- VS_STATUS.SHARD_MISSING, bits [2:2] (R349). -/
def VS_STATUS_SHARD_MISSING : Fld := ⟨.VS_STATUS, 2, 2⟩
/-- VS_STATUS.EXHAUSTED, bits [1:1] (R349). -/
def VS_STATUS_EXHAUSTED : Fld := ⟨.VS_STATUS, 1, 1⟩
/-- VS_STATUS.BUDGET, bits [0:0] (R349). -/
def VS_STATUS_BUDGET : Fld := ⟨.VS_STATUS, 0, 0⟩
/-- VS_INDEXES.COUNT, bits [6:0] (R349). -/
def VS_INDEXES_COUNT : Fld := ⟨.VS_INDEXES, 6, 0⟩
/-- DS_GW_BUSY.WALKERS, bits [3:0] (R350). -/
def DS_GW_BUSY_WALKERS : Fld := ⟨.DS_GW_BUSY, 3, 0⟩
/-- DS_GW_INFLIGHT.COUNT, bits [6:0] (R350). -/
def DS_GW_INFLIGHT_COUNT : Fld := ⟨.DS_GW_INFLIGHT, 6, 0⟩
/-- PLW_CTRL.RATE_200, bits [18:18] (R381). -/
def PLW_CTRL_RATE_200 : Fld := ⟨.PLW_CTRL, 18, 18⟩
/-- PLW_CTRL.MAJOR_MAX, bits [17:16] (R381). -/
def PLW_CTRL_MAJOR_MAX : Fld := ⟨.PLW_CTRL, 17, 16⟩
/-- PLW_CTRL.LANE_MASK, bits [15:8] (R381). -/
def PLW_CTRL_LANE_MASK : Fld := ⟨.PLW_CTRL, 15, 8⟩
/-- PLW_CTRL.ENABLE, bits [0:0] (R381). -/
def PLW_CTRL_ENABLE : Fld := ⟨.PLW_CTRL, 0, 0⟩
/-- PLW_STATE.ROLE, bits [26:24] (R381). -/
def PLW_STATE_ROLE : Fld := ⟨.PLW_STATE, 26, 24⟩
/-- PLW_STATE.VERSION, bits [23:16] (R381). -/
def PLW_STATE_VERSION : Fld := ⟨.PLW_STATE, 23, 16⟩
/-- PLW_STATE.RATE, bits [12:12] (R381). -/
def PLW_STATE_RATE : Fld := ⟨.PLW_STATE, 12, 12⟩
/-- PLW_STATE.WIDTH, bits [11:8] (R381). -/
def PLW_STATE_WIDTH : Fld := ⟨.PLW_STATE, 11, 8⟩
/-- PLW_STATE.STATE, bits [2:0] (R381). -/
def PLW_STATE_STATE : Fld := ⟨.PLW_STATE, 2, 0⟩
/-- PLW_PARTNER.PORT, bits [19:16] (R381). -/
def PLW_PARTNER_PORT : Fld := ⟨.PLW_PARTNER, 19, 16⟩
/-- PLW_PARTNER.NODE, bits [8:0] (R381). -/
def PLW_PARTNER_NODE : Fld := ⟨.PLW_PARTNER, 8, 0⟩
/-- PLW_STATUS.KEY_WEAR, bits [6:6] (R381). -/
def PLW_STATUS_KEY_WEAR : Fld := ⟨.PLW_STATUS, 6, 6⟩
/-- PLW_STATUS.DROP, bits [5:5] (R381). -/
def PLW_STATUS_DROP : Fld := ⟨.PLW_STATUS, 5, 5⟩
/-- PLW_STATUS.REPLAY, bits [4:4] (R381). -/
def PLW_STATUS_REPLAY : Fld := ⟨.PLW_STATUS, 4, 4⟩
/-- PLW_STATUS.FEC_UNCORR, bits [3:3] (R381). -/
def PLW_STATUS_FEC_UNCORR : Fld := ⟨.PLW_STATUS, 3, 3⟩
/-- PLW_STATUS.LANE_LOST, bits [2:2] (R381). -/
def PLW_STATUS_LANE_LOST : Fld := ⟨.PLW_STATUS, 2, 2⟩
/-- PLW_STATUS.RETRAINED, bits [1:1] (R381). -/
def PLW_STATUS_RETRAINED : Fld := ⟨.PLW_STATUS, 1, 1⟩
/-- PLW_STATUS.LINK_DOWN, bits [0:0] (R381). -/
def PLW_STATUS_LINK_DOWN : Fld := ⟨.PLW_STATUS, 0, 0⟩
/-- PLW_OVERHEAD.BYTES, bits [7:0] (R381). -/
def PLW_OVERHEAD_BYTES : Fld := ⟨.PLW_OVERHEAD, 7, 0⟩
/-- PLW_SHAPE_RATE.MBPS, bits [19:0] (R381). -/
def PLW_SHAPE_RATE_MBPS : Fld := ⟨.PLW_SHAPE_RATE, 19, 0⟩
/-- PLW_SHAPE_BURST.KIB, bits [15:0] (R381). -/
def PLW_SHAPE_BURST_KIB : Fld := ⟨.PLW_SHAPE_BURST, 15, 0⟩
/-- PLW_POLICE_RATE.MBPS, bits [19:0] (R381). -/
def PLW_POLICE_RATE_MBPS : Fld := ⟨.PLW_POLICE_RATE, 19, 0⟩
/-- PLW_POLICE_BURST.KIB, bits [15:0] (R381). -/
def PLW_POLICE_BURST_KIB : Fld := ⟨.PLW_POLICE_BURST, 15, 0⟩
/-- PLW_NODE.NODE, bits [8:0] (R382). -/
def PLW_NODE_NODE : Fld := ⟨.PLW_NODE, 8, 0⟩
/-- PLW_GCTRL.REQUIRE_ENC, bits [0:0] (R382). -/
def PLW_GCTRL_REQUIRE_ENC : Fld := ⟨.PLW_GCTRL, 0, 0⟩
/-- PLW_KEYS.USED, bits [8:0] (R382). -/
def PLW_KEYS_USED : Fld := ⟨.PLW_KEYS, 8, 0⟩
/-- PLW_ROUTE.MASKS, bits [31:0] (R382). -/
def PLW_ROUTE_MASKS : Fld := ⟨.PLW_ROUTE, 31, 0⟩
/-- EXP_STATUS.POISON_SERVED, bits [4:4] (R403). -/
def EXP_STATUS_POISON_SERVED : Fld := ⟨.EXP_STATUS, 4, 4⟩
/-- EXP_STATUS.PUB_REFUSED, bits [3:3] (R403). -/
def EXP_STATUS_PUB_REFUSED : Fld := ⟨.EXP_STATUS, 3, 3⟩
/-- EXP_STATUS.REVOKED_REFUSED, bits [2:2] (R403). -/
def EXP_STATUS_REVOKED_REFUSED : Fld := ⟨.EXP_STATUS, 2, 2⟩
/-- EXP_STATUS.HOLDER_LOST, bits [1:1] (R403). -/
def EXP_STATUS_HOLDER_LOST : Fld := ⟨.EXP_STATUS, 1, 1⟩
/-- EXP_STATUS.REMOTE_FAIL, bits [0:0] (R403). -/
def EXP_STATUS_REMOTE_FAIL : Fld := ⟨.EXP_STATUS, 0, 0⟩
/-- EXP_COUNTS.NAMES, bits [24:16] (R403). -/
def EXP_COUNTS_NAMES : Fld := ⟨.EXP_COUNTS, 24, 16⟩
/-- EXP_COUNTS.EXPORTS, bits [8:0] (R403). -/
def EXP_COUNTS_EXPORTS : Fld := ⟨.EXP_COUNTS, 8, 0⟩
/-- CK_STATUS.SALVAGED, bits [4:4] (R426). -/
def CK_STATUS_SALVAGED : Fld := ⟨.CK_STATUS, 4, 4⟩
/-- CK_STATUS.RESTORE_REFUSED, bits [3:3] (R426). -/
def CK_STATUS_RESTORE_REFUSED : Fld := ⟨.CK_STATUS, 3, 3⟩
/-- CK_STATUS.DEADLINE, bits [2:2] (R426). -/
def CK_STATUS_DEADLINE : Fld := ⟨.CK_STATUS, 2, 2⟩
/-- CK_STATUS.ABORTED, bits [1:1] (R426). -/
def CK_STATUS_ABORTED : Fld := ⟨.CK_STATUS, 1, 1⟩
/-- CK_STATUS.COMMITTED, bits [0:0] (R426). -/
def CK_STATUS_COMMITTED : Fld := ⟨.CK_STATUS, 0, 0⟩
/-- CK_STATE.STAGED, bits [3:3] (R426). -/
def CK_STATE_STAGED : Fld := ⟨.CK_STATE, 3, 3⟩
/-- CK_STATE.PHASE, bits [2:0] (R426). -/
def CK_STATE_PHASE : Fld := ⟨.CK_STATE, 2, 0⟩
/-- SEC_STATE.BEDS, bits [31:16] (R455). -/
def SEC_STATE_BEDS : Fld := ⟨.SEC_STATE, 31, 16⟩
/-- SEC_STATE.APPROVED, bits [7:7] (R455). -/
def SEC_STATE_APPROVED : Fld := ⟨.SEC_STATE, 7, 7⟩
/-- SEC_STATE.LIFECYCLE, bits [5:4] (R455). -/
def SEC_STATE_LIFECYCLE : Fld := ⟨.SEC_STATE, 5, 4⟩
/-- SEC_STATE.SEQ, bits [2:0] (R455). -/
def SEC_STATE_SEQ : Fld := ⟨.SEC_STATE, 2, 0⟩
/-- SEC_STATUS.ZEROIZED, bits [5:5] (R455). -/
def SEC_STATUS_ZEROIZED : Fld := ⟨.SEC_STATUS, 5, 5⟩
/-- SEC_STATUS.TDI_ERROR, bits [4:4] (R455). -/
def SEC_STATUS_TDI_ERROR : Fld := ⟨.SEC_STATUS, 4, 4⟩
/-- SEC_STATUS.TAG_FAIL, bits [3:3] (R455). -/
def SEC_STATUS_TAG_FAIL : Fld := ⟨.SEC_STATUS, 3, 3⟩
/-- SEC_STATUS.BUNDLE_REFUSED, bits [2:2] (R455). -/
def SEC_STATUS_BUNDLE_REFUSED : Fld := ⟨.SEC_STATUS, 2, 2⟩
/-- SEC_STATUS.SELFTEST_FAIL, bits [1:1] (R455). -/
def SEC_STATUS_SELFTEST_FAIL : Fld := ⟨.SEC_STATUS, 1, 1⟩
/-- SEC_STATUS.APPLIED, bits [0:0] (R455). -/
def SEC_STATUS_APPLIED : Fld := ⟨.SEC_STATUS, 0, 0⟩
/-- SEC_BED_REGIONS_TABLE.GRANULE, bits [17:16] (R455). -/
def SEC_BED_REGIONS_TABLE_GRANULE : Fld := ⟨.SEC_BED_REGIONS_TABLE, 17, 16⟩
/-- SEC_BED_REGIONS_TABLE.REGIONS, bits [15:0] (R455). -/
def SEC_BED_REGIONS_TABLE_REGIONS : Fld := ⟨.SEC_BED_REGIONS_TABLE, 15, 0⟩
/-- SEC_BED_STATE.GEN, bits [23:16] (R456). -/
def SEC_BED_STATE_GEN : Fld := ⟨.SEC_BED_STATE, 23, 16⟩
/-- SEC_BED_STATE.TDI, bits [4:2] (R456). -/
def SEC_BED_STATE_TDI : Fld := ⟨.SEC_BED_STATE, 4, 2⟩
/-- SEC_BED_STATE.TRANSITION, bits [1:1] (R456). -/
def SEC_BED_STATE_TRANSITION : Fld := ⟨.SEC_BED_STATE, 1, 1⟩
/-- SEC_BED_STATE.CONFIGURED, bits [0:0] (R456). -/
def SEC_BED_STATE_CONFIGURED : Fld := ⟨.SEC_BED_STATE, 0, 0⟩
/-- SEC_BED_STATUS.TAG_FAIL, bits [2:2] (R456). -/
def SEC_BED_STATUS_TAG_FAIL : Fld := ⟨.SEC_BED_STATUS, 2, 2⟩
/-- SEC_BED_STATUS.TDI_ERROR, bits [1:1] (R456). -/
def SEC_BED_STATUS_TDI_ERROR : Fld := ⟨.SEC_BED_STATUS, 1, 1⟩
/-- SEC_BED_STATUS.RESET_DONE, bits [0:0] (R456). -/
def SEC_BED_STATUS_RESET_DONE : Fld := ⟨.SEC_BED_STATUS, 0, 0⟩
/-- SEC_BED_REGIONS.GRANULE, bits [17:16] (R456). -/
def SEC_BED_REGIONS_GRANULE : Fld := ⟨.SEC_BED_REGIONS, 17, 16⟩
/-- SEC_BED_REGIONS.REGIONS, bits [15:0] (R456). -/
def SEC_BED_REGIONS_REGIONS : Fld := ⟨.SEC_BED_REGIONS, 15, 0⟩
/-- FLT_STATE.SAFE, bits [31:31] (R472). -/
def FLT_STATE_SAFE : Fld := ⟨.FLT_STATE, 31, 31⟩
/-- FLT_STATE.DEGRADED, bits [30:30] (R472). -/
def FLT_STATE_DEGRADED : Fld := ⟨.FLT_STATE, 30, 30⟩
/-- FLT_STATE.CLASS_MAX, bits [26:24] (R472). -/
def FLT_STATE_CLASS_MAX : Fld := ⟨.FLT_STATE, 26, 24⟩
/-- FLT_STATE.FENCED_REGIONS, bits [15:0] (R472). -/
def FLT_STATE_FENCED_REGIONS : Fld := ⟨.FLT_STATE, 15, 0⟩
/-- FLT_STATUS.SELF, bits [7:7] (R472). -/
def FLT_STATUS_SELF : Fld := ⟨.FLT_STATUS, 7, 7⟩
/-- FLT_STATUS.LOG_OVERFLOW, bits [6:6] (R472). -/
def FLT_STATUS_LOG_OVERFLOW : Fld := ⟨.FLT_STATUS, 6, 6⟩
/-- FLT_STATUS.C4, bits [4:4] (R472). -/
def FLT_STATUS_C4 : Fld := ⟨.FLT_STATUS, 4, 4⟩
/-- FLT_STATUS.C3, bits [3:3] (R472). -/
def FLT_STATUS_C3 : Fld := ⟨.FLT_STATUS, 3, 3⟩
/-- FLT_STATUS.C2, bits [2:2] (R472). -/
def FLT_STATUS_C2 : Fld := ⟨.FLT_STATUS, 2, 2⟩
/-- FLT_STATUS.C1, bits [1:1] (R472). -/
def FLT_STATUS_C1 : Fld := ⟨.FLT_STATUS, 1, 1⟩
/-- FLT_STATUS.C0, bits [0:0] (R472). -/
def FLT_STATUS_C0 : Fld := ⟨.FLT_STATUS, 0, 0⟩
/-- FLT_ENABLE.PIN, bits [12:8] (R472). -/
def FLT_ENABLE_PIN : Fld := ⟨.FLT_ENABLE, 12, 8⟩
/-- FLT_ENABLE.INT, bits [4:0] (R472). -/
def FLT_ENABLE_INT : Fld := ⟨.FLT_ENABLE, 4, 0⟩
/-- FLT_CTRL.UNIT_LIMIT, bits [31:24] (R472). -/
def FLT_CTRL_UNIT_LIMIT : Fld := ⟨.FLT_CTRL, 31, 24⟩
/-- FLT_CTRL.INJECT_ENABLE, bits [2:2] (R472). -/
def FLT_CTRL_INJECT_ENABLE : Fld := ⟨.FLT_CTRL, 2, 2⟩
/-- FLT_CTRL.AUTO_PARTITION_RESET, bits [1:1] (R472). -/
def FLT_CTRL_AUTO_PARTITION_RESET : Fld := ⟨.FLT_CTRL, 1, 1⟩
/-- FLT_CTRL.RECORD_C0, bits [0:0] (R472). -/
def FLT_CTRL_RECORD_C0 : Fld := ⟨.FLT_CTRL, 0, 0⟩
/-- FLT_UNITS_FENCED.COUNT, bits [10:0] (R472). -/
def FLT_UNITS_FENCED_COUNT : Fld := ⟨.FLT_UNITS_FENCED, 10, 0⟩
/-- FLT_FIRST_ARM.ARM, bits [0:0] (R472). -/
def FLT_FIRST_ARM_ARM : Fld := ⟨.FLT_FIRST_ARM, 0, 0⟩
/-- FLT_INJECT.GO, bits [31:31] (R472). -/
def FLT_INJECT_GO : Fld := ⟨.FLT_INJECT, 31, 31⟩
/-- FLT_INJECT.LOCATION, bits [25:16] (R472). -/
def FLT_INJECT_LOCATION : Fld := ⟨.FLT_INJECT, 25, 16⟩
/-- FLT_INJECT.SOURCE, bits [15:0] (R472). -/
def FLT_INJECT_SOURCE : Fld := ⟨.FLT_INJECT, 15, 0⟩
/-- FLT_BED_STATE.FATAL, bits [31:31] (R473). -/
def FLT_BED_STATE_FATAL : Fld := ⟨.FLT_BED_STATE, 31, 31⟩
/-- FLT_BED_STATE.FENCED_REGIONS, bits [15:0] (R473). -/
def FLT_BED_STATE_FENCED_REGIONS : Fld := ⟨.FLT_BED_STATE, 15, 0⟩
/-- FLT_BED_STATUS.C3, bits [3:3] (R473). -/
def FLT_BED_STATUS_C3 : Fld := ⟨.FLT_BED_STATUS, 3, 3⟩
/-- FLT_BED_STATUS.C2, bits [2:2] (R473). -/
def FLT_BED_STATUS_C2 : Fld := ⟨.FLT_BED_STATUS, 2, 2⟩
/-- FLT_BED_STATUS.C1, bits [1:1] (R473). -/
def FLT_BED_STATUS_C1 : Fld := ⟨.FLT_BED_STATUS, 1, 1⟩
/-- FLT_BED_STATUS.C0, bits [0:0] (R473). -/
def FLT_BED_STATUS_C0 : Fld := ⟨.FLT_BED_STATUS, 0, 0⟩
/-- FLT_BED_FIRST_ARM.ARM, bits [0:0] (R473). -/
def FLT_BED_FIRST_ARM_ARM : Fld := ⟨.FLT_BED_FIRST_ARM, 0, 0⟩
/-- CTR_CTRL.CLEAR, bits [1:1] (R476). -/
def CTR_CTRL_CLEAR : Fld := ⟨.CTR_CTRL, 1, 1⟩
/-- CTR_CTRL.RUN, bits [0:0] (R476). -/
def CTR_CTRL_RUN : Fld := ⟨.CTR_CTRL, 0, 0⟩
/-- CTR_STATUS.OVERFLOW, bits [7:0] (R476). -/
def CTR_STATUS_OVERFLOW : Fld := ⟨.CTR_STATUS, 7, 0⟩
/-- CTR_SEL.BED_EN, bits [23:23] (R476). -/
def CTR_SEL_BED_EN : Fld := ⟨.CTR_SEL, 23, 23⟩
/-- CTR_SEL.BED, bits [22:19] (R476). -/
def CTR_SEL_BED : Fld := ⟨.CTR_SEL, 22, 19⟩
/-- CTR_SEL.ALL_UNITS, bits [18:18] (R476). -/
def CTR_SEL_ALL_UNITS : Fld := ⟨.CTR_SEL, 18, 18⟩
/-- CTR_SEL.UNIT, bits [17:12] (R476). -/
def CTR_SEL_UNIT : Fld := ⟨.CTR_SEL, 17, 12⟩
/-- CTR_SEL.EVENT, bits [7:0] (R476). -/
def CTR_SEL_EVENT : Fld := ⟨.CTR_SEL, 7, 0⟩
/-- CTR_GLOBAL.SETS, bits [31:0] (R477). -/
def CTR_GLOBAL_SETS : Fld := ⟨.CTR_GLOBAL, 31, 0⟩
/-- CTR_GLOBAL_CMD.STOP, bits [1:1] (R477). -/
def CTR_GLOBAL_CMD_STOP : Fld := ⟨.CTR_GLOBAL_CMD, 1, 1⟩
/-- CTR_GLOBAL_CMD.START, bits [0:0] (R477). -/
def CTR_GLOBAL_CMD_START : Fld := ⟨.CTR_GLOBAL_CMD, 0, 0⟩
/-- CTR_GRANT.BEDS, bits [15:0] (R477). -/
def CTR_GRANT_BEDS : Fld := ⟨.CTR_GRANT, 15, 0⟩
/-- TRC_CTRL.MSG_LOG2, bits [19:16] (R490). -/
def TRC_CTRL_MSG_LOG2 : Fld := ⟨.TRC_CTRL, 19, 16⟩
/-- TRC_CTRL.ALL_BEDS, bits [9:9] (R490). -/
def TRC_CTRL_ALL_BEDS : Fld := ⟨.TRC_CTRL, 9, 9⟩
/-- TRC_CTRL.MODE, bits [8:8] (R490). -/
def TRC_CTRL_MODE : Fld := ⟨.TRC_CTRL, 8, 8⟩
/-- TRC_CTRL.KINDS, bits [4:0] (R490). -/
def TRC_CTRL_KINDS : Fld := ⟨.TRC_CTRL, 4, 0⟩
/-- TRC_SIZE.LOG2, bits [4:0] (R490). -/
def TRC_SIZE_LOG2 : Fld := ⟨.TRC_SIZE, 4, 0⟩
/-- TRC_STATUS.STAGING_FULL, bits [2:2] (R490). -/
def TRC_STATUS_STAGING_FULL : Fld := ⟨.TRC_STATUS, 2, 2⟩
/-- TRC_STATUS.WRAPPED, bits [1:1] (R490). -/
def TRC_STATUS_WRAPPED : Fld := ⟨.TRC_STATUS, 1, 1⟩
/-- TRC_STATUS.LOST, bits [0:0] (R490). -/
def TRC_STATUS_LOST : Fld := ⟨.TRC_STATUS, 0, 0⟩
/-- TRC_RANGE.MARKER, bits [15:0] (R490). -/
def TRC_RANGE_MARKER : Fld := ⟨.TRC_RANGE, 15, 0⟩
/-- HUB_BOOT.KEEP_READY, bits [31:31] (R507). -/
def HUB_BOOT_KEEP_READY : Fld := ⟨.HUB_BOOT, 31, 31⟩
/-- HUB_BOOT.MEM_READY, bits [30:30] (R507). -/
def HUB_BOOT_MEM_READY : Fld := ⟨.HUB_BOOT, 30, 30⟩
/-- HUB_BOOT.FLASH_READY, bits [23:16] (R507). -/
def HUB_BOOT_FLASH_READY : Fld := ⟨.HUB_BOOT, 23, 16⟩
/-- HUB_BOOT.STACKS_TRAINED, bits [15:0] (R507). -/
def HUB_BOOT_STACKS_TRAINED : Fld := ⟨.HUB_BOOT, 15, 0⟩
/-- HUB_RESET_CAUSE.COUNT, bits [23:8] (R507). -/
def HUB_RESET_CAUSE_COUNT : Fld := ⟨.HUB_RESET_CAUSE, 23, 8⟩
/-- HUB_RESET_CAUSE.CAUSE, bits [1:0] (R507). -/
def HUB_RESET_CAUSE_CAUSE : Fld := ⟨.HUB_RESET_CAUSE, 1, 0⟩
/-- HUB_RESET_CTRL.KEY, bits [31:24] (R507). -/
def HUB_RESET_CTRL_KEY : Fld := ⟨.HUB_RESET_CTRL, 31, 24⟩
/-- HUB_RESET_CTRL.DEVICE, bits [0:0] (R507). -/
def HUB_RESET_CTRL_DEVICE : Fld := ⟨.HUB_RESET_CTRL, 0, 0⟩
/-- HUB_REGION_RESET.REGIONS, bits [15:0] (R507). -/
def HUB_REGION_RESET_REGIONS : Fld := ⟨.HUB_REGION_RESET, 15, 0⟩
/-- HUB_VIN.CURRENT, bits [31:16] (R507). -/
def HUB_VIN_CURRENT : Fld := ⟨.HUB_VIN, 31, 16⟩
/-- HUB_VIN.VOLTAGE, bits [15:0] (R507). -/
def HUB_VIN_VOLTAGE : Fld := ⟨.HUB_VIN, 15, 0⟩
/-- HUB_POWER.WATTS, bits [15:0] (R507). -/
def HUB_POWER_WATTS : Fld := ⟨.HUB_POWER, 15, 0⟩
/-- HUB_POWER_PEAK.WATTS, bits [15:0] (R507). -/
def HUB_POWER_PEAK_WATTS : Fld := ⟨.HUB_POWER_PEAK, 15, 0⟩
/-- HUB_TEMP.SENSOR, bits [23:16] (R507). -/
def HUB_TEMP_SENSOR : Fld := ⟨.HUB_TEMP, 23, 16⟩
/-- HUB_TEMP.VALUE, bits [15:0] (R507). -/
def HUB_TEMP_VALUE : Fld := ⟨.HUB_TEMP, 15, 0⟩
/-- HUB_PWR_STATUS.VIN_HIGH, bits [5:5] (R507). -/
def HUB_PWR_STATUS_VIN_HIGH : Fld := ⟨.HUB_PWR_STATUS, 5, 5⟩
/-- HUB_PWR_STATUS.VIN_LOW, bits [4:4] (R507). -/
def HUB_PWR_STATUS_VIN_LOW : Fld := ⟨.HUB_PWR_STATUS, 4, 4⟩
/-- HUB_PWR_STATUS.WARN, bits [3:0] (R507). -/
def HUB_PWR_STATUS_WARN : Fld := ⟨.HUB_PWR_STATUS, 3, 0⟩
/-- HUB_PWR_ENABLE.MASK, bits [5:0] (R507). -/
def HUB_PWR_ENABLE_MASK : Fld := ⟨.HUB_PWR_ENABLE, 5, 0⟩

end F

end Sys2Proof.Machine
end

