-- ==== Sys2Proof/Machine/StateParts.lean ====
section
/-! DEFINITION. The state of the block as plain data: one structure per chapter of the spec, and `State`, which holds
them all, the queue of waiting commands and the counter of free values. `State.reset` is the block right after the
release of power-on reset. -/

namespace Sys2Proof.Machine

/-! ## Registers (R10 to R15) -/

/-- A register: its name, the instance of its block (function, Bed, region, port, die, controller or counter set) and
its index in its array. -/
structure Reg where
  name : RN
  inst : Nat := 0
  idx : Nat := 0
  deriving DecidableEq, Repr

/-- The read latch and the held lower half of a 64-bit pair belong to one issuing function (R12). `reg` is the lower
register of the pair. -/
structure PairKey where
  fn : Nat
  reg : Reg
  deriving DecidableEq, Repr

/-- What a function's configuration space holds that changes (R15, R60): whether the function is in D3hot, whether its MSI-X is
enabled, and the vectors unmasked. R60 names the capabilities; their reset values are PCIe's: PRESUMED (log entry 100). -/
structure FnConfig where
  fn : Nat
  d3hot : Bool := false
  msixEnable : Bool := false
  unmasked : List Nat := []
  deriving DecidableEq, Repr

/-- What passes on the host link: latches, held halves, the last value a register read returned, and the MSI-X messages
signalled (function, vector; the newest first), before any mask of `config`, the configuration space of the functions that differ
from reset. The board pins of R469 are functions of the fault registers (`State.alertPin`, `State.fatalPin`). -/
structure Bus where
  latches : List (PairKey × W32) := []
  held : List (PairKey × W32) := []
  readData : W32 := 0
  msix : List (Nat × Nat) := []
  config : List FnConfig := []
  deriving DecidableEq, Repr

/-! ## Frame Time and region clocks (chapters Architecture, Frame Time) -/

/-- The exchange in progress (R47): its port, sequence number, t1, t2, beacon CORR, and t3 once the delay request left. -/
structure Exchange where
  port : Nat
  seq : W16
  t1 : W64
  t2 : W64
  corr : W64
  t3 : Option W64 := none
  deriving DecidableEq, Repr

/-- A Frame Time replica (R49, R51): its count, whether it is synchronised, and the time words still to take before it is, after
a reset. `failed` holds from the loss of three words (R52). -/
structure Replica where
  count : W64 := 0
  synced : Bool := false
  track : Nat := 3
  failed : Bool := false
  deriving DecidableEq, Repr

/-- The Frame Time master and its replicas. `slew` is the remaining slew (R508); `removed` is the offset removed by
slewing since the last completed exchange; `prev` is θ and T of that exchange when R508 may still use it; `lockRun`
counts consecutive exchanges towards LOCKED; `lastDone` is when the last exchange completed and `since` when the
present state was entered. -/
structure FrameTime where
  hub : W64 := 0
  slew : Int := 0
  removed : Int := 0
  prev : Option (Int × W64) := none
  lockRun : Nat := 0
  lastDone : W64 := 0
  since : W64 := 0
  exch : Option Exchange := none
  regions : List Replica := List.replicate 16 {}
  dies : List Replica := List.replicate 4 {}
  deriving DecidableEq, Repr

/-! ## Host interface (chapter Host link) -/

/-- A command ring of a function (R74 to R77, R81): the parts that its registers do not show. `pending` completions wait for an
interrupt, and `oldest` is when the oldest of them was written; `unread` completions software has not consumed (R76);
`destroy` is a RING_DESTROY that waits for the drain. -/
structure Ring where
  fn : Nat
  idx : Nat
  sq : W64 := 0
  cq : W64 := 0
  phase : Bool := true
  pending : Nat := 0
  oldest : W64 := 0
  unread : Nat := 0
  discarded : Nat := 0
  destroy : Option Desc := none
  deriving DecidableEq, Repr

/-- A descriptor the engine has taken and not completed; `started` once its own row has run. -/
structure InFlight where
  desc : Desc
  started : Bool := false
  deriving DecidableEq, Repr

/-- The command engine: rings that exist, descriptors in flight (oldest first), IF_CLOSE commands that wait for
their function's rings, the function and the ring of each function served last (R76), and the functions reset and not opened
since, which issue no DMA (R78). -/
structure HostIf where
  rings : List Ring := []
  inflight : List InFlight := []
  closing : List Desc := []
  lastFn : Nat := 16
  lastRing : List (Nat × Nat) := []
  quiet : List Nat := []
  deriving DecidableEq, Repr

/-! ## Keep store and change journal (R85 to R90, R323 to R326) -/

/-- A keep-store record (R323): its header fields, the bank it lies in (false A, true B), its page of that bank, and its
payload. Superseded records stay until their bank reclaims their block. -/
structure KeepRec where
  typ : Nat
  key : W64
  seq : W64
  bank : Bool
  page : Nat
  payload : List Byte
  deriving DecidableEq, Repr

/-- A record waiting to be programmed. -/
structure KeepWrite where
  typ : Nat
  key : W64
  payload : List Byte
  deriving DecidableEq, Repr

/-- A journal entry before it has its SEQ (R85). `bed` is 0xFF for a device-wide object. -/
structure JEntry where
  kind : Nat
  originType : Nat
  bed : Nat
  originId : Nat
  refused : Bool := false
  detail : W32 := 0
  ft : W64 := 0
  object : W64 := 0
  old : W128 := 0
  new : W128 := 0
  deriving DecidableEq, Repr

/-- A change that takes effect once its records are durable (R88). `cmd` is the second half of a command: its
descriptor, the buffer it read and one number it worked out; `load` is that of a load, with the near memory taken for it when it
was accepted; `refuse` completes a command whose refusal is journalled;
`reg` is a journalled register write; `bundleLoad` applies a bundle whose pending record is durable and `bundleApply` ends it; `note` changes nothing by itself; `seq` orders two changes of one command. -/
inductive Effect where
  | note
  | cmd (d : Desc) (payload : List Byte) (aux : Nat)
  | load (d : Desc) (payload : List Byte) (near : List Nat) (area : Option Nat)
  | complete (d : Desc) (status : Nat) (result : W64)
  | reg (r : Reg) (mask value : W32)
  | linkCtl (r : Reg) (value : W32)
  | bundleLoad (d : Desc) (payload : List Byte)
  | bundleApply (d : Option Desc) (payload : List Byte)
  | zeroize (d : Option Desc)
  | shardDone (bed : Nat) (ckpt : W64)
  | manifestDone (bed : Nat)
  | bedRestart (bed : Nat)
  deriving DecidableEq, Repr

/-- Records that become durable together, the journal entries among them, and the effect that waits for them. -/
structure KeepItem where
  writes : List KeepWrite := []
  journal : List JEntry := []
  eff : Effect := .note
  deriving DecidableEq, Repr

/-- The keep store and its controller. `pages` are the next free page and the bytes used in the page being filled, of bank A
and of bank B; `lastBank` took the previous record. `jNewest` and `jHeld` give the journal's newest SEQ and the entries
held. -/
structure Keep where
  records : List KeepRec := []
  nextSeq : W64 := 1
  lastBank : Bool := true
  pages : (Nat × Nat) × (Nat × Nat) := ((0, 0), (0, 0))
  queue : List KeepItem := []
  jNewest : W32 := 0
  jHeld : Nat := 0
  ready : Bool := false
  deriving DecidableEq, Repr

/-! ## Memory -/

/-- A granule of a Bed's buffer space (R201, L0 entry): its address, its frame and DIRTY. -/
structure Granule where
  bed : Nat
  va : Nat
  pa : Nat
  dirty : Bool := false
  deriving DecidableEq, Repr

/-- What a plot serves (R203, R299). `object` is a holding that R299 counts and R203 gives no plot use: Grafts,
loadable tables, output contexts and prefix tables (log entry 12). -/
inductive PlotUse where
  | granules | frames (size : Nat) | tables | columns | object
  deriving DecidableEq, Repr

/-- A plot of 2 MiB held by a Bed (R203, R510): region, number 36 to 45,775, its use and the pieces taken in it
(offset in the plot, size). -/
structure Plot where
  region : Nat
  ix : Nat
  bed : Nat
  use : PlotUse
  taken : List (Nat × Nat) := []
  deriving DecidableEq, Repr

/-- Near memory by device physical address (R195), host memory by bus address, ring SRAM by function × 64 KiB + offset
(R64), and CXL window memory by port × 2^44 + window offset. `poison` lists poisoned 64-byte lines of near memory by
line number (R279). -/
structure Memory where
  near : List Host.Cell := []
  host : List Host.Cell := []
  sram : List Host.Cell := []
  poison : List Nat := []
  plots : List Plot := []
  granules : List Granule := []
  deriving DecidableEq, Repr

/-! ## Faults (chapter Fault collection and reaction) -/

/-- A fault record (R464); `bed` is 0xFF for none. -/
structure FaultRec where
  ft : W64 := 0
  cls : Nat := 0
  hubStamp : Bool := false
  escalated : Bool := false
  injected : Bool := false
  source : Nat := 0
  level : Nat := 0
  bed : Nat := 0xFF
  location : Nat := 0
  address : W64 := 0
  space : Nat := 0
  access : Nat := 0
  master : Nat := 0
  seq : W32 := 0
  jobId : W32 := 0
  sid : W64 := 0
  detail : W32 := 0
  repeats : Nat := 0
  deriving DecidableEq, Repr

/-- The fault collector: the log (oldest first), the next SEQ, fenced units, regions, ports (Plowald 0 to 7, CXL 8 to
11) and flash stacks, dies whose services are down, fatal Beds, the safe state, the highest class recorded, and which
first-error registers are armed. `recover` holds a recovery whose test runs: region or unit, and its command. -/
structure Faults where
  log : List FaultRec := []
  nextSeq : W32 := 1
  units : List Nat := []
  regions : List Nat := []
  ports : List Nat := []
  flashOff : List Nat := []
  dies : List Nat := []
  fatalBeds : List Nat := []
  safe : Bool := false
  classMax : Nat := 0
  armed : Bool := false
  armedBeds : List Nat := []
  unitTests : List (Nat × Option Desc) := []
  regionTests : List (Nat × Option Desc) := []
  deriving DecidableEq, Repr

/-! ## Sessions, ownership, home records (chapter Sessions) -/

/-- The home map held (R93): its fields and the 4,096 nodes. -/
structure HomeMap where
  version : W32
  renew : Nat
  lease : Nat
  guardFt : Nat
  tombstone : Nat
  nodes : List Nat
  table : List Byte := []
  deriving DecidableEq, Repr

/-- A change that waits for a session's next step boundary (R98, R104, R114, R138, R187). -/
inductive BoundaryOp where
  | pause (reason : Nat) (d : Desc)
  | park (tier : Tier) (d : Desc)
  | close (d : Option Desc)
  | move (node : Nat) (d : Desc)
  | cut (mode : Nat) (p : Nat) (t : W64) (d : Desc)
  | setLive
  deriving DecidableEq, Repr

/-- Why a session command waits, and since when (R105, R110, R117). -/
inductive SesWhy where
  | open | close | resume | move | query | homeNeeded | accept | revive
  deriving DecidableEq, Repr

/-- A session command that waits for its outcome. `d` is absent for a revival that input started. -/
structure SesWait where
  sid : W64
  why : SesWhy
  since : W64
  d : Option Desc
  path : Nat := 0
  deriving DecidableEq, Repr

/-- A CLOSE_NOTE or DROP_NOTE without an answer (R99). -/
structure Note where
  sid : W64
  bed : Nat
  close : Bool
  epoch : W32
  lastSent : W64
  deriving DecidableEq, Repr

/-- A transcript page as it stands in the flash (R316): where it lies (logical block × 1,536 + page), and its FIRST, token IDs,
NEXT, TAIL and APPLIED. -/
structure TrxPage where
  place : Nat
  first : Nat := 0
  toks : List W32 := []
  next : W64 := 0
  tail : W64 := 0
  applied : W64 := 0
  deriving DecidableEq, Repr

/-- A home's transcript copy of a session (R109, R316, R317): its tokens, those in the append log included, when the last
TRX_ACK was sent, and its pages, the head first. `due` is set when its records must be applied. -/
structure Transcript where
  sid : W64
  tokens : List W32 := []
  lastAck : W64 := 0
  pages : List TrxPage := []
  due : Bool := false
  deriving DecidableEq, Repr

/-- A revival in progress (R110): the tokens fetched so far, FT of the home's last TRX_ACK and of the CONFIRM; the
DELAY event is due before the first Furrow entry. -/
structure Revival where
  sid : W64
  ackFt : W64 := 0
  confirmFt : W64 := 0
  tokens : List W32 := []
  need : Nat := 0
  delayDue : Bool := true
  deriving DecidableEq, Repr

/-- A message that this node sent for a bucket it gave up (R94): a HOME_XFER with its record, a TRX_DATA with part of the record's
transcript copy (SID, position, token IDs), or a HOME_XFER_END; its message number, whether it was refused with MAP_MISMATCH, and
when it was last sent. -/
structure Xfer where
  bucket : Nat
  dest : Nat
  seq : W16
  entry : Option Entry
  toks : Option (W64 × Nat × List W32) := none
  refused : Bool := false
  lastSent : W64
  deriving DecidableEq, Repr

/-- Sessions. `entries` is the directory; `renewSent` gives, per home node, the message number and FT of the RENEWs
sent and not passed by an acknowledgement, `acked` FT of the latest acknowledged (Ts); `trxAcks` FT of the last TRX_ACK seen
for a session; `renewSeen` gives Tr per owner node; `xferOut` are the transfers of
buckets given up; `takeUp` are buckets awaited with the node that gives them and when the load completed; `lateTake` are buckets
taken up without an end (R94); `armed` are SIDs a Bed accepts; `seqOf` counts message numbers. -/
structure Sessions where
  entries : List Entry := []
  map : Option HomeMap := none
  homeSince : List (W64 × Nat) := []
  boundary : List (W64 × BoundaryOp) := []
  waits : List SesWait := []
  notes : List Note := []
  queries : List (W64 × W64) := []
  lastOwnMsg : List (W64 × W64) := []
  transcripts : List Transcript := []
  revivals : List Revival := []
  renewSent : List (Nat × W16 × W64) := []
  trxAcks : List (W64 × W64) := []
  acked : List (Nat × W64) := []
  renewSeen : List (Nat × W64) := []
  xferOut : List Xfer := []
  takeUp : List (Nat × Nat × W64) := []
  lateTake : List (Nat × W64) := []
  rebuildUntil : Option W64 := none
  armed : List (Nat × W64) := []
  msgSeq : W16 := 0
  deriving DecidableEq, Repr

end Sys2Proof.Machine
end

