-- ==== Sys2Proof/Machine/StateParts2.lean ====
section
/-! DEFINITION. The parts of the state of the step scheduler, the layer exchange and Grafts, KV pages, text intake,
sampling and Furrows, and the memory tiers. -/

namespace Sys2Proof.Machine

/-! ## Step scheduler and Trellis (R121 to R140) -/

/-- A model profile held by a Bed (R121): its 256 bytes and its next grid boundary (a SAMPLE), and for every region the
decode byte cost its owned sequences carried at the last boundary (R128). `lag` lists the regions that are behind, with the grid
boundary each still has to raise (R125). -/
structure Profile where
  bed : Nat
  id : Nat
  bytes : List Byte
  nextB : Nat
  cost : List (Nat × Nat) := []
  lag : List (Nat × Nat) := []
  deriving DecidableEq, Repr

/-- A Trellis slot (R126). `pend` holds the token IDs of the prefill positions waiting, so PENDING is its length;
`known` counts the leading ones that the transcript already holds (R218, R110); `lastM` is M at the last boundary; `job` is the JOB_ID that gave the session its client;
`finalLate` is a FINAL mark that arrived while the entry now in flight was; the `ch` fields are changes
that apply at the next boundary (R138, R187). -/
structure Slot where
  ix : Nat
  sid : W64
  profile : Nat
  bed : Nat
  region : Nat
  prio : Nat := 0
  turn : Bool := false
  held : Bool := false
  inFlight : Bool := false
  final : Bool := false
  finalLate : Bool := false
  client : Nat := 0
  job : W32 := 0
  treeNodes : Nat := 0
  graft : Option Nat := none
  graftVersion : W32 := 0
  position : Nat := 0
  pend : List W32 := []
  known : Nat := 0
  playEnd : W64 := 0
  lastStep : W64 := 0
  inputFt : W32 := 0
  holdCount : Nat := 0
  lateCount : Nat := 0
  furrow : Nat := 0
  lastM : Nat := 0
  noInputEvent : Bool := false
  chPrio : Option Nat := none
  chTree : Option Nat := none
  chClient : Option Nat := none
  chGraft : Option (Option Nat) := none
  deriving DecidableEq, Repr

/-- What a work-list entry does (R170, R134). -/
inductive EntryKind where
  | decode | chunk | finalChunk
  deriving DecidableEq, Repr

/-- An accepted part of a layer that is not yet returned (R174, R186): its vectors per position as they arrived, the
context and output delta once attention is done, and whether it waits for its layer of a stowed Graft or of a
restored image. -/
structure Part where
  layer : Nat
  first : Nat
  count : Nat
  sender : Nat
  q : List (List W16) := []
  k : List (List W16) := []
  v : List (List W16) := []
  x : List (List W16) := []
  ctx : List (List W32) := []
  delta : List (List W32) := []
  ready : Bool := false
  waits : Bool := false
  deriving DecidableEq, Repr

/-- A work-list entry in flight (R131, R170, R174, R185). `covered` counts the positions of layer `layer` accepted so
far, `returned` those returned; `lastMsg` is the latest event of R176. `sampling` from the LX_LOGITS with LAST;
`turn` is its turn in its die's sampling queue (R136);
`got` once an acceptable message arrived after `lastMsg`; `cluster` is the cluster of the region that runs the entry (R136,
free: log entry 31) and `range` the Bed's TRC_RANGE at the boundary (R481). -/
structure Work where
  slot : Nat
  sid : W64
  bed : Nat
  region : Nat
  profile : Nat
  kind : EntryKind
  step : W64
  base : Nat
  tree : Nat := 0
  toks : List PosRec
  graft : Option (Nat × W32) := none
  layer : Nat := 0
  covered : Nat := 0
  returned : Nat := 0
  parts : List Part := []
  logits : List LogitRec := []
  sampling : Bool := false
  done : Bool := false
  got : Bool := false
  cluster : Nat := 0
  range : Nat := 0
  turn : Nat := 0
  lastMsg : W64
  deriving DecidableEq, Repr

/-- The scheduler: profiles, slots in use, what a session without a slot keeps of one (its waiting input and its turn),
work in flight in admission order, and the turns given to sampling so far (R136). -/
structure Sched where
  profiles : List Profile := []
  slots : List Slot := []
  idle : List Slot := []
  work : List Work := []
  turns : Nat := 0
  deriving DecidableEq, Repr

/-! ## Grafts (R180 to R187) -/

/-- A held Graft version: its table, whether it is current, its tier, the tensor set that holds it when stowed, the
near memory it takes, the layers resident while it is brought back, and a stow that waits for its bindings. -/
structure Graft where
  bed : Nat
  id : Nat
  version : W32
  table : List Byte
  current : Bool := true
  tier : Nat := 0
  moving : Bool := false
  set : Option Nat := none
  near : List Nat := []
  resident : Nat := 0
  stow : Option (Nat × Desc) := none
  deriving DecidableEq, Repr

/-! ## KV pages (R193 to R224) -/

/-- A leaf entry of the page map (R200): layer, page, frame address, node index when SHARED, and the flags. -/
structure Leaf where
  layer : Nat
  page : Nat
  frame : Nat
  node : Nat := 0
  cow : Bool := false
  dirty : Bool := false
  shared : Bool := false
  sv : Bool := false
  deriving DecidableEq, Repr

/-- A copy of a sequence's KV in progress (R219): passes completed. -/
structure KvCopy where
  passes : Nat := 0
  complete : Bool := false
  deriving DecidableEq, Repr

/-- A sequence range and its page map (R194, R199): `tables` are the addresses of its page-map tables, `tokens` the
token IDs at its positions (the keys of R211 are over them), `runKey` the key of its last full page while its prefix
run is open, `recompute` the token IDs of the positions that Prune took (R218), `missed` the page whose lookup missed (R213), `pull`
the layers resident while a restored image is pulled in (R423). -/
structure Seq where
  bed : Nat
  sid : W64
  range : Nat
  region : Nat
  leaves : List Leaf := []
  tables : List Nat := []
  m3 : List (Nat × Nat) := []
  tokens : List W32 := []
  share : Bool := true
  salt : W64 := 0
  recompute : List W32 := []
  runOpen : Bool := true
  rootKey : W128 := 0
  runKey : W128 := 0
  missed : Option Nat := none
  copy : Option KvCopy := none
  lastSpread : Nat := 0
  pull : Option Nat := none
  deriving DecidableEq, Repr

/-- A prefix node (R212). `frames` is the column: one frame and SV per layer. -/
structure PfxNode where
  bed : Nat
  ix : Nat
  key : W128
  refs : Nat
  lastUse : W64
  layers : Nat
  column : Nat
  frames : List (Nat × Bool)
  parent : W128
  deriving DecidableEq, Repr

/-- A snapshot of a sequence (R220): its page map, with the output context beside it. -/
structure Snapshot where
  seq : Seq
  position : Nat
  ctx : Option OutCtx := none
  deriving DecidableEq, Repr

/-- What a region's walker holds in its caches (R205), by what each entry translates: M0 tables (Bed, range, page number / 64),
interior entries (Bed, range, level, table), range-table entries (Bed, range) and buffer-space translations (Bed, granule). Their
contents are those of the tables, with which the caches stay coherent (R202). -/
structure Walker where
  m0 : List (Nat × Nat × Nat) := []
  interior : List (Nat × Nat × Nat × Nat) := []
  ranges : List (Nat × Nat) := []
  buffers : List (Nat × Nat) := []
  deriving DecidableEq, Repr

/-- KV pages: sequences with a range, prefix nodes, snapshots, Beds whose prefix table is held with its buckets'
near memory, and the walker caches of the 16 regions. -/
structure Kv where
  seqs : List Seq := []
  nodes : List PfxNode := []
  snaps : List Snapshot := []
  pfxOn : List (Nat × List Nat) := []
  walkers : List Walker := List.replicate 16 {}
  deriving DecidableEq, Repr

/-! ## Loadable tables and intake (R225 to R250) -/

/-- A loadable table version held by a Bed: kind 1 vocabulary, 2 merge table, 3 normalisation, 4 grammar (R244), its
bytes, whether it is current, and the near memory it takes. -/
structure Table where
  bed : Nat
  kind : Nat
  id : Nat
  version : W32
  bytes : List Byte
  current : Bool := true
  near : List Nat := []
  deriving DecidableEq, Repr

/-- A unit of the text stream: a character or an ill-formed byte (R232). -/
inductive CharUnit where
  | cp (c : Nat)
  | bad (b : Byte)
  deriving DecidableEq, Repr

/-- The carry of an intake stream (R236): the incomplete UTF-8 prefix, the normalisation segment, the open piece; and
the table versions bound (R245). `ctx` when it holds an intake context of its die (R237). -/
structure Stream where
  bed : Nat
  sid : W64
  die : Nat
  prefix8 : List Byte := []
  segment : List CharUnit := []
  piece : List CharUnit := []
  bound : List (Nat × Nat × W32) := []
  ctx : Bool := false
  deriving DecidableEq, Repr

/-- An IN_SUBMIT that is not yet appended (R235, R239, R241): the records left, the text record being tokenized (its bytes
left and whether a flush ends it), the positions formed so far, and the working copy of the session's stream. `begun`
once the session's region is known and processing has started; `took` once a text record of it left carry (R237); `turn` is
its turn in the tokenizer queue of its die (R136); `src` is the buffer as it was read, from which it starts again when a flush
comes between its chunks (R238). -/
structure Submit where
  d : Desc
  sid : W64
  records : List Byte
  src : List Byte := records
  begun : Bool := false
  text : Option (List Byte × Bool) := none
  toks : List W32 := []
  final : Bool := false
  ill : Nat := 0
  nText : Nat := 0
  nAudio : Nat := 0
  nPass : Nat := 0
  stream : Option Stream := none
  took : Bool := false
  turn : Nat := 0
  deriving DecidableEq, Repr

/-- An entry of a die's merge cache or of its character cache (R241): the slot of a table that it holds, tagged by Bed, table
and version. `kind` is 1 for a character map and 2 for a merge table; `set` is its set. -/
structure CacheLine where
  die : Nat
  kind : Nat
  set : Nat
  bed : Nat
  id : Nat
  version : W32
  slot : Nat
  deriving DecidableEq, Repr

/-- Intake: tables, streams, submissions not yet appended, the turns given to chunks so far, and the caches of the dies, most
recently used first. -/
structure Intake where
  tables : List Table := []
  streams : List Stream := []
  submits : List Submit := []
  turns : Nat := 0
  caches : List CacheLine := []
  deriving DecidableEq, Repr

/-! ## Sampling and Furrows (R251 to R275) -/

/-- A Furrow (R266): its ring, and its interrupt state as R81. `used` counts the entries written and not returned. -/
structure Furrow where
  num : Nat
  bed : Nat
  log2 : Nat
  base : W64
  vector : Nat
  count : Nat
  delay : Nat
  head : Nat := 0
  tail : Nat := 0
  used : Nat := 0
  phase : Bool := true
  pending : Nat := 0
  oldest : W64 := 0
  deriving DecidableEq, Repr

/-- What the transcript header of a session keeps of its sampling (R251): the controls and the stop strings last set. -/
structure SavedCtl where
  sid : W64
  ctl : Controls
  stops : List (List Byte) := []
  deriving DecidableEq, Repr

/-- Sampling: output contexts, Furrows, and the values that revival takes back. -/
structure Smp where
  ctxs : List OutCtx := []
  furrows : List Furrow := []
  saved : List SavedCtl := []
  deriving DecidableEq, Repr

/-! ## Memory tiers (R276 to R304) -/

/-- The STATE of a tensor set (R287). -/
inductive SetState where
  | free | filling | complete | lost | backing
  deriving DecidableEq, Repr

/-- A tensor-set entry in use or used before (R287): `gen` survives FREE. `runs` are its runs: port, window offset,
length. What the image holds (R289) stands in `shape` (LAYERS,
KV_FORMAT, PAGE_BYTES of the header), `position`, `seq` (page map), `ctx` (the output context), `pages` (layer,
page, SV, frame bytes) or, for a Graft version, `bytes` (its table). -/
structure TensorSet where
  ix : Nat
  state : SetState := .free
  kind : Nat := 0
  tier : Nat := 1
  bed : Nat := 0
  gen : Nat := 0
  drain : Bool := false
  owner : W64 := 0
  length : Nat := 0
  runs : List (Nat × Nat × Nat) := []
  mulch : W64 := 0
  expiry : Nat := 0
  shape : Nat × Nat × Nat := (0, 0, 0)
  position : Nat := 0
  seq : Option Seq := none
  ctx : Option OutCtx := none
  pages : List (Nat × Nat × Bool × List Byte) := []
  bytes : List Byte := []
  deriving DecidableEq, Repr

/-- What a move carries (R290, R104): a session, a version of a Graft, a handoff, or a set that an orderly release moves. -/
inductive MoveWhat where
  | session (sid : W64)
  | graft (bed id : Nat) (version : W32)
  | handoff (sid : W64) (node : Nat)
  | relocate (set : Nat)
  deriving DecidableEq, Repr

/-- A queued or running move: class 1 to 4 (R290), direction, source and destination sets, pieces done and admitted,
the command that waits, whether it writes a backing back, and whether a later pass of its copy is admitted (R291). -/
structure Move where
  ix : Nat
  what : MoveWhat
  cls : Nat
  bed : Nat
  region : Nat
  fromTier : Nat
  toTier : Nat
  src : Option Nat := none
  dst : Option Nat := none
  pieces : Nat
  doneP : Nat := 0
  admitted : Nat := 0
  writeBack : Bool := false
  pass : Bool := false
  failed : Bool := false
  waiting : Bool := false
  d : Option Desc := none
  deriving DecidableEq, Repr

/-- The state of a Dynamic Capacity extent (R295). -/
inductive ExtState where
  | free | active | draining
  deriving DecidableEq, Repr

/-- An extent: port, index 0 to 63, window offset and length in bytes, owner Bed or 0xFF, the release that waits. -/
structure Extent where
  port : Nat
  ix : Nat
  off : Nat
  len : Nat
  owner : Nat
  state : ExtState
  d : Option Desc := none
  relocated : Nat := 0
  deriving DecidableEq, Repr

/-- The sparing state of a stack (R280). -/
inductive SpareState where
  | none | copying | done
  deriving DecidableEq, Repr

/-- A stack's sparing, Rake position and the per-pass start (R280, R282): the pointer is a stripe number. -/
structure Stack where
  spare : SpareState := .none
  die : Nat := 0
  ptr : Nat := 0
  rake : Nat := 0
  deriving DecidableEq, Repr

/-- A CXL.io access in progress (R303). -/
structure CxlIo where
  port : Nat
  op : Nat
  addr : W64
  data : W32
  be : Nat
  deriving DecidableEq, Repr

/-- The tiers. `cxlRake` is the next image block of each port's Rake. -/
structure Tiers where
  sets : List TensorSet := []
  moves : List Move := []
  nextMove : Nat := 0
  extents : List Extent := []
  hbm : List Stack := List.replicate 16 {}
  io : List CxlIo := []
  cxlRake : List Nat := List.replicate 4 0
  deriving DecidableEq, Repr

end Sys2Proof.Machine
end

