-- ==== Sys2Proof/Machine/StateParts3.lean ====
section
/-! DEFINITION. The parts of the state of the flash parking tier (R305 to R330) and of observation (R474 to R490). -/

namespace Sys2Proof.Machine

/-- The kind of a mapped logical block (R312). -/
inductive BlockKind where
  | image | record | kept
  deriving DecidableEq, Repr

/-- A block map entry (R313) of a mapped logical block `lb` (its number in the whole Mulch, R310), with its log page map
(R315): the logical page that each page written in its log block holds; `logFt` is when that was last written. -/
structure LBlock where
  lb : Nat
  kind : BlockKind
  fill : Nat := 0
  phys : Nat
  log : Option Nat := none
  logMap : List Nat := []
  logFt : W64 := 0
  deriving DecidableEq, Repr

/-- A release whose physical blocks are not all erased (R322). -/
structure Release where
  bed : Option Nat
  left : List Nat
  erased : Nat := 0
  ix : Nat
  started : W64
  deriving DecidableEq, Repr

/-- Why a Compost copy runs (R325 intent OP). -/
inductive CopyOp where
  | merge | wear | refresh | discard
  deriving DecidableEq, Repr

/-- A Compost copy in progress (R319): D, MOVE, and the blocks it will erase. -/
structure FlashCopy where
  lb : Nat
  op : CopyOp
  move : Nat
  dest : Nat
  oldData : Option Nat
  oldLog : Option Nat
  pages : Nat
  deriving DecidableEq, Repr

/-- An append record waiting for its page (R317): the message and when it arrived. -/
structure AppendRec where
  msg : OwnMsg
  at_ : W64
  deriving DecidableEq, Repr

/-- An append record in the append log (R317): its block of the 64, the WSEQ of its page, and the message. -/
structure AppRec where
  block : Nat
  wseq : W64
  msg : OwnMsg
  deriving DecidableEq, Repr

/-- Pages programmed together, with their metadata (R314): `count` pages of a physical block from `page` on, which hold the logical
pages from `lpage` on, with consecutive WSEQs. -/
structure PageRun where
  phys : Nat
  page : Nat
  count : Nat := 1
  lblock : Nat := 0
  lpage : Nat := 0
  kind : Nat
  wseq : W64 := 0
  move : Nat := 0
  deriving DecidableEq, Repr

/-- A flash controller and its stack. `erases` and `reads` list the counts of physical blocks that are not zero; `stale`
are blocks released and not erased; `append` is the append page being filled, `appHead` the append-log block and page it
goes to, and `appLog` the append log's records, the oldest first. `prog` are the pages programmed and not erased, with their
metadata (R314); `unc` the uncorrectable page reads of each block (R309); `subst` the blocks that took the roles of fixed system
blocks. `merging` holds while merges run up to
FL_LOG_WATER.HIGH, `tight` while forced work alone runs (R318); `refresh` and `moveOut` are logical blocks that must move
(R321, R322); `bad` are logical blocks with an uncorrectable page (R321). `spares` are spare blocks with the pool whose role
they took (R309). -/
structure Flash where
  map : List LBlock := []
  erases : List (Nat × Nat) := []
  reads : List (Nat × Nat) := []
  retired : List Nat := []
  spares : List (Nat × Nat) := []
  lostLogical : Nat := 0
  stale : List Nat := []
  append : List AppendRec := []
  releases : List Release := []
  copy : Option FlashCopy := none
  nextMove : Nat := 1
  wseq : W64 := 1
  rake : Nat := 0
  appHead : Nat × Nat := (0, 0)
  appLog : List AppRec := []
  prog : List PageRun := []
  unc : List (Nat × Nat) := []
  subst : List (Nat × Nat) := []
  merging : Bool := false
  tight : Bool := false
  refresh : List Nat := []
  moveOut : List Nat := []
  bad : List Nat := []
  deriving DecidableEq, Repr

/-- An FL_DISCARD_SYNC that waits for the releases begun before it. -/
structure DiscardSync where
  d : Desc
  waitsFor : List (Nat × Nat)
  erased : Nat := 0
  deriving DecidableEq, Repr

/-- The flash tier. -/
structure FlashTier where
  ctl : List Flash := List.replicate 8 {}
  syncs : List DiscardSync := []
  nextRelease : Nat := 0
  deriving DecidableEq, Repr

/-! ## Traces (R479 to R486) -/

/-- A staged trace record (R479): its stamp, its 32 bytes, and the functions whose rings it goes to. -/
structure TraceRec where
  ft : W64
  rings : List Nat
  bytes : List Byte
  deriving DecidableEq, Repr

/-- The records of a ring that were lost and not reported by a LOST record yet: how many, and the FT of the first. -/
structure TraceLost where
  fn : Nat
  count : Nat
  first : W64
  deriving DecidableEq, Repr

/-- Observation: the five staging buffers (dies 0 to 3, then the hub), the losses to report, and the records in each ring
that software has not consumed. -/
structure Obs where
  staging : List (List TraceRec) := List.replicate 5 []
  lost : List TraceLost := []
  used : List (Nat × Nat) := []
  deriving DecidableEq, Repr

end Sys2Proof.Machine
end

