-- ==== Sys2Proof/Machine/StateParts4.lean ====
section
/-! DEFINITION. The part of the state of Plowald Link (R351 to R383). -/

namespace Sys2Proof.Machine

/-- A message at its port (R358, R371): what its segments carry, the segments sent and the Frame Time at which it was
queued. `len` are the message bytes before encryption. -/
structure EgMsg where
  typ : Nat
  vc : Nat
  dest : Nat
  bed : Option Nat
  msgId : W32
  flow : Nat
  key : Option W32
  len : Nat
  queued : W64
  next : Nat := 0
  sent : Nat := 0
  deriving DecidableEq, Repr

/-- A frame in the replay buffer (R366): its LSEQ, its bytes (R356), and the message it belongs to (its key and MSG_ID). -/
structure TxFrame where
  lseq : Nat
  vc : Nat
  msgId : W32
  bytes : Nat
  key : Option W32 := none
  deriving DecidableEq, Repr

/-- A reassembly context (R358): the message it receives, the segment expected and when the last one came. `drop` drops what
is still to come. -/
structure RxCtx where
  src : Nat
  typ : Nat
  vc : Nat
  msgId : W32
  flow : Nat
  key : W32
  msgLen : Nat
  next : Nat
  got : Nat
  last : W64
  drop : Bool := false
  deriving DecidableEq, Repr

/-- What a port says of itself in a link-control block (R364): NAK, SEQ and the credits returned of VC 0 to 7. -/
structure LinkCtl where
  nak : Bool
  seq : Nat
  returned : List Nat
  deriving DecidableEq, Repr

/-- A Plowald port. `since` is when its state was entered; `lanes` are the lanes that have lock, `agreed` the LANES of the
partner's train block (R361). `queues` are the egress
queues of VC 0 to 7. `credits` are those left to send, `seen` the RETURNED counts last received, `returned` those this end
sends. `txSeq` numbers the next frame, `rxSeq` is the LSEQ expected; `replayAt` is the LSEQ of the next frame to replay,
`replays` counts consecutive replays that start at `replayFrom`. `turn` is the VC of 3 to 6 whose turn is next. Token
buckets hold units of 1/(6 × 2^24) byte and were last filled at `filled`. `nakDue` and `ctlDue` ask for a link-control
block; `lastCtl` is the last one sent. -/
structure Port where
  since : W64 := 0
  lanes : Nat := 0
  agreed : Nat := 0
  queues : List (List EgMsg) := List.replicate 8 []
  credits : List Nat := List.replicate 8 0
  seen : List Nat := List.replicate 8 0
  returned : List Nat := List.replicate 8 0
  txSeq : Nat := 0
  rxSeq : Nat := 0
  replay : List TxFrame := []
  replayAt : Option Nat := none
  replays : Nat := 0
  replayFrom : Nat := 0
  turn : Nat := 3
  shape : List Int := List.replicate 8 0
  police : List Int := List.replicate 8 0
  filled : W64 := 0
  ctxs : List RxCtx := []
  nakDue : Bool := false
  ctlDue : Bool := false
  lastCtl : Option LinkCtl := none
  sampled : W64 := 0
  deriving DecidableEq, Repr

/-- A job-key slot (R370): its number, KEY_ID, key, owner (a Bed, or the device), whether it is in SEND, its send counter, and for
each SRC the highest MSG_ID accepted and those accepted in the window below it (R374). -/
structure KeySlot where
  ix : Nat
  keyId : W32
  key : List Byte := []
  owner : Option Nat
  send : Bool := false
  ctr : W32 := 0
  windows : List (Nat × Nat × List Nat) := []
  deriving DecidableEq, Repr

/-- A handoff copy being sent (R379): the bytes of the image and of the transcript, the next place to send from and the
place acknowledged (object, offset), when the last advancing acknowledgement came and when the sender last resent. -/
structure ImgTx where
  sid : W64
  epoch : W32
  dest : Nat
  bed : Nat
  image : Nat
  trx : Nat
  cur : Nat × Nat := (0, 0)
  ack : Nat × Nat := (0, 0)
  advanced : W64
  resent : W64
  gone : Bool := false
  deriving DecidableEq, Repr

/-- A handoff copy being received (R379): the bytes of each object received in order, their totals, and what was received. -/
structure ImgRx where
  sid : W64
  epoch : W32
  image : Nat := 0
  trx : Nat := 0
  imageTotal : Option Nat := none
  trxTotal : Option Nat := none
  ctx : Option OutCtx := none
  pages : List (Nat × Nat × Bool × List Byte) := []
  toks : List W32 := []
  claimed : Bool := false
  claimFt : W64 := 0
  deriving DecidableEq, Repr

/-- Plowald Link: its ports, its key slots, the clear-message counter, and handoff copies. -/
structure Plw where
  ports : List Port := List.replicate 8 {}
  slots : List KeySlot := []
  clearId : W32 := 0
  tx : List ImgTx := []
  rx : List ImgRx := []
  deriving DecidableEq, Repr

/-! ## Security (R426 to R456) -/

/-- An IDE stream of the host link (R446): 0 the link stream, 1 to 4 selective ones; whether it is secure, and the functions of the
TDIs bound to it. -/
structure IdeStream where
  ix : Nat
  secure : Bool := true
  bound : List Nat := []
  deriving DecidableEq, Repr

/-- The chain of a Bed's loads since its partition reset (R449): its value and the entries it counts. -/
structure LoadChain where
  bed : Nat
  chain : List Byte
  count : Nat := 0
  deriving DecidableEq, Repr

/-- A transition in progress (R450): the Beds in transition, whether the bundle and the security state are too, and the digests
being applied; the bundle being applied, the bundle and the digest of the security state in effect before, and whether it is a
zeroisation. -/
structure SecTrans where
  beds : List Nat
  device : Bool := false
  bundle : List Byte := []
  state : List Byte := []
  next : List Byte := []
  wasBundle : List Byte := []
  wasState : List Byte := []
  zero : Bool := false
  deriving DecidableEq, Repr

/-- The root of trust and the keys. `kwk` are the key-wrapping keys of Beds, and of the device under 0xFF; `park` the holders
of a park key, `near` the Beds whose near key the engines hold; `devNear` is the device near key. `owner` is the owner key
(modulus, then exponent), `policy` POLICY; `bundle` and `nextBundle` are the current and the pending bundle; `unsealed` holds
once the sealed keys can be used. `gens` counts near-key generations, `seed` the seal seeds made. `nonce` is the unused zeroisation
nonce and when it was issued; `zeroizing` the command that waits for the releases of a zeroisation, by release number. `answer`
is the last response of the SPDM responder or of the out-of-band endpoint. -/
structure Sec where
  kwk : List (Nat × List Byte) := []
  park : List Nat := []
  near : List Nat := []
  devNear : Bool := false
  owner : Option (List Byte) := none
  policy : Nat := 0
  bundle : List Byte := []
  nextBundle : List Byte := []
  changed : List (Nat × Nat) := []
  unsealed : Bool := false
  gens : List (Nat × Nat) := []
  seed : Nat := 1
  nonce : Option (List Byte × W64) := none
  chains : List LoadChain := []
  ide : List IdeStream := []
  spdm : Bool := false
  trans : Option SecTrans := none
  zeroizing : Option (Option Desc × List Nat) := none
  answer : List Byte := []
  deriving DecidableEq, Repr

/-! ## Package, power and bring-up (R491 to R507) -/

/-- What VIN says of power (R495): off, power-on reset held after VIN rose, on, or within the hold-up of a power loss. -/
inductive Supply where
  | off | ramp | on
  deriving DecidableEq, Repr

/-- The package: its supply, whether DEV_RESET_N is low and a reset is awaited, whether PERST_N is low, whether the host link is
up, the sensors at or above their warning (class, sensor) and the strap value sampled (R494). -/
structure Power where
  supply : Supply := .on
  devReset : Bool := false
  perst : Bool := false
  hostUp : Bool := false
  warned : List (Nat × Nat) := []
  strap : Nat := 0
  deriving DecidableEq, Repr

end Sys2Proof.Machine
end

