-- ==== Sys2Proof/Machine/StateParts5.lean ====
section
/-! DEFINITION. The part of the state of agent memory search (R331 to R350). -/

namespace Sys2Proof.Machine

/-- An index of a Bed (R331, R338): its deletion sequence DSEQ, its deletion set as (KEY, sequence), the nodes that VS_SHARE
lists, and the area that its deletion set takes. -/
structure VsIndex where
  bed : Nat
  id : Nat
  dseq : W32 := 0
  dels : List (W64 × W32) := []
  share : List Nat := []
  area : Nat
  deriving DecidableEq, Repr

/-- A held version of an index: its table and the plots that hold it, in order. `num` is the model's own number of it, by which a query
names the version that it bound. -/
structure VsVersion where
  num : Nat := 0
  bed : Nat
  id : Nat
  version : W32
  table : List Byte
  current : Bool := true
  near : List Nat := []
  deriving DecidableEq, Repr

/-- What a walk or an answer of a remote node returned (R347): FLAGS, the visits and the matches as (KEY, DISTANCE). -/
structure VsResult where
  flags : Nat := 0
  visits : Nat := 0
  poison : Bool := false
  found : List (W64 × W32) := []
  deriving DecidableEq, Repr

/-- A query in flight (R341, R345): the model's number of it; its command, or the node, REQ_ID and SHARD_NAME that asked; the
version and the deletion sequence bound; its walker; the query record and its vector as FP32; the remote nodes with the REQ_ID
sent; their answers (place, result; none for a refusal), and its own walk once ended. -/
structure VsQuery where
  ix : Nat
  d : Option Desc := none
  asker : Option (Nat × W16 × W32) := none
  bed : Nat
  id : Nat
  version : W32
  num : Nat := 0
  dseq : W32
  die : Nat
  walker : Nat
  rec64 : List Byte
  vec : List W32
  started : W64
  remotes : List (Nat × W16) := []
  answers : List (Nat × Option VsResult) := []
  walk : Option VsResult := none
  timedOut : Bool := false
  deriving DecidableEq, Repr

/-- Search. -/
structure Search where
  indexes : List VsIndex := []
  versions : List VsVersion := []
  queries : List VsQuery := []
  nextQuery : Nat := 0
  nextVersion : Nat := 1
  nextReq : W16 := 0
  deriving DecidableEq, Repr

/-! ## Exported memory (R384 to R403) -/

/-- Who made a request of an export's queue: a node by a message, or the Bed's function by a command. -/
inductive ExpWho where
  | node
  | fn (d : Desc)
  deriving DecidableEq, Repr

/-- A request accepted by an export and not answered (R386, R389). `range` is the published range that an MR_PUB_READ bound
(offset, length, version). -/
structure ExpReq where
  who : ExpWho := .node
  typ : MrType
  m : MrMsg
  range : Option (Nat × Nat × W32) := none
  deriving DecidableEq, Repr

/-- A recall without an answer (R392): its REQ_ID, the holder, its first line and how many, when it was sent, and the lines that
a writeback has returned since. -/
structure Recall where
  id : W32
  node : Nat
  line : Nat
  count : Nat
  since : W64
  back : List Nat := []
  deriving DecidableEq, Repr

/-- An export (R384, R386): its place and generation, range, mode and importers, its serving region, the lines HELD (line of
the export, node), the plots of its line directory, the nodes lost, the requests accepted, the recalls sent, the lines kept
HELD until a writeback that crossed a recall arrives, and the EXP_REVOKE that waits: once `point` is set with the lines it
poisoned. `revokes` are further EXP_REVOKE commands for it that wait too. -/
structure Export where
  bed : Nat
  ix : Nat
  gen : Nat
  start : Nat
  len : Nat
  mode : Nat
  importers : List Nat
  region : Nat
  held : List (Nat × Nat) := []
  dir : List Nat := []
  lost : List Nat := []
  queue : List ExpReq := []
  recalls : List Recall := []
  crossed : List Nat := []
  revoke : Option Desc := none
  revokes : List Desc := []
  poisoned : Nat := 0
  point : Bool := false
  deriving DecidableEq, Repr

/-- A published name (R398): its export and range, version and digest. -/
structure PubName where
  bed : Nat
  name : W32
  ix : Nat
  offset : Nat
  length : Nat
  version : W32
  digest : W128
  deriving DecidableEq, Repr

/-- A piece of a remote MEM_COPY: its offset, its length and whether the local line it carries is poisoned. -/
structure CopyPiece where
  off : Nat
  len : Nat
  poison : Bool
  deriving DecidableEq, Repr

/-- A MEM_COPY with a remote side (R397): the pieces not issued, and those without a response with REQ_ID and when sent. -/
structure RemoteCopy where
  d : Desc
  bed : Nat
  left : List CopyPiece
  out : List (W32 × CopyPiece × W64) := []
  copied : Nat := 0
  poison : Bool := false
  deriving DecidableEq, Repr

/-- A range with a placement hint (R401); `turn` counts the granules placed under HOT. -/
structure MemHint where
  bed : Nat
  start : Nat
  len : Nat
  hint : Nat
  turn : Nat := 0
  deriving DecidableEq, Repr

/-- Exported memory. `gens` gives the generation that an index used last; `busy` are names with a change that is not durable
yet; `migrate` are granules to move (Bed, address, target regions). -/
structure Exports where
  exports : List Export := []
  gens : List ((Nat × Nat) × Nat) := []
  names : List PubName := []
  busy : List (Nat × W32) := []
  copies : List RemoteCopy := []
  hints : List MemHint := []
  migrate : List (Nat × Nat × List Nat) := []
  nextReq : W32 := 0
  deriving DecidableEq, Repr

end Sys2Proof.Machine
end

