-- ==== Sys2Proof/Machine/StateParts6.lean ====
section
/-! DEFINITION. The part of the state of checkpoint, restore and elasticity (R404 to R426). -/

namespace Sys2Proof.Machine

/-- An armed Bed (R404): job, coordinator, job profile, destination, orchestrator, the CK_ARM that armed it (it names the host
buffer), and on the coordinator the participants (node, Bed). -/
structure CkArm where
  bed : Nat
  job : W32
  coord : Nat
  profile : Nat
  dest : Nat
  orch : Nat
  d : Desc
  parts : List (Nat × Nat) := []
  deriving DecidableEq, Repr

/-- An image as its set held it at CUT (R413). -/
structure CkImage where
  ctx : Option OutCtx
  pages : List (Nat × Nat × Bool × List Byte)
  deriving DecidableEq, Repr

/-- A covered session (R409): its owner entry at CUT, whether its KV is captured from near memory (a snapshot) or its image was
copied from its set, its turn, its Graft version, its home, and its transcript: `got` while it is fetched, `trx` once it is
here. `resolved` when nothing more is awaited from the home. -/
structure CkSes where
  entry : Entry
  captured : Bool
  image : Option CkImage := none
  turn : Bool := false
  graftV : W32 := 0
  home : Nat := 0
  asked : Bool := false
  got : List W32 := []
  trx : Option (List W32) := none
  resolved : Bool := false
  deriving DecidableEq, Repr

/-- A Bed's part in a checkpoint (R408 to R418). `phase` is that of CK_STATE; `key` is the Bed's send key at CUT; `entry` is
its manifest entry once the shard is written, `storing` while its record is not durable. -/
structure CkPart where
  bed : Nat
  ckpt : W64
  job : W32
  cut : W64
  deadline : W64
  evict : Bool
  coord : Nat
  phase : Nat := 1
  mapVersion : W32 := 0
  key : Option (W32 × List Byte) := none
  sessions : List CkSes := []
  profiles : List (List Byte) := []
  grafts : List (Nat × W32 × List Byte) := []
  length : Nat := 0
  entry : List Byte := []
  storing : Bool := false
  deriving DecidableEq, Repr

/-- A checkpoint at its coordinator: its attempt, the nodes whose CK_READY came, the manifest entries received, the CK_START
commands that started or joined it, and the manifest while it is being stored. -/
structure CkRound where
  bed : Nat
  ckpt : W64
  cut : W64
  deadline : W64
  evict : Bool
  attempt : Nat := 1
  readies : List Nat := []
  dones : List (List Byte) := []
  starts : List Desc := []
  manifest : Option (List Byte) := none
  deriving DecidableEq, Repr

/-- A stored shard or manifest (R414, R417): its place (0 Mulch, 1 CXL), its tensor set, what
LOCATION says of it (its Mulch address, or the handle of the set it was stored in), its bytes. -/
structure CkStored where
  bed : Nat
  ckpt : W64
  manifest : Bool
  place : Nat
  set : Option Nat
  addr : W64 := 0
  bytes : List Byte
  deriving DecidableEq, Repr

/-- A shard being sent (R407, R379): the next offset, the offset acknowledged, the last advance and the last resend. -/
structure CkTx where
  dest : Nat
  ckpt : W64
  bed : Nat
  cur : Nat
  ack : Nat
  ended : Bool := false
  advanced : W64
  resent : W64
  deriving DecidableEq, Repr

/-- A CK_RESTORE that reads its shards (R419): items (manifest entry, source, node, host address), the shards read so far in
order (none: unreadable), and the bytes received of the remote one being fetched; then the Graft tables that check 6 has still to
load, and the Grafts that loaded. -/
structure CkRestore where
  bed : Nat
  d : Desc
  manifest : List Byte
  items : List (Nat × Nat × Nat × W64)
  got : List (Option (List Byte)) := []
  rx : List Byte := []
  grafts : Option (List (List Byte)) := none
  loaded : List (Nat × W32) := []
  deriving DecidableEq, Repr

/-- A staged session (R412, R421): what its index entry says, its image and its transcript. -/
structure CkStSes where
  sid : W64
  epoch : W32
  profile : Nat
  graft : Option Nat
  graftV : W32 := 0
  furrow : Nat
  position : Nat
  turn : Bool := false
  image : List Byte := []
  trx : Option (List W32) := none
  deriving DecidableEq, Repr

/-- A claim of a staged restore that waits for its home (R422). -/
structure CkClaim where
  sid : W64
  rebuild : Bool := false
  since : W64
  deriving DecidableEq, Repr

/-- A staged restore (R421, R422): the sessions still staged, and once committed its command, default Furrow, the claim in
progress, and the counts. -/
structure CkStaged where
  bed : Nat
  since : W64
  sessions : List CkStSes
  commit : Option (Desc × Nat) := none
  claim : Option CkClaim := none
  claimed : Nat := 0
  refused : Nat := 0
  deriving DecidableEq, Repr

/-- A CK_REGROUP that waits for its boundary (R424): the SAMPLE of B, its mode, the four register values of the group. -/
structure CkRegroup where
  bed : Nat
  group : Nat
  at_ : Nat
  mode : Nat
  values : List Nat
  deriving DecidableEq, Repr

/-- An old partner group that entries admitted before `before` still use (R424). -/
structure CkOldGroup where
  bed : Nat
  group : Nat
  before : W64
  values : List Nat
  deriving DecidableEq, Repr

/-- Checkpoint. `pulls` are the images of claimed sessions that are not resident whole (R423); `equal` are the token IDs to
which a home's transcript is made equal, `fetches` the claimed sessions whose transcript comes from the home, with the tokens
received (R422). -/
structure Ck where
  arms : List CkArm := []
  parts : List CkPart := []
  rounds : List CkRound := []
  stored : List CkStored := []
  txs : List CkTx := []
  restores : List CkRestore := []
  staged : List CkStaged := []
  pulls : List CkStSes := []
  equal : List (W64 × List W32) := []
  fetches : List (W64 × Nat × List W32) := []
  regroups : List CkRegroup := []
  olds : List CkOldGroup := []
  deriving DecidableEq, Repr

end Sys2Proof.Machine
end

