-- ==== Sys2Proof/Machine/State.lean ====
section
/-! DEFINITION. `State`, `Fault`, `Refusal` and `State.reset`. -/

namespace Sys2Proof.Machine

/-- The state of the block. Each field is one chapter's part (Machine/StateParts*.lean). `regs` lists the registers whose
value differs from their reset value. `toSend` holds messages formed and not yet queued at a port. `freeCtr` is the
model's own: it counts the free values drawn (log entry 1). `pending` is the queue of commands. -/
structure State where
  regs : List (Reg × W32) := []
  bus : Bus := {}
  time : FrameTime := {}
  host : HostIf := {}
  keep : Keep := {}
  mem : Memory := {}
  flt : Faults := {}
  ses : Sessions := {}
  sch : Sched := {}
  grafts : List Graft := []
  kv : Kv := {}
  intake : Intake := {}
  smp : Smp := {}
  tiers : Tiers := {}
  flash : FlashTier := {}
  obs : Obs := {}
  vs : Search := {}
  exp : Exports := {}
  ck : Ck := {}
  plw : Plw := {}
  sec : Sec := {}
  pow : Power := {}
  toSend : List OutMsg := []
  freeCtr : Nat := 0
  pending : List Instr := []
  deriving DecidableEq, Repr

/-- Why the block stops. No command of this model ends in one of these on a path that the spec gives an effect. -/
inductive Fault where
  /-- Raised by nothing on a path the spec describes; kept so that `step` has a name for a stuck block. Safe. -/
  | stuck (rule : Nat)
  deriving DecidableEq, Repr

/-- Why the model refuses a command. -/
inductive Refusal where
  /-- Raised by an arm of `exec` whose meaning is not written yet. Safe: nothing can be proved about such a command. -/
  | notModelled (mnemonic : String)
  deriving DecidableEq, Repr

/-- The block right after the release of power-on reset (R504, R506), with an empty keep store and nothing in flash: every register
at its reset value, memory with nothing listed, the queue empty. Every field is at its default, which its structure states. -/
def State.reset : State := {}

end Sys2Proof.Machine
end

