-- ==== Sys2Proof/Machine/Ops.lean ====
section
/-! DEFINITION. The named operations on registers and on Frame Time values that every family uses. -/

namespace Sys2Proof.Machine

/-! ## Fields -/

/-- The mask of a field. -/
def Fld.mask (f : Fld) : W32 := BitVec.ofNat 32 ((2 ^ (f.hi - f.lo + 1) - 1) * 2 ^ f.lo)

/-- The value of a field within a register value. -/
def Fld.get (f : Fld) (v : W32) : Nat := ((v &&& f.mask) >>> f.lo).toNat

/-- A register value with a field replaced by the low bits of `x`. -/
def Fld.put (f : Fld) (v : W32) (x : Nat) : W32 := (v &&& ~~~f.mask) ||| ((BitVec.ofNat 32 x <<< f.lo) &&& f.mask)

/-- The mask of one row of a register table. -/
def FieldInfo.mask (i : FieldInfo) : W32 := BitVec.ofNat 32 ((2 ^ (i.hi - i.lo + 1) - 1) * 2 ^ i.lo)

/-- The mask of the fields of a register that satisfy `p`. -/
def RN.maskOf (n : RN) (p : FieldInfo → Bool) : W32 :=
  n.fields.foldl (fun m i => if p i then m ||| i.mask else m) 0

/-- The opcodes of stepping A1 (R65, R67): every opcode that the spec defines. -/
def opcodes : List Nat :=
  [0x0001, 0x0002, 0x0010, 0x0011, 0x0020, 0x0030,
   0x0100, 0x0101, 0x0102, 0x0103, 0x0104, 0x0105, 0x0106, 0x0107, 0x0108, 0x0109, 0x010A,
   0x0200, 0x0201, 0x0202, 0x0203,
   0x0300, 0x0301, 0x0302, 0x0303, 0x0304, 0x0305, 0x0306,
   0x0400, 0x0401, 0x0402, 0x0403, 0x0404,
   0x0500, 0x0501, 0x0502, 0x0503,
   0x0600, 0x0601, 0x0602, 0x0603, 0x0604, 0x0605,
   0x0700, 0x0701, 0x0702, 0x0703, 0x0704, 0x0705,
   0x0800, 0x0801,
   0x0900, 0x0901, 0x0902, 0x0903, 0x0904, 0x0905,
   0x0A00, 0x0A01, 0x0A02,
   0x0B00, 0x0B01, 0x0B02, 0x0B03, 0x0B04, 0x0B05, 0x0B06, 0x0B07, 0x0B08, 0x0B09, 0x0B0A,
   0x0C00, 0x0C01, 0x0C02, 0x0C03, 0x0C04, 0x0C05, 0x0C06, 0x0C07,
   0x0D00, 0x0D01, 0x0D02, 0x0D03, 0x0D04, 0x0D05, 0x0D06,
   0x0E00, 0x0E01, 0x0E02,
   0x0F00, 0x0F01]

/-- The reset value of a register (the Reset column). ID_CAP_OPC and ID_CAP_FEAT are the stepping constants of R65;
ID_SERIAL is the fuse value. -/
def Reg.reset (r : Reg) : W32 :=
  match r.name with
  | .ID_CAP_OPC => BitVec.ofNat 32 ((List.range 32).foldl
      (fun m b => if opcodes.contains (32 * r.idx + b) then m + 2 ^ b else m) 0)
  | .ID_CAP_FEAT => if r.idx = 0 then 1 else 0
  | .ID_SERIAL_LO => lo32 Config.serial.toNat
  | .ID_SERIAL_HI => hi32 Config.serial.toNat
  | n => BitVec.ofNat 32 (n.fields.foldl (fun m i => m + i.reset * 2 ^ i.lo) 0)

/-! ## Registers -/

/-- The stored value of a register. -/
def State.rd (s : State) (r : Reg) : W32 := Table.get s.regs r.reset r

/-- Set the stored value of a register. -/
def State.wr (s : State) (r : Reg) (v : W32) : State := { s with regs := Table.set s.regs r.reset r v }

/-- The value of a field of a register. -/
def State.fget (s : State) (f : Fld) (inst : Nat) (idx : Nat := 0) : Nat := f.get (s.rd ⟨f.reg, inst, idx⟩)

/-- Set a field of a register. -/
def State.fset (s : State) (f : Fld) (x : Nat) (inst : Nat) (idx : Nat := 0) : State :=
  s.wr ⟨f.reg, inst, idx⟩ (f.put (s.rd ⟨f.reg, inst, idx⟩) x)

/-- The value of a whole register as a number. -/
def State.rdN (s : State) (n : RN) (inst : Nat) (idx : Nat := 0) : Nat := (s.rd ⟨n, inst, idx⟩).toNat

/-- Set a whole register. -/
def State.wrN (s : State) (n : RN) (x : Nat) (inst : Nat) (idx : Nat := 0) : State :=
  s.wr ⟨n, inst, idx⟩ (BitVec.ofNat 32 x)

/-- Add to a 32-bit counter that wraps. -/
def State.bump (s : State) (n : RN) (inst : Nat) (k : Nat := 1) (idx : Nat := 0) : State :=
  s.wr ⟨n, inst, idx⟩ (s.rd ⟨n, inst, idx⟩ + BitVec.ofNat 32 k)

/-- The value of a 64-bit pair (R12). -/
def State.rd64 (s : State) (lo hi : RN) (inst : Nat) (idx : Nat := 0) : Nat :=
  s.rdN lo inst idx + 2 ^ 32 * s.rdN hi inst idx

/-- Set a 64-bit pair. -/
def State.wr64 (s : State) (lo hi : RN) (x : Nat) (inst : Nat) (idx : Nat := 0) : State :=
  (s.wrN lo x inst idx).wrN hi (x / 2 ^ 32) inst idx

/-- Add to a 64-bit counter that wraps from 2^64 - 1 to 0. -/
def State.bump64 (s : State) (lo hi : RN) (inst : Nat) (k : Nat := 1) (idx : Nat := 0) : State :=
  s.wr64 lo hi (s.rd64 lo hi inst idx + k) inst idx

/-! ## Frame Time values (R39 to R41) -/

/-- One ft in fraction units (R39). -/
def ftUnit : Nat := 2 ^ 24

/-- `b` is later than `a` (R40). -/
def ftLater (b a : W64) : Bool := decide (0 < (b - a).toNat) && decide ((b - a).toNat < 2 ^ 63)

/-- `b` is not earlier than `a` (R40). -/
def ftReached (b a : W64) : Bool := decide (b = a) || ftLater b a

/-- A duration in ft as the device uses it (R41). -/
def clampDur (ft : Nat) : Nat := min ft (2 ^ 39 - 1)

/-- `t` plus a duration in whole ft. -/
def ftAdd (t : W64) (ft : Nat) : W64 := t + BitVec.ofNat 64 (clampDur ft * ftUnit)

/-- SAMPLE of a Frame Time value (R39). -/
def ftSample (t : W64) : Nat := t.toNat / ftUnit

/-- The Frame Time value of a whole sample count modulo 2^40. -/
def ftOfSample (n : Nat) : W64 := BitVec.ofNat 64 (n % 2 ^ 40 * ftUnit)

/-- The signed difference a - b modulo 2^64 (R40). -/
def ftDiff (a b : W64) : Int := (a - b).toInt

/-- A truncated 40-bit SAMPLE (R96 EXPIRY) extended to the Frame Time value nearest to `now` (R41). -/
def ftExtend40 (x : Nat) : W64 := ftOfSample x

/-- A 32-bit truncated SAMPLE extended to the sample count nearest to that of `now` (R41). -/
def sampleExtend32 (now : W64) (x : W32) : Nat :=
  let n := ftSample now
  let d : Int := (x - BitVec.ofNat 32 n).toInt
  (((n : Int) + d) % (2 ^ 40 : Int)).toNat

/-- The hub Frame Time (R57, FT_NOW). -/
def State.now (s : State) : W64 := s.time.hub

/-- Frame Time of the replica of region `r` (R49). -/
def State.regionFt (s : State) (r : Nat) : W64 := (s.time.regions.getD r {}).count

/-- Frame Time of the replica of die `q` (R49). -/
def State.dieFt (s : State) (q : Nat) : W64 := (s.time.dies.getD q {}).count

/-- The die of a region (R22). -/
def dieOf (r : Nat) : Nat := r / 4

/-- A fresh free value and the state that has drawn it (log entry 1). -/
def State.draw (s : State) (tag : Nat) : W64 × State :=
  (Config.fresh tag s.freeCtr, { s with freeCtr := s.freeCtr + 1 })

/-! ## Functions and Beds (R60) -/

/-- The Bed that a function serves; the physical function serves none. -/
def bedOf (fn : Nat) : Option Nat := if fn = 0 then none else some (fn - 1)

/-- The function of a Bed. -/
def fnOf (bed : Nat) : Nat := bed + 1

/-- Beds that are configured, from the configuration kept in SEC_BED_REGIONS (R455). -/
def State.bedRegions (s : State) (b : Nat) : Nat := s.fget F.SEC_BED_REGIONS_TABLE_REGIONS 0 b

/-- A Bed is configured when it owns at least one region (R26). -/
def State.bedConfigured (s : State) (b : Nat) : Bool := b < 16 && s.bedRegions b != 0

/-- The regions of a Bed, ascending. -/
def State.regionsOf (s : State) (b : Nat) : List Nat :=
  (List.range 16).filter fun r => bitSet (s.bedRegions b) r

/-- The Bed that owns a region (R26). -/
def State.bedOfRegion (s : State) (r : Nat) : Option Nat :=
  (List.range 16).find? fun b => bitSet (s.bedRegions b) r

/-- The granule of a Bed's buffer space in bytes (R201, KV_CTRL.GRANULE). -/
def State.granule (s : State) (b : Nat) : Nat := 16384 * 2 ^ s.fget F.SEC_BED_REGIONS_TABLE_GRANULE 0 b

end Sys2Proof.Machine
end

