-- ==== Sys2Proof/Machine/Flags.lean ====
section
/-! DEFINITION. Status bits, their companion counters, interrupts and the board pins (R80 to R82, R469, R507). -/

namespace Sys2Proof.Machine

/-- Send an MSI-X message: a vector of a function. -/
def State.msix (s : State) (fn vec : Nat) : State := { s with bus := { s.bus with msix := (fn, vec) :: s.bus.msix } }

/-- One step of the companion counter of a status register (R82): it saturates. -/
def State.coalesce (s : State) (r : Reg) : State :=
  match r.name.coalesce with
  | some c => s.wr ⟨c, r.inst, 0⟩ (satInc (s.rd ⟨c, r.inst, 0⟩))
  | none => s

/-- Hardware sets one bit of a status register (R82): a bit that is already 1 counts in the companion counter. -/
def State.statusBit (s : State) (r : Reg) (n : Nat) : State :=
  let v := s.rd r
  let s' := if v.getLsbD n then s.coalesce r else s
  s'.wr r (v ||| BitVec.ofNat 32 (2 ^ n))

/-- Set a bit of IF_INT_STATUS of a function; an enabled bit signals vector 0 (R80). -/
def State.ifInt (s : State) (fn n : Nat) : State :=
  let s := s.statusBit ⟨.IF_INT_STATUS, fn, 0⟩ n
  if bitSet (s.fget F.IF_INT_ENABLE_MASK fn) n then s.msix fn 0 else s

/-- The Bed whose IF_INT_STATUS.BED_EVENT a status register raises: the blocks of R63 and the Bed's own counter set
(R490). -/
def Reg.eventFn (r : Reg) : Option Nat :=
  match r.name with
  | .SES_STATUS | .SCH_STATUS | .LX_STATUS | .KV_STATUS | .IN_STATUS | .SMP_STATUS | .TIER_STATUS | .VS_STATUS
  | .EXP_STATUS | .CK_STATUS | .SEC_BED_STATUS | .FLT_BED_STATUS => some (fnOf r.inst)
  | .TRC_STATUS => if r.inst = 0 then none else some r.inst
  | .CTR_STATUS => if r.inst < 32 then none else some (fnOf (r.inst - 32))
  | _ => none

/-- What a set of bit `n` of a status register raises: BED_EVENT of the Bed's function, vector 1 for an enabled fault class (R469),
vector 2 for an enabled power bit (R507). -/
def State.raised (s : State) (r : Reg) (n : Nat) : State :=
  match r.eventFn with
  | some fn => s.ifInt fn 17
  | none =>
    match r.name with
    | .FLT_STATUS => if bitSet (s.fget F.FLT_ENABLE_INT 0) n then s.msix 0 1 else s
    | .HUB_PWR_STATUS => if bitSet (s.fget F.HUB_PWR_ENABLE_MASK 0) n then s.msix 0 2 else s
    | _ => s

/-- Set a status bit and raise what its register raises. -/
def State.setStatus (s : State) (f : Fld) (inst : Nat) (k : Nat := 0) : State :=
  (s.statusBit ⟨f.reg, inst, 0⟩ (f.lo + k)).raised ⟨f.reg, inst, 0⟩ (f.lo + k)

/-- Set a status bit `n` times (R82). -/
def State.setTimes (s : State) (f : Fld) (inst : Nat) : Nat → State
  | 0 => s
  | n + 1 => State.setTimes (s.setStatus f inst) f inst n

/-- Whether an enabled bit of a status register that signals an interrupt reads 1, and the message it sends (R82). -/
def State.signalOf (s : State) (r : Reg) : Option (Nat × Nat) :=
  match r.name with
  | .IF_INT_STATUS =>
    if (s.rd r &&& s.rd ⟨.IF_INT_ENABLE, r.inst, 0⟩) &&& 0x3FFFF = 0 then none else some (r.inst, 0)
  | .FLT_STATUS =>
    if (s.rd r &&& s.rd ⟨.FLT_ENABLE, 0, 0⟩) &&& 0x1F = 0 then none else some (0, 1)
  | .HUB_PWR_STATUS =>
    if (s.rd r &&& s.rd ⟨.HUB_PWR_ENABLE, 0, 0⟩) &&& 0x3F = 0 then none else some (0, 2)
  | _ => none

/-- Send the message of a status register if an enabled bit reads 1 (R82). -/
def State.resignal (s : State) (r : Reg) : State :=
  match s.signalOf r with
  | some (fn, v) => s.msix fn v
  | none => s

/-- A write of 1s to a status register in the cycle in which hardware sets the bits `hw` (R82): the set wins, and each
set that met a bit that is 1 or a write of 1 counts. That a set of a bit which reads 0, met by a write of 1, counts is a DESIGN
CHOICE (log entry 106): the write then clears nothing. A set bit of a Bed's block raises BED_EVENT as every set does (R80). -/
def State.w1c (s : State) (r : Reg) (w hw : W32) : State :=
  let m := r.name.maskOf fun i => i.acc == .w1c
  let v := s.rd r
  let met := (List.range 32).filter fun n => (hw &&& m).getLsbD n && (v.getLsbD n || w.getLsbD n)
  let s := met.foldl (fun s _ => s.coalesce r) s
  let s := s.wr r ((v &&& ~~~(w &&& m)) ||| (hw &&& m))
  let bits := (List.range 32).filter fun n => (hw &&& m).getLsbD n
  match r.eventFn with
  | some fn => bits.foldl (fun s _ => s.ifInt fn 17) s
  | none => s.resignal r

/-- FLT_ALERT_N is asserted (R469). -/
def State.alertPin (s : State) : Bool :=
  s.rd ⟨.FLT_STATUS, 0, 0⟩ &&& BitVec.ofNat 32 (s.fget F.FLT_ENABLE_PIN 0) &&& 0xF != 0

/-- FLT_FATAL_N is asserted in the safe state (R463, R469). -/
def State.fatalPin (s : State) : Bool := s.flt.safe

end Sys2Proof.Machine
end

