-- ==== Sys2Proof/Machine/Operands.lean ====
section
/-! DEFINITION. The operand forms of a descriptor (R68, R69): its flags, its ARGS bytes, and reads and writes of its
buffers in buffer space, host memory, ring SRAM and the mailbox data area. -/

namespace Sys2Proof.Machine

/-! ## Fields of a descriptor -/

/-- FLAGS.SLOT: TARGET is a Trellis slot (R68). -/
def dSlot (d : Desc) : Bool := d.flags.getLsbD 0

/-- FLAGS.FENCE (R83). -/
def dFence (d : Desc) : Bool := d.flags.getLsbD 1

/-- FLAGS.IRQ (R81). -/
def dIrq (d : Desc) : Bool := d.flags.getLsbD 2

/-- Descriptor bytes `[off + n - 1 : off]` of ARGS, in the spec's absolute byte offsets 48 to 63. -/
def dArg (d : Desc) (off n : Nat) : Nat := (d.args.toNat >>> (8 * (off - 48))) % 2 ^ (8 * n)

/-- The issuing function. -/
def dFn (d : Desc) : Nat := d.src.fn

/-- The Bed of the issuing function. -/
def dBed (d : Desc) : Option Nat := bedOf (dFn d)

/-- The buffer at ADDR0 and at ADDR1: lengths in bytes. -/
def dLen0 (d : Desc) : Nat := d.len0.toNat
def dLen1 (d : Desc) : Nat := d.len1.toNat

/-- The 64-byte image of a descriptor (R68). -/
def dBytes (d : Desc) : List Byte :=
  leBytes 2 d.opcode.toNat ++ [d.ifv, d.flags] ++ leBytes 4 d.jobId.toNat ++ leBytes 2 d.layerId.toNat ++
  leBytes 2 d.operatorId.toNat ++ leBytes 2 d.rangeMarker.toNat ++ leBytes 2 d.tag.toNat ++
  leBytes 8 d.target.toNat ++ leBytes 8 d.addr0.toNat ++ leBytes 8 d.addr1.toNat ++ leBytes 4 d.len0.toNat ++
  leBytes 4 d.len1.toNat ++ leBytes 16 d.args.toNat

/-- The descriptor that 64 bytes spell (R68). -/
def dParse (src : Src) (bs : List Byte) : Desc :=
  { src := src
    opcode := BitVec.ofNat 16 (bytesAt bs 0 2), ifv := bs.getD 2 0, flags := bs.getD 3 0
    jobId := BitVec.ofNat 32 (bytesAt bs 4 4), layerId := BitVec.ofNat 16 (bytesAt bs 8 2)
    operatorId := BitVec.ofNat 16 (bytesAt bs 10 2), rangeMarker := BitVec.ofNat 16 (bytesAt bs 12 2)
    tag := BitVec.ofNat 16 (bytesAt bs 14 2), target := BitVec.ofNat 64 (bytesAt bs 16 8)
    addr0 := BitVec.ofNat 64 (bytesAt bs 24 8), addr1 := BitVec.ofNat 64 (bytesAt bs 32 8)
    len0 := BitVec.ofNat 32 (bytesAt bs 40 4), len1 := BitVec.ofNat 32 (bytesAt bs 44 4)
    args := BitVec.ofNat 128 (bytesAt bs 48 16) }

/-! ## Region clocks (R32, R34) -/

/-- Show the effective clock of a region (R34). -/
def State.showClock (s : State) (r mhz : Nat) : State :=
  let s := s.fset F.RGN_CLK_STATUS_FREQ_MHZ mhz r
  s.fset F.RGN_CLK_STATUS_STRETCHED (if mhz < 1800 then 1 else 0) r

/-- A region restarts its clock (R32): it serves requests, and stamps only after REPLICA_RESYNC. A request that reaches a stopped
region restarts it so, and nothing else follows from its arrival: requests are served in the order in which they arrive. -/
def State.clockRestart (s : State) (r : Nat) : State :=
  if s.fget F.RGN_CLK_STATUS_STOPPED r = 0 then s else
    let s := (s.fset F.RGN_CLK_STATUS_STOPPED 0 r).fset F.RGN_CLK_STATUS_RESYNC_PENDING 1 r
    s.showClock r 1800

/-! ## Near memory (R195, R279) -/

/-- The region of a device physical address (R195). -/
def paRegion (pa : Nat) : Nat := pa / 2 ^ 37

/-- Write bytes of near memory: a line written whole is no longer poisoned, a line written in part stays as it is
(R279). -/
def State.nearWrite (s : State) (pa : Nat) (bs : List Byte) : State :=
  { s with mem := { s.mem with
      near := Mem.writeBytes s.mem.near pa bs
      poison := s.mem.poison.filter fun l => !(decide (pa ≤ 64 * l) && decide (64 * l + 64 ≤ pa + bs.length)) } }

/-- Read bytes of near memory. -/
def State.nearRead (s : State) (pa n : Nat) : List Byte := Mem.readBytes s.mem.near pa n

/-- Some line of `[pa, pa + n)` is poisoned. -/
def State.nearPoison (s : State) (pa n : Nat) : Bool :=
  s.mem.poison.any fun l => decide (pa < 64 * l + 64) && decide (64 * l < pa + n)

/-- Make `[pa, pa + n)` fresh: zero, without poison (R443). -/
def State.nearFresh (s : State) (pa n : Nat) : State :=
  { s with mem := { s.mem with
      near := Mem.clear s.mem.near pa n
      poison := s.mem.poison.filter fun l => !(decide (pa < 64 * l + 64) && decide (64 * l < pa + n)) } }

/-! ## Buffer space (R201, R206, R461) -/

/-- The granule that holds a buffer-space address. -/
def State.granuleAt (s : State) (bed va : Nat) : Option Granule :=
  s.mem.granules.find? fun g => g.bed == bed && g.va == va / s.granule bed * s.granule bed

/-- The device physical address of a buffer-space address, if mapped. -/
def State.bufPa (s : State) (bed va : Nat) : Option Nat :=
  (s.granuleAt bed va).map fun g => g.pa + va % s.granule bed

/-- An access met no valid L0 entry: XLATE_FAULT is set and its first address captured (R206). -/
def State.xlateFault (s : State) (bed va : Nat) : State :=
  let s := if s.fget F.KV_STATUS_XLATE_FAULT bed = 0
    then s.wr64 .KV_FAULT_VA_LO .KV_FAULT_VA_HI (va % 2 ^ 48) bed else s
  s.setStatus F.KV_STATUS_XLATE_FAULT bed

/-- The pieces of a buffer-space run within one granule each: address and length; `n` bounds their number. -/
def bufPieces (g : Nat) : Nat → Nat → Nat → List (Nat × Nat)
  | 0, _, _ => []
  | n + 1, va, len =>
    if len = 0 then [] else
      let k := min len (g - va % g)
      (va, k) :: bufPieces g n (va + k) (len - k)

/-- The pieces of `[va, va + len)` in granules of the Bed. -/
def State.pieces (s : State) (bed va len : Nat) : List (Nat × Nat) :=
  bufPieces (s.granule bed) (len / s.granule bed + 2) va len

/-- Read buffer space: an unmapped byte and a byte of a fenced region read as zero (R206, R461). -/
def State.bufRead (s : State) (bed va len : Nat) : List Byte :=
  List.flatten ((s.pieces bed va len).map fun p =>
    match s.bufPa bed p.1 with
    | some pa => if s.flt.regions.contains (paRegion pa) then List.replicate p.2 0 else s.nearRead pa p.2
    | none => List.replicate p.2 0)

/-- Keep at most `cap` entries of a cache whose newest stands first. The spec names no replacement for a walker's caches: the
oldest entry leaves, a DESIGN CHOICE that only the counts of R224 show (log entry 101). -/
def cachePut {α : Type} [BEq α] (cap : Nat) (x : α) (l : List α) : List α := (x :: l.filter fun y => !(y == x)).take cap

/-- Change a region's walker caches. -/
def State.updWalker (s : State) (r : Nat) (f : Walker → Walker) : State :=
  { s with kv := { s.kv with walkers := s.kv.walkers.modify r f } }

/-- A region's walker made translations: hits and misses count (R224). -/
def State.walked (s : State) (r hits misses : Nat) : State :=
  (s.bump64 .RGN_PW_HITS_LO .RGN_PW_HITS_HI r hits).bump64 .RGN_PW_MISSES_LO .RGN_PW_MISSES_HI r misses

/-- The walker that translates a Bed's buffer-space addresses: that of the Bed's lowest-numbered region. The spec names none: DESIGN
CHOICE (log entry 101). -/
def State.bufWalker (s : State) (bed : Nat) : Nat := (s.regionsOf bed).headD 0

/-- One buffer-space translation: a hit where the walker holds it, otherwise the table is read and, if the granule is mapped, held
(R201, R205, R224). -/
def State.walkBuffer (s : State) (bed va : Nat) : State :=
  let r := s.bufWalker bed
  let k := (bed, va / s.granule bed)
  if (s.kv.walkers.getD r {}).buffers.contains k then s.walked r 1 0
  else if (s.bufPa bed va).isNone then s.walked r 0 1
  else (s.updWalker r fun w => { w with buffers := cachePut 2048 k w.buffers }).walked r 0 1

/-- A request reaches the region that holds a buffer-space address: a stopped one restarts (R32). -/
def State.bufReach (s : State) (bed va : Nat) : State :=
  match s.bufPa bed va with
  | some pa => s.clockRestart (paRegion pa)
  | none => s

/-- What an access to `[va, va + len)` does beside moving data: each granule is translated, its region is reached, and an
unmapped granule raises the translation fault of the first such address (R206). -/
def State.bufTouch (s : State) (bed va len : Nat) : State :=
  let ps := s.pieces bed va len
  let s := ps.foldl (fun s p => (s.walkBuffer bed p.1).bufReach bed p.1) s
  match ps.find? fun p => (s.bufPa bed p.1).isNone with
  | some p => s.xlateFault bed p.1
  | none => s

/-- The granule that holds a buffer-space address becomes DIRTY (R201). -/
def State.dirtyGranule (s : State) (bed va : Nat) : State :=
  let base := va / s.granule bed * s.granule bed
  let gs := updFirst (fun g => g.bed == bed && g.va == base) (fun g => { g with dirty := true }) s.mem.granules
  { s with mem := { s.mem with granules := gs } }

/-- Write buffer space: unmapped bytes are discarded, as is a write to a fenced region; a written granule is DIRTY
(R201, R206, R461). -/
def State.bufWrite (s : State) (bed va : Nat) (bs : List Byte) : State :=
  let step := fun (s : State) (p : Nat × Nat) =>
    match s.bufPa bed p.1 with
    | some pa =>
      if s.flt.regions.contains (paRegion pa) then s else
        (s.nearWrite pa ((bs.drop (p.1 - va)).take p.2)).dirtyGranule bed p.1
    | none => s
  ((s.pieces bed va bs.length).foldl step s).bufTouch bed va bs.length

/-- An access to `[va, va + len)` meets a fenced region or a poisoned line (R461, R279). -/
def State.bufPoison (s : State) (bed va len : Nat) : Bool :=
  (s.pieces bed va len).any fun p =>
    match s.bufPa bed p.1 with
    | some pa => s.flt.regions.contains (paRegion pa) || s.nearPoison pa p.2
    | none => false

/-! ## Address fields (R69) -/

/-- The ring SRAM cell of a function. -/
def sramAddr (fn off : Nat) : Nat := fn * 65536 + off

/-- One byte of a mailbox's data area set in its 32-bit register (R73). -/
def State.mbByte (s : State) (fn m off : Nat) (b : Byte) : State :=
  let r : Reg := ⟨.MB_DATA, fn, m * 32 + off / 4⟩
  s.wr r (Fld.put ⟨.MB_DATA, 8 * (off % 4) + 7, 8 * (off % 4)⟩ (s.rd r) b.toNat)

/-- A descriptor is in flight. -/
def State.running (s : State) (d : Desc) : Bool := s.host.inflight.any fun i => i.desc == d

/-- Write bytes at an address field. Space 0b00 of the physical function discards; ring SRAM and the mailbox data area
end where they end (R69, R84). A function that was reset and not opened since issues no DMA (R78, log entry 6). -/
def State.storeAddr (s : State) (d : Desc) (addr : W64) (bs : List Byte) : State :=
  let a := addr.toNat % 2 ^ 62
  match addr.toNat / 2 ^ 62 with
  | 0 => match dBed d with
    | some bed => s.bufWrite bed (a % 2 ^ 48) bs
    | none => s
  | 1 => if s.host.quiet.contains (dFn d) then s else { s with mem := { s.mem with host := Mem.writeBytes s.mem.host a bs } }
  | 2 => { s with mem := { s.mem with
      sram := Mem.writeBytes s.mem.sram (sramAddr (dFn d) (a % 65536)) (bs.take (65536 - a % 65536)) } }
  | _ => match d.src with
    | .mailbox fn m =>
      ((bs.take (128 - a % 128)).zipIdx).foldl (fun s p => s.mbByte fn m (a % 128 + p.2) p.1) s
    | .ring _ _ _ => s

/-- A command writes at an address field. One that a function-level reset swept away writes host memory no more (R78). -/
def State.writeAddr (s : State) (d : Desc) (addr : W64) (bs : List Byte) : State :=
  if addr.toNat / 2 ^ 62 = 1 && !s.running d then s else s.storeAddr d addr bs

/-- Read bytes at an address field. Space 0b00 of the physical function reads zero; bytes past the end of ring SRAM or
of the mailbox data area read zero (R69, R84). -/
def State.readAddr (s : State) (d : Desc) (addr : W64) (n : Nat) : List Byte :=
  let a := addr.toNat % 2 ^ 62
  match addr.toNat / 2 ^ 62 with
  | 0 => match dBed d with
    | some bed => s.bufRead bed (a % 2 ^ 48) n
    | none => List.replicate n 0
  | 1 => Mem.readBytes s.mem.host a n
  | 2 => (List.range n).map fun i =>
      if a % 65536 + i < 65536 then Mem.read s.mem.sram (sramAddr (dFn d) (a % 65536 + i)) else 0
  | _ => match d.src with
    | .mailbox fn m => (List.range n).map fun i =>
        if a % 128 + i < 128 then
          BitVec.ofNat 8 (bits (s.rdN .MB_DATA fn (m * 32 + (a % 128 + i) / 4)) (8 * ((a % 128 + i) % 4) + 7)
            (8 * ((a % 128 + i) % 4)))
        else 0
    | .ring _ _ _ => List.replicate n 0

/-- A read of an address field in buffer space raises a translation fault where it is unmapped (R206). -/
def State.touchAddr (s : State) (d : Desc) (addr : W64) (n : Nat) : State :=
  match addr.toNat / 2 ^ 62, dBed d with
  | 0, some bed => s.bufTouch bed (addr.toNat % 2 ^ 48) n
  | _, _ => s

/-- A buffer of a command carries poison (R71 POISONED, R461). -/
def State.addrPoison (s : State) (d : Desc) (addr : W64) (n : Nat) : Bool :=
  match addr.toNat / 2 ^ 62, dBed d with
  | 0, some bed => s.bufPoison bed (addr.toNat % 2 ^ 48) n
  | _, _ => false

/-- The buffers that a command reads whole before it acts, so that poison in one leaves it without effect (R71). The chapters
that let a command act on poisoned data, those of the memory operations (R395) and of VS_QUERY (R346), see to it themselves. -/
def inputRanges (d : Desc) : List (W64 × Nat) :=
  match d.opcode.toNat with
  | 0x010A | 0x0300 | 0x0500 | 0x0501 | 0x0503 | 0x0604 | 0x0900 | 0x0903 | 0x0D01 => [(d.addr0, dLen0 d)]
  | 0x0200 => [(d.addr0, 256)]
  | 0x0603 => [(d.addr0, 512)]
  | 0x0A00 => [(d.addr0, 48)]
  | 0x0B07 => [(d.addr1, 16)]
  | 0x0C00 => if dArg d 57 1 % 2 = 1 then [] else [(d.addr1, dLen1 d)]
  | 0x0C02 => [(d.addr0, dLen0 d), (d.addr1, dLen1 d)]
  | 0x0C06 => [(d.addr0, 16)]
  | 0x0D00 => [(d.addr0, 388)]
  | 0x0D04 => [(d.addr0, 384)]
  | _ => []

/-- What a command reads before it acts carries poison. -/
def State.inputPoison (s : State) (d : Desc) : Bool := (inputRanges d).any fun r => s.addrPoison d r.1 r.2

/-- The reads of a command's inputs: translations, translation faults and regions reached (R32, R206). -/
def State.touchInputs (s : State) (d : Desc) : State := (inputRanges d).foldl (fun s r => s.touchAddr d r.1 r.2) s

/-- The buffer at ADDR0. -/
def State.buf0 (s : State) (d : Desc) : List Byte := s.readAddr d d.addr0 (dLen0 d)

/-- Read the first `n` bytes of the buffer at ADDR0. -/
def State.buf0N (s : State) (d : Desc) (n : Nat) : List Byte := s.readAddr d d.addr0 n

end Sys2Proof.Machine
end

