-- ==== Sys2Proof/Machine/ObsOps.lean ====
section
/-! DEFINITION. What every block does for observation: counting an event (R475, R476, R478) and staging a trace record
(R479 to R486). -/

namespace Sys2Proof.Machine

/-! ## Counters -/

/-- Events that are attributable to a Bed (R475); frames of ports count for a Bed only with one. -/
def evAttributable (code : Nat) : Bool :=
  [0x01, 0x02, 0x03, 0x04, 0x10, 0x11, 0x14, 0x15, 0x16, 0x20, 0x21, 0x22, 0x23, 0x24, 0x30, 0x31, 0x34, 0x35].contains code

/-- Events of a unit. -/
def evUnit (code : Nat) : Bool := [0x01, 0x02, 0x03, 0x04].contains code

/-- Counter `k` of a set counts an event of `unit` for `bed` (R476, R478). Sets 32 and up are those of the Beds. -/
def State.counts (s : State) (set k code unit : Nat) (bed : Option Nat) : Bool :=
  s.fget F.CTR_CTRL_RUN set == 1 && s.fget F.CTR_SEL_EVENT set k == code &&
  (!evUnit code || s.fget F.CTR_SEL_ALL_UNITS set k == 1 || s.fget F.CTR_SEL_UNIT set k == unit) &&
  (if 32 ≤ set then evAttributable code && bed == some (set - 32)
   else s.fget F.CTR_SEL_BED_EN set k == 0 || !evAttributable code || bed == some (s.fget F.CTR_SEL_BED set k))

/-- Add to a counter; a wrap sets its OVERFLOW bit (R476). -/
def State.ctrAdd (s : State) (set k n : Nat) : State :=
  let v := s.rd64 .CTR_VAL_LO .CTR_VAL_HI set k + n
  let s := s.wr64 .CTR_VAL_LO .CTR_VAL_HI (v % 2 ^ 64) set k
  if v < 2 ^ 64 then s else s.setStatus F.CTR_STATUS_OVERFLOW set k

/-- The sets that see an event of a block's set: that set and the set of the event's Bed. -/
def ctrSets (set : Nat) (bed : Option Nat) : List Nat :=
  match bed with | some b => [set, 32 + b] | none => [set]

/-- Count `n` of an event (R475). -/
def State.count (s : State) (set code unit : Nat) (bed : Option Nat) (n : Nat) : State :=
  (ctrSets set bed).foldl (fun s c => (List.range 8).foldl (fun s k =>
    if s.counts c k code unit bed then s.ctrAdd c k n else s) s) s

/-- Count an event whose amount the spec does not fix: cycles and bytes that depend on timing. The amount is free (log
entry 30), and nothing is drawn when no counter counts the event. -/
def State.countFree (s : State) (set code unit : Nat) (bed : Option Nat) : State :=
  if (ctrSets set bed).any fun c => (List.range 8).any fun k => s.counts c k code unit bed then
    let r := s.draw 30
    r.2.count set code unit bed (r.1.toNat % 2 ^ 32)
  else s

/-! ## Trace records -/

/-- The block where an event occurs: the hub, a region, or a die's services. -/
inductive Site where
  | hub | region (r : Nat) | die (q : Nat)
  deriving DecidableEq, Repr

/-- A replica may stamp: it is synchronised and has not failed (R51, R52). -/
def Replica.good (x : Replica) : Bool := x.synced && !x.failed

/-- A region's replica stamps: its clock runs and it is not resynchronising (R50, R51). -/
def State.stamps (s : State) (r : Nat) : Bool :=
  s.fget F.RGN_CLK_STATUS_STOPPED r == 0 && (s.time.regions.getD r {}).good

/-- The stamp of an event and HUB_STAMP (R479). -/
def State.stamp (s : State) : Site → W64 × Bool
  | .hub => (s.now, false)
  | .region r => if s.stamps r then (s.regionFt r, false) else (s.now, true)
  | .die q => if (s.time.dies.getD q {}).good then (s.dieFt q, false) else (s.now, true)

/-- The staging buffer of a block (R486): dies 0 to 3, hub 4. -/
def siteBuf : Site → Nat
  | .hub => 4
  | .region r => dieOf r
  | .die q => q

/-- Records a staging buffer of 64 KiB holds. -/
def stagingMax : Nat := 2048

/-- The rings that take a record of kind bit `bit` (R484). -/
def State.traceRings (s : State) (bit : Nat) (bed : Option Nat) : List Nat :=
  let pf := bitSet (s.fget F.TRC_CTRL_KINDS 0) bit &&
    (bit == 2 || bit == 3 || bed.isNone || s.fget F.TRC_CTRL_ALL_BEDS 0 == 1)
  let own := match bed with
    | some b => if bit != 2 && bit != 3 && bitSet (s.fget F.TRC_CTRL_KINDS (fnOf b)) bit then [fnOf b] else []
    | none => []
  if pf then 0 :: own else own

/-- A record of a ring is lost (R486). -/
def State.traceLose (s : State) (ft : W64) (fn : Nat) : State :=
  let s := s.wr ⟨.TRC_LOST, fn, 0⟩ (satInc (s.rd ⟨.TRC_LOST, fn, 0⟩))
  let s := s.setStatus F.TRC_STATUS_LOST fn
  let l := if s.obs.lost.any fun x => x.fn == fn
    then updFirst (fun x => x.fn == fn) (fun x => { x with count := x.count + 1 }) s.obs.lost
    else s.obs.lost ++ [{ fn := fn, count := 1, first := ft }]
  { s with obs := { s.obs with lost := l } }

/-- Stage a record (R479, R484, R486); nothing waits for it (R487). -/
def State.trace (s : State) (bit kind origin index : Nat) (at_ : Site) (bed : Option Nat) (subject : Nat)
    (tail : List Byte) : State :=
  match s.traceRings bit bed with
  | [] => s
  | rings =>
    let st := s.stamp at_
    let flags := s.fget F.FT_STATUS_STATE 0 + (if st.2 then 8 else 0)
    let bs := leBytes 8 st.1.toNat ++ [BitVec.ofNat 8 kind, BitVec.ofNat 8 flags, BitVec.ofNat 8 (bed.getD 0xFF),
      BitVec.ofNat 8 origin] ++ leBytes 2 index ++ leBytes 2 subject ++ tail
    let buf := s.obs.staging.getD (siteBuf at_) []
    if buf.length < stagingMax then
      let x : TraceRec := { ft := st.1, rings := rings, bytes := bs }
      { s with obs := { s.obs with staging := s.obs.staging.set (siteBuf at_) (buf ++ [x]) } }
    else rings.foldl (fun s fn => (s.setStatus F.TRC_STATUS_STAGING_FULL fn).traceLose st.1 fn) s

/-- The kind-specific bytes of CMD_BEGIN and CMD_END (R480). -/
def cmdTail (job layer operator range tag slot status path : Nat) : List Byte :=
  leBytes 4 job ++ leBytes 2 layer ++ leBytes 2 operator ++ leBytes 2 range ++ leBytes 2 tag ++ leBytes 2 slot ++
  [BitVec.ofNat 8 status, BitVec.ofNat 8 path]

/-- The mailbox or ring slot of a descriptor (R70, SQ_INDEX), and the path of R480. -/
def srcIndex : Src → Nat
  | .mailbox _ m => m
  | .ring _ _ slot => slot
def srcPath : Src → Nat
  | .mailbox _ _ => 0
  | .ring _ _ _ => 1

/-- Command trace of a descriptor (R481): kind 1 when it starts, 2 with its STATUS when its completion is written. -/
def State.traceCmd (s : State) (d : Desc) (kind status : Nat) : State :=
  s.trace 0 kind 5 (dFn d) .hub (dBed d) d.opcode.toNat
    (cmdTail d.jobId.toNat d.layerId.toNat d.operatorId.toNat d.rangeMarker.toNat d.tag.toNat (srcIndex d.src) status
      (srcPath d.src))

end Sys2Proof.Machine
end

