-- ==== Sys2Proof/Machine/ExpOps.lean ====
section
/-! DEFINITION. Exports as far as every command meets them (R384 to R392): forming a message, lines HELD by other nodes, and
the recall that an access by the Bed's own commands waits for. -/

namespace Sys2Proof.Machine

/-! ## The fabric -/

/-- This node's ID (R368). -/
def State.node (s : State) : Nat := s.fget F.PLW_NODE_NODE 0

/-- Form a message; MESSAGE_SEND queues it. -/
def State.emit (s : State) (m : OutMsg) : State := { s with toSend := s.toSend ++ [m] }

/-! ## Exports -/

/-- An export of a Bed by its index. -/
def State.export? (s : State) (bed ix : Nat) : Option Export := s.exp.exports.find? fun e => e.bed == bed && e.ix == ix

/-- Change an export. -/
def State.updExport (s : State) (bed ix : Nat) (f : Export → Export) : State :=
  let l := updFirst (fun (e : Export) => e.bed == bed && e.ix == ix) f s.exp.exports
  { s with exp := { s.exp with exports := l } }

/-- The handle of an export (R386). -/
def expHandle (e : Export) : W32 := BitVec.ofNat 32 (e.ix + e.gen * 256)

/-- The lines HELD that `[off, off + len)` of an export meets. -/
def heldIn (e : Export) (off len : Nat) : List (Nat × Nat) :=
  e.held.filter fun h => decide (off < 64 * h.1 + 64) && decide (64 * h.1 < off + len)

/-- A recall that covers a line is not answered. -/
def recalled (e : Export) (line : Nat) : Bool :=
  e.crossed.contains line || e.recalls.any fun r => decide (r.line ≤ line) && decide (line < r.line + r.count)

/-- Lines in runs of consecutive lines of one holder, at most 64 a run: (node, first line, count). -/
def lineRuns : List (Nat × Nat) → List (Nat × Nat × Nat)
  | [] => []
  | (l, n) :: r =>
    match lineRuns r with
    | [] => [(n, l, 1)]
    | (n', l', c) :: rest =>
      if n' = n && l' = l + 1 && decide (c < 64) then (n, l, c + 1) :: rest else (n, l, 1) :: (n', l', c) :: rest

/-- Insert a line in ascending order. -/
def insertLine (x : Nat × Nat) : List (Nat × Nat) → List (Nat × Nat)
  | [] => [x]
  | y :: r => if x.1 ≤ y.1 then x :: y :: r else y :: insertLine x r

/-- Recall lines from their holders: one MR_RECALL a run, for lines that no recall covers (R392). -/
def State.recallLines (s : State) (e : Export) (lines : List (Nat × Nat)) : State :=
  let want := (lines.filter fun h => !recalled e h.1).foldl (fun l x => insertLine x l) []
  (lineRuns want).foldl (fun s r =>
    let id := s.exp.nextReq
    let m : MrMsg := { sender := s.node, bed := e.bed, target := expHandle e, reqId := id, offset := 64 * r.2.1, length := 64 * r.2.2 }
    let s := { s with exp := { s.exp with nextReq := id + 1 } }
    let s := s.updExport e.bed e.ix fun e =>
      { e with recalls := e.recalls ++ [{ id := id, node := r.1, line := r.2.1, count := r.2.2, since := s.now }] }
    s.emit { dest := r.1, bed := some e.bed, msg := .mr .recall m }) s

/-! ## The Bed's own commands (R391) -/

/-- The parts of buffer space that a command reads or writes: its buffers at ADDR0 and ADDR1. The memory operations use LEN0
for both (R402); of a copy from or to another node, only the local side is one (R397). -/
def bufRanges (d : Desc) : List (Nat × Nat) :=
  let part : W64 → Nat → List (Nat × Nat) := fun a n => if a.toNat / 2 ^ 62 = 0 && decide (0 < n) then [(a.toNat % 2 ^ 48, n)] else []
  let both := [0x0B04, 0x0B05, 0x0B06].contains d.opcode.toNat
  let remote := if d.opcode = 0x0B04 then dArg d 48 1 % 4 else 0
  if remote = 1 then part d.addr0 (dLen0 d)
  else if remote = 2 then part d.addr1 (dLen0 d)
  else part d.addr0 (dLen0 d) ++ part d.addr1 (if both then dLen0 d else dLen1 d)

/-- The lines HELD by other nodes that a range of a Bed's buffer space meets, by export. -/
def State.heldUnder (s : State) (bed va len : Nat) : List (Export × List (Nat × Nat)) :=
  (s.exp.exports.filter fun e => e.bed == bed && e.mode == 2).filterMap fun e =>
    if va + len ≤ e.start || e.start + e.len ≤ va then none else
      let lo := va - e.start
      match heldIn e lo (va + len - (e.start + lo)) with
      | [] => none
      | l => some (e, l)

/-- What a command must recall before it starts. -/
def State.mustRecall (s : State) (d : Desc) : List (Export × List (Nat × Nat)) :=
  match dBed d with
  | none => []
  | some bed => List.flatten ((bufRanges d).map fun r => s.heldUnder bed r.1 r.2)

/-- Recall every line that a command meets; lines that two of its buffers share are recalled once. -/
def State.recallFor (s : State) (d : Desc) : State :=
  (s.mustRecall d).foldl (fun s x =>
    match s.export? x.1.bed x.1.ix with
    | some e => s.recallLines e x.2
    | none => s) s

end Sys2Proof.Machine
end

