-- ==== Sys2Proof/Machine/Sha.lean ====
section
/-! DEFINITION. SHA-256 (FIPS 180-4), which the spec uses for home and directory buckets (R92), page keys (R211), table
and journal digests (R85) and measurements. -/

namespace Sys2Proof.Machine

/-- Rotate right. -/
def rotr (x : W32) (n : Nat) : W32 := (x >>> n) ||| (x <<< (32 - n))

/-- The largest `r` below `2 ^ n` whose `k`-th power does not exceed `x`, found from its highest bit down, added to `r`. -/
def rootFrom (k x : Nat) : Nat → Nat → Nat
  | 0, r => r
  | n + 1, r => rootFrom k x n (if (r + 2 ^ n) ^ k ≤ x then r + 2 ^ n else r)

/-- The first 32 bits of the fraction of the `k`-th root of a number below 512. -/
def rootWord (k p : Nat) : W32 := BitVec.ofNat 32 (rootFrom k (p * 2 ^ (32 * k)) 37 0)

/-- A number below 361 is prime: it is one of the primes below 19, or none of them divides it. -/
def isPrime (n : Nat) : Bool := [2, 3, 5, 7, 11, 13, 17].all fun p => n == p || n % p != 0

/-- The first 64 primes. -/
def firstPrimes : List Nat := ((List.range 310).map fun n => n + 2).filter isPrime

/-- The round constants: the cube roots of the first 64 primes give them (FIPS 180-4, 4.2.2). -/
def shaK : List W32 := firstPrimes.map (rootWord 3)

/-- The eight working words. -/
structure ShaState where
  a : W32
  b : W32
  c : W32
  d : W32
  e : W32
  f : W32
  g : W32
  h : W32
  deriving DecidableEq, Repr

/-- The initial hash value: the square roots of the first eight primes give it (FIPS 180-4, 5.3.3). -/
def shaInit : ShaState :=
  ⟨rootWord 2 2, rootWord 2 3, rootWord 2 5, rootWord 2 7, rootWord 2 11, rootWord 2 13, rootWord 2 17, rootWord 2 19⟩

/-- The big-endian word that four bytes spell. -/
def be32 : List Byte → W32
  | a :: b :: c :: d :: _ => BitVec.ofNat 32 (((a.toNat * 256 + b.toNat) * 256 + c.toNat) * 256 + d.toNat)
  | _ => 0

/-- The big-endian bytes of a number, `n` of them. -/
def beBytes (n v : Nat) : List Byte := (leBytes n v).reverse

/-- One word of the message schedule from the last sixteen (newest first). -/
def shaNext (w : List W32) : W32 :=
  let w2 := w.getD 1 0
  let w15 := w.getD 14 0
  (rotr w2 17 ^^^ rotr w2 19 ^^^ (w2 >>> 10)) + w.getD 6 0 +
    (rotr w15 7 ^^^ rotr w15 18 ^^^ (w15 >>> 3)) + w.getD 15 0

/-- The message schedule, newest first, extended by `n` words. -/
def shaExtend : Nat → List W32 → List W32
  | 0, w => w
  | n + 1, w => shaExtend n (shaNext w :: w)

/-- One round. -/
def shaRound (s : ShaState) (kw : W32 × W32) : ShaState :=
  let s1 := rotr s.e 6 ^^^ rotr s.e 11 ^^^ rotr s.e 25
  let ch := (s.e &&& s.f) ^^^ (~~~s.e &&& s.g)
  let t1 := s.h + s1 + ch + kw.1 + kw.2
  let s0 := rotr s.a 2 ^^^ rotr s.a 13 ^^^ rotr s.a 22
  let maj := (s.a &&& s.b) ^^^ (s.a &&& s.c) ^^^ (s.b &&& s.c)
  ⟨t1 + (s0 + maj), s.a, s.b, s.c, s.d + t1, s.e, s.f, s.g⟩

/-- The first `n` 32-bit words of a block. -/
def shaWords : Nat → List Byte → List W32
  | 0, _ => []
  | n + 1, bs => be32 bs :: shaWords n (bs.drop 4)

/-- One block of 64 bytes. -/
def shaBlock (h : ShaState) (bs : List Byte) : ShaState :=
  let w := (shaExtend 48 (shaWords 16 bs).reverse).reverse
  let r := (shaK.zip w).foldl shaRound h
  ⟨h.a + r.a, h.b + r.b, h.c + r.c, h.d + r.d, h.e + r.e, h.f + r.f, h.g + r.g, h.h + r.h⟩

/-- `n` blocks. -/
def shaBlocks : Nat → ShaState → List Byte → ShaState
  | 0, h, _ => h
  | n + 1, h, bs => shaBlocks n (shaBlock h (bs.take 64)) (bs.drop 64)

/-- The padded message. -/
def shaPad (m : List Byte) : List Byte :=
  m ++ (0x80 : Byte) :: (List.replicate ((119 - m.length % 64) % 64) (0 : Byte) ++ beBytes 8 (8 * m.length))

/-- SHA-256: the 32 bytes of the digest, H[0] first. -/
def sha256 (m : List Byte) : List Byte :=
  let p := shaPad m
  let h := shaBlocks (p.length / 64) shaInit p
  List.flatten ([h.a, h.b, h.c, h.d, h.e, h.f, h.g, h.h].map fun w => beBytes 4 w.toNat)

/-- The first 128 bits of SHA-256, as sixteen bytes read little-endian (R85, R211). -/
def digest128 (m : List Byte) : W128 := BitVec.ofNat 128 (leNat ((sha256 m).take 16))

end Sys2Proof.Machine
end

