-- ==== Sys2Proof/Machine/Complete.lean ====
section
/-! DEFINITION. What every command ends with: the completion of a descriptor (R70 to R81), the submission of a change to
the keep store and the change journal (R85 to R88), and the forming of a message for the fabric. -/

namespace Sys2Proof.Machine

/-! ## Status codes (R71) -/

namespace St
def ok : Nat := 0x00
def notOpen : Nat := 0x01
def bedAbsent : Nat := 0x02
def noCommonVersion : Nat := 0x03
def overQuota : Nat := 0x04
def noResource : Nat := 0x05
def notFound : Nat := 0x06
def notOwner : Nat := 0x07
def stateInDoubt : Nat := 0x08
def extentRevoked : Nat := 0x09
def poisoned : Nat := 0x0A
def fenced : Nat := 0x0B
def conflict : Nat := 0x0C
def versionRefused : Nat := 0x0D
def tableVersion : Nat := 0x0E
def signature : Nat := 0x0F
end St

/-! ## Rings -/

/-- The ring of a function, if it is not ABSENT. -/
def State.ring? (s : State) (fn r : Nat) : Option Ring := s.host.rings.find? fun q => q.fn == fn && q.idx == r

/-- Change a ring's record. -/
def State.updRing (s : State) (fn r : Nat) (f : Ring → Ring) : State :=
  { s with host := { s.host with rings := updFirst (fun q => q.fn == fn && q.idx == r) f s.host.rings } }

/-- Entries of a ring (R74). -/
def State.ringSize (s : State) (fn r : Nat) : Nat := 2 ^ (s.fget F.RING_STATE_LOG2_SIZE fn r + 4)

/-- The 32-byte image of a completion (R70). -/
def compBytes (d : Desc) (st res : Nat) (phase : Bool) (ft : W64) : List Byte :=
  leBytes 2 d.opcode.toNat ++ [BitVec.ofNat 8 st, if phase then 1 else 0] ++ leBytes 4 d.jobId.toNat ++
  leBytes 2 d.tag.toNat ++ leBytes 2 (srcIndex d.src) ++ leBytes 4 0 ++ leBytes 8 res ++ leBytes 8 ft.toNat

/-- Write the completion of a mailbox command: MB_COMP, BUSY, the mailbox's bit in IF_INT_STATUS (R73). -/
def State.completeMb (s : State) (fn m : Nat) (d : Desc) (st res : Nat) : State :=
  let bs := compBytes d st res false s.now
  let s := (List.range 8).foldl (fun s k => s.wrN .MB_COMP (bytesAt bs (4 * k) 4) fn (m * 8 + k)) s
  (s.fset F.MB_STATUS_BUSY 0 fn m).ifInt fn m

/-- Signal the vector of a ring, which clears its pending count (R81). -/
def State.ringSignal (s : State) (fn r : Nat) : State :=
  (s.msix fn (s.fget F.RING_IRQ_CTRL_VECTOR fn r)).updRing fn r fun q => { q with pending := 0 }

/-- Write the completion of a ring command at CQ.TAIL (R76) and signal as R81 states. -/
def State.completeRing (s : State) (fn r : Nat) (d : Desc) (st res : Nat) : State :=
  match s.ring? fn r with
  | none => s
  | some q =>
    let tail := s.fget F.RING_CQ_TAIL fn r
    let tail' := (tail + 1) % s.ringSize fn r
    let s := s.writeAddr d (q.cq + BitVec.ofNat 64 (32 * tail)) (compBytes d st res q.phase s.now)
    let s := s.fset F.RING_CQ_TAIL tail' fn r
    let n := q.pending + 1
    let s := s.updRing fn r fun q =>
      { q with pending := n, unread := q.unread + 1, oldest := if q.pending = 0 then s.now else q.oldest
               phase := if tail' = 0 then !q.phase else q.phase }
    if dIrq d || st != 0 || max 1 (s.fget F.RING_IRQ_CTRL_COUNT fn r) ≤ n then s.ringSignal fn r else s

/-- The descriptor leaves the list of those in flight. -/
def State.retire (s : State) (d : Desc) : State :=
  { s with host := { s.host with inflight := s.host.inflight.eraseP fun i => i.desc == d } }

/-- A buffer of a command meets a granule of a fenced region (R461). -/
def State.meetsFence (s : State) (d : Desc) : Bool :=
  (dBed d).any fun bed => (bufRanges d).any fun r => (s.pieces bed r.1 r.2).any fun p =>
    (s.bufPa bed p.1).any fun pa => s.flt.regions.contains (paRegion pa)

/-- The STATUS a command ends with: poison that it read, or a buffer in a fenced region, turns OK into POISONED (R71, R461). A
poisoned line of a buffer that it only wrote does not; a memory operation says itself what it met (R396). -/
def State.endStatus (s : State) (d : Desc) (st : Nat) : Nat :=
  let query := d.opcode == 0x0902 && s.addrPoison d d.addr0 (dLen0 d)
  if st = 0 && (query || s.inputPoison d || s.meetsFence d) then St.poisoned else st

/-- Complete a command. A descriptor that a function-level reset has swept away writes no completion (R78), and the safe
state writes none (R463). -/
def State.complete (s : State) (d : Desc) (st : Nat) (res : Nat := 0) : State :=
  if s.running d && !s.flt.safe then
    let st := s.endStatus d st
    let s := s.traceCmd d 2 st
    match d.src with
    | .mailbox fn m => (s.retire d).completeMb fn m d st res
    | .ring fn r _ => (s.completeRing fn r d st res).retire d
  else s.retire d

/-- Complete a command that may be absent. -/
def State.complete? (s : State) (d : Option Desc) (st : Nat) (res : Nat := 0) : State :=
  match d with
  | some d => s.complete d st res
  | none => s

/-! ## The session directory (R27, R95) -/

/-- The digest of a SID. -/
def sidDigest (sid : W64) : List Byte := sha256 (leBytes 8 sid.toNat)

/-- The directory bucket of a SID. -/
def dirBucket (sid : W64) : Nat :=
  let h := sidDigest sid
  ((h.getD 6 0).toNat * 65536 + (h.getD 5 0).toNat * 256 + (h.getD 4 0).toNat) % 2097152

/-- The region whose stack holds a SID's bucket, and the device physical address of an entry of it (R27, R95, R195, R510). -/
def dirRegion (sid : W64) : Nat := dirBucket sid % 16
def dirPa (sid : W64) (dslot : Nat) : Nat := dirRegion sid * 2 ^ 37 + dirBucket sid / 16 * 512 + dslot * 64

/-- A directory lookup reaches the stack that holds the bucket, unless the hub's cache holds the entry (R95); a stopped region then
restarts (R32). Which entries the cache holds the spec leaves open: a free choice (log entry 104). -/
def State.dirReach (s : State) (sid : W64) : State :=
  if s.fget F.RGN_CLK_STATUS_STOPPED (dirRegion sid) = 0 then s else
    let x := s.draw 104
    if x.1.toNat % 2 = 0 then x.2 else x.2.clockRestart (dirRegion sid)

/-! ## Running a descriptor (R76, R83) -/

/-- Two descriptors come from the same ring. -/
def sameRing (a b : Desc) : Bool :=
  match a.src, b.src with
  | .ring f r _, .ring g q _ => f == g && r == q
  | _, _ => false

/-- Two descriptors name the same target in the same form; a SID of 0 is no target (R91). -/
def sameTarget (a b : Desc) : Bool := a.target == b.target && (a.target != 0 || dSlot a) && dSlot a == dSlot b

/-- The descriptors in flight taken before `d`. -/
def earlier (d : Desc) (l : List InFlight) : List InFlight := l.takeWhile fun i => i.desc != d

/-- A descriptor has started: its command runs once. -/
def State.begun (s : State) (d : Desc) : Bool := s.host.inflight.any fun i => i.desc == d && i.started

/-- The commands whose change takes effect once its entry is durable (R88). -/
def changeOps : List Nat :=
  [0x0109, 0x010A, 0x0200, 0x0201, 0x0300, 0x0301, 0x0304, 0x0305, 0x0501, 0x0502, 0x0604, 0x0605, 0x0700, 0x0703, 0x0704,
   0x0900, 0x0901, 0x0904, 0x0A00, 0x0A01, 0x0A02, 0x0B07, 0x0B08, 0x0C05, 0x0C06, 0x0D00, 0x0D01, 0x0D02, 0x0D03, 0x0D04]

/-- The descriptor whose change an effect is. -/
def effDesc : Effect → Option Desc
  | .cmd d _ _ | .load d _ _ _ | .bundleLoad d _ => some d
  | .bundleApply d _ | .zeroize d => d
  | _ => none

/-- The descriptor of a change that waits for a step boundary. -/
def boundaryDesc : BoundaryOp → Option Desc
  | .pause _ d | .park _ d | .move _ d | .cut _ _ _ d => some d
  | .close d => d
  | .setLive => none

/-- The change of a command waits for the keep store. -/
def State.changeWaits (s : State) : Bool := s.keep.queue.any fun i => (effDesc i.eff).isSome

/-- The effect of a command that has started is still to come: it waits for a boundary, for the home, for tokens or for the keep
store. -/
def State.effectWaits (s : State) (d : Desc) : Bool :=
  (s.ses.boundary.any fun x => boundaryDesc x.2 == some d) || (s.ses.waits.any fun w => w.d == some d) ||
  (s.intake.submits.any fun x => x.d == d) || s.keep.queue.any fun i => effDesc i.eff == some d

/-- A descriptor may not start: it has started already; FENCE waits for every earlier completion of its ring, and a command waits
until the earlier ones of its ring with its target have started and made their effects (R83); a map load waits for every earlier one (R94); and changes
are decided one at a time, so that each is decided against what the earlier ones left: DESIGN CHOICE (log entry 98). -/
def State.blocked (s : State) (d : Desc) : Bool :=
  s.running d && (s.begun d || (changeOps.contains d.opcode.toNat && s.changeWaits) ||
    (earlier d s.host.inflight).any fun i =>
      (sameRing i.desc d && (dFence d || (sameTarget i.desc d && (!i.started || s.effectWaits i.desc)))) ||
      (d.opcode == 0x010A#16 && i.desc.opcode == d.opcode))

/-- The descriptor has started; it is traced once (R481), the session it names is looked up, and its inputs are read. The interface
commands have no target (R68). -/
def State.start (s : State) (d : Desc) : State :=
  let s := if s.running d && !s.begun d then s.traceCmd d 1 0 else s
  let s := (if d.target = 0 || dSlot d || d.opcode.toNat / 256 = 0 then s else s.dirReach d.target).touchInputs d
  { s with host := { s.host with
      inflight := updFirst (fun i => i.desc == d) (fun i => { i with started := true }) s.host.inflight } }

/-- Run the meaning of a command unless it may not start yet. One whose buffers meet lines that other nodes hold recalls them
and does not start before they have come back (R391). A command of a Bed that a C3 fault has stopped completes with
FENCED (R462), and one whose input carries poison completes with POISONED and has no other effect (R71); the safe state runs nothing
(R463). -/
def State.runCmd (s : State) (d : Desc) (body : State → State) : State :=
  if s.flt.safe || s.blocked d then s
  else if (dBed d).any fun b => s.flt.fatalBeds.contains b then s.complete d St.fenced
  else if !(s.mustRecall d).isEmpty then s.recallFor d
  else if s.inputPoison d then (s.start d).complete d St.poisoned
  else body (s.start d)

/-! ## Keep store and change journal (R85 to R88) -/

/-- Hand a change to the keep-store controller. -/
def State.submit (s : State) (i : KeepItem) : State := { s with keep := { s.keep with queue := s.keep.queue ++ [i] } }

/-- ORIGIN_TYPE and ORIGIN_ID of a command (R85). -/
def jOrigin (d : Desc) : Nat × Nat := if dFn d = 0 then (1, 0) else (2, dFn d)

/-- A journal entry of a command. -/
def State.jCmd (s : State) (d : Desc) (kind bed detail object : Nat) (old new : W128) (refused : Bool := false) :
    JEntry :=
  { kind := kind, originType := (jOrigin d).1, originId := (jOrigin d).2, bed := bed, refused := refused
    detail := BitVec.ofNat 32 detail, ft := s.now, object := BitVec.ofNat 64 object, old := old, new := new }

/-- A journal entry of the device's own. -/
def State.jDev (s : State) (kind bed detail object : Nat) (old new : W128) : JEntry :=
  { kind := kind, originType := 0, originId := 0, bed := bed
    detail := BitVec.ofNat 32 detail, ft := s.now, object := BitVec.ofNat 64 object, old := old, new := new }

/-- The 64-byte image of a journal entry (R85). -/
def jBytes (e : JEntry) (seq : W32) : List Byte :=
  leBytes 4 seq.toNat ++ leBytes 2 e.kind ++ [BitVec.ofNat 8 e.originType, BitVec.ofNat 8 e.bed] ++
  leBytes 2 e.originId ++ [if e.refused then 1 else 0, 0] ++ leBytes 4 e.detail.toNat ++ leBytes 8 e.ft.toNat ++
  leBytes 8 e.object.toNat ++ leBytes 16 e.old.toNat ++ leBytes 16 e.new.toNat

/-- A command's change: it takes effect once its entry is durable; if the keep store cannot be written the command
completes with NO_RESOURCE and nothing changes (R88). -/
def State.submitCmd (s : State) (d : Desc) (j : List JEntry) (w : List KeepWrite) (e : Effect) : State :=
  if s.keep.ready then s.submit { writes := w, journal := j, eff := e } else s.complete d St.noResource

/-- A load that has passed its checks: the near memory is taken now, so that an entry of a load that applied never stands for one
that found no room (R88, R182, R244). -/
def State.submitLoad (s : State) (d : Desc) (e : JEntry) (bs : List Byte) (room : Option (List Nat × Option Nat × State)) :
    State :=
  match room with
  | some (near, area, t) =>
    if s.keep.ready then t.submit { journal := [e], eff := .load d bs near area } else s.complete d St.noResource
  | none => s.complete d St.noResource

/-- The device's own change, entered in the journal after it was made (R88). -/
def State.journal (s : State) (j : JEntry) : State :=
  if s.keep.ready then s.submit { journal := [j] } else s

/-- A digest that holds a value in its first 4 bytes and zero in the rest (R117, R190, R301). -/
def dig32 (v : Nat) : W128 := BitVec.ofNat 128 (v % 2 ^ 32)

end Sys2Proof.Machine
end

