-- ==== Sys2Proof/Machine/Profiles.lean ====
section
/-! DEFINITION. The fields of a model profile (R121, R165, R189, R221, R247, R273) and the page sizes they give (R196,
R197). -/

namespace Sys2Proof.Machine

/-- Bytes `[off + n - 1 : off]` of a profile. -/
def Profile.field (p : Profile) (off n : Nat) : Nat := bytesAt p.bytes off n

def Profile.layers (p : Profile) : Nat := p.field 12 2
def Profile.qheads (p : Profile) : Nat := p.field 14 1
def Profile.kvheads (p : Profile) : Nat := p.field 15 1
def Profile.headDim (p : Profile) : Nat := p.field 16 2
def Profile.hidden (p : Profile) : Nat := p.field 18 2
def Profile.kvFormat (p : Profile) : Nat := p.field 20 1
def Profile.codebooks (p : Profile) : Nat := p.field 21 1
def Profile.tokensPerStep (p : Profile) : Nat := p.field 22 1
def Profile.specHeads (p : Profile) : Nat := p.field 23 1
def Profile.treeMax (p : Profile) : Nat := p.field 24 1
def Profile.treeDepth (p : Profile) : Nat := p.field 25 1
def Profile.share (p : Profile) : Nat := p.field 26 1
def Profile.period (p : Profile) : Nat := p.field 28 4
def Profile.anchor (p : Profile) : Nat := p.field 32 5
def Profile.marginTarget (p : Profile) : Nat := p.field 40 4
def Profile.marginFloor (p : Profile) : Nat := p.field 44 4
def Profile.prefillChunk (p : Profile) : Nat := p.field 48 2
def Profile.graftRankEst (p : Profile) : Nat := p.field 50 1
def Profile.shareOk (p : Profile) : Bool := p.field 80 1 % 2 == 1
def Profile.pruneOk (p : Profile) : Bool := bitSet (p.field 80 1) 1
def Profile.pruneKeep (p : Profile) : Nat := p.field 81 1
/-- MAX_CONTEXT; 0 stands for 4,194,304 (R221). -/
def Profile.maxContext (p : Profile) : Nat := if p.field 84 4 = 0 then 4194304 else p.field 84 4
def Profile.partnerGroup (p : Profile) : Nat := p.field 96 1
def Profile.returnFp32 (p : Profile) : Bool := p.field 97 1 == 1
def Profile.rotary (p : Profile) : Bool := p.field 98 1 == 1
def Profile.logitMode (p : Profile) : Nat := p.field 99 1
def Profile.ropeTheta (p : Profile) : W32 := BitVec.ofNat 32 (p.field 100 4)
def Profile.ropeDims (p : Profile) : Nat := p.field 104 2
/-- LAYER_TIMEOUT; 0 stands for PERIOD (R189). -/
def Profile.layerTimeout (p : Profile) : Nat := if p.field 108 4 = 0 then p.period else p.field 108 4
def Profile.vocabId (p : Profile) : Nat := p.field 128 2
def Profile.mergeId (p : Profile) : Nat := p.field 130 2
def Profile.normId (p : Profile) : Nat := p.field 132 2
def Profile.pieceMax (p : Profile) : Nat := p.field 134 2
def Profile.spaceMap (p : Profile) : Nat := p.field 136 4
/-- DRAFT_K; 0 stands for 4 (R273). -/
def Profile.draftK (p : Profile) : Nat := if p.field 174 1 = 0 then 4 else p.field 174 1
/-- END_TOKEN, if VALID (R273). -/
def Profile.endToken (p : Profile) : Option Nat :=
  if bitSet (p.field 176 4) 31 then some (p.field 176 4 % 2 ^ 20) else none
def Profile.frameFt (p : Profile) : Nat := p.field 184 4

/-- The controls a session starts with (R254, R273): SEED is the SID (R255). -/
def Profile.controls (p : Profile) (sid : W64) : Controls :=
  { temperature := BitVec.ofNat 32 (p.field 160 4), topP := BitVec.ofNat 32 (p.field 164 4)
    minP := BitVec.ofNat 32 (p.field 168 4), topK := p.field 172 2, seed := sid
    grammar := if p.field 188 2 = 0xFFFF then none else some (p.field 188 2), maxOutput := p.field 180 4 }

/-- E, the bytes of one stored head vector (R196). -/
def Profile.vecBytes (p : Profile) : Nat :=
  match p.kvFormat with
  | 0 => p.headDim
  | 1 => p.headDim / 2 + p.headDim / 32
  | _ => 3 * p.headDim / 4 + p.headDim / 32

/-- DATA_BYTES (R197). -/
def Profile.dataBytes (p : Profile) : Nat := 32 * p.kvheads * p.vecBytes

/-- SKIP_MARGIN is infinite: no summaries are stored (R197, R165). -/
def Profile.noSummary (p : Profile) : Bool := p.field 68 2 == 0xFFFF

/-- PAGE_BYTES (R197). -/
def Profile.pageBytes (p : Profile) : Nat :=
  if p.noSummary then p.dataBytes else p.dataBytes + 2 * p.kvheads * (p.headDim + p.headDim / 32)

/-- The size of a frame (R197). -/
def Profile.frameBytes (p : Profile) : Nat := (p.pageBytes + 63) / 64 * 64

/-- PAGE_STRIDE for a granule (R197). -/
def Profile.pageStride (p : Profile) (granule : Nat) : Nat := (p.pageBytes + granule - 1) / granule * granule

/-- A Bed's profile. -/
def State.profile? (s : State) (bed id : Nat) : Option Profile :=
  s.sch.profiles.find? fun p => p.bed == bed && p.id == id

/-- Profiles of a Bed. -/
def State.profilesOf (s : State) (bed : Nat) : List Profile := s.sch.profiles.filter fun p => p.bed == bed

/-- A slot of the Trellis. -/
def State.slot? (s : State) (ix : Nat) : Option Slot := s.sch.slots.find? fun t => t.ix == ix

/-- The slot that holds a session. -/
def State.slotOf (s : State) (sid : W64) : Option Slot := s.sch.slots.find? fun t => t.sid == sid

/-- Change the slot that holds a session. -/
def State.updSlot (s : State) (sid : W64) (f : Slot → Slot) : State :=
  { s with sch := { s.sch with slots := updFirst (fun t => t.sid == sid) f s.sch.slots } }

/-- Release a session's slot (R126). -/
def State.dropSlot (s : State) (sid : W64) : State :=
  { s with sch := { s.sch with slots := s.sch.slots.filter fun t => t.sid != sid } }

/-- The lowest-numbered free slot (R126). -/
def State.freeSlot (s : State) : Option Nat :=
  firstFrom 0 (fun i => (s.slot? i).isNone) 65536

/-- The 64-byte image of a slot (R126). -/
def slotBytes (t : Slot) : List Byte :=
  leBytes 8 t.sid.toNat ++ leBytes 2 t.profile ++
  [BitVec.ofNat 8 (t.bed % 16 + 16 * (t.region % 4) + 64 * (t.region / 4)),
   BitVec.ofNat 8 (t.prio % 4 + (if t.turn then 4 else 0) + (if t.held then 8 else 0) +
     (if t.inFlight then 16 else 0) + (if t.pend.isEmpty then 0 else 32) + (if t.final then 64 else 0) + 128),
   BitVec.ofNat 8 t.client, BitVec.ofNat 8 t.treeNodes] ++
  leBytes 2 (match t.graft with | some g => g % 4096 | none => 0x8000) ++ leBytes 4 t.graftVersion.toNat ++
  leBytes 4 t.position ++ leBytes 4 t.pend.length ++ leBytes 8 t.playEnd.toNat ++ leBytes 8 t.lastStep.toNat ++
  leBytes 4 t.inputFt.toNat ++ leBytes 2 t.holdCount ++ leBytes 2 t.lateCount ++ leBytes 2 t.furrow ++ leBytes 10 0

end Sys2Proof.Machine
end

