-- ==== Sys2Proof/Machine/KvOps.lean ====
section
/-! DEFINITION. Near memory by plots and frames (R203, R204, R510, R299), sequences and their page maps (R194 to R200),
prefix nodes (R211 to R215), rollback (R209), Prune (R216 to R218). -/

namespace Sys2Proof.Machine

/-! ## A stack (R195, R510) -/

/-- The places of device-reserved memory in each stack (R510): the slices of the session directory and of the tensor-set table, the
range table of the Bed whose lowest-numbered region this is, the fresh map, the part unused, and the first plot that Beds take. -/
def dirOffset : Nat := 0x00000000
def setOffset : Nat := 0x04000000
def rangeOffset : Nat := 0x04100000
def freshOffset : Nat := 0x04180000
def unusedOffset : Nat := 0x04480000
def plotsOffset : Nat := 0x04800000

/-- A line of a stack lies in device-reserved memory. -/
def reservedLine (line : Nat) : Bool := decide (64 * line < plotsOffset)

/-! ## Plots -/

/-- The size of a plot (R203). -/
def plotBytes : Nat := 2097152

/-- The address of an offset in a plot (R195, R510). -/
def plotPa (region ix off : Nat) : Nat := region * 2 ^ 37 + ix * plotBytes + off

/-- Plots that a Bed holds (KV_PLOTS, TIER_USE_NEAR: R223, R299). -/
def State.plotsOf (s : State) (bed : Nat) : Nat := (s.mem.plots.filter fun p => p.bed == bed).length

/-- Plots charged for a Bed's staged restore (R421). -/
def State.stagedPlots (s : State) (bed : Nat) : Nat :=
  match s.ck.staged.find? fun x => x.bed == bed with
  | some x => (x.sessions.map fun y => (y.image.length + plotBytes - 1) / plotBytes).sum
  | none => 0

/-- The Bed's near-memory quota leaves room for `n` plots more (R299, R116, R421). -/
def State.nearQuotaOk (s : State) (bed n : Nat) : Bool :=
  s.plotsOf bed + s.stagedPlots bed + n ≤ s.rdN .TIER_QUOTA_NEAR bed

/-- A piece of a plot meets none of the pieces taken. -/
def pieceFree (taken : List (Nat × Nat)) (off size : Nat) : Bool :=
  taken.all fun t => decide (off + size ≤ t.1) || decide (t.1 + t.2 ≤ off)

/-- The lowest place for a piece of `size` bytes in a plot. The spec gives no order of places within a plot: DESIGN
CHOICE (log entry 12). -/
def plotSlot (p : Plot) (size : Nat) : Option Nat :=
  ((List.range (plotBytes / size)).map fun i => i * size).find? fun off => pieceFree p.taken off size

/-- The lowest plot of a region that no Bed holds (R510). -/
def State.freePlot (s : State) (region : Nat) : Option Nat :=
  firstFrom 36 (fun ix => s.mem.plots.all fun p => p.region != region || p.ix != ix) 45740

/-- Plots of a region that no Bed holds (R224, RGN_PW_FREE_PLOTS). -/
def State.freePlots (s : State) (region : Nat) : Nat :=
  45740 - (s.mem.plots.filter fun p => p.region == region).length

/-- The scheduler and the walker pass a region over (R204, R128, R461, R31). -/
def State.regionPassed (s : State) (r : Nat) : Bool :=
  s.flt.regions.contains r || s.fget F.RGN_CLK_CTRL_GATE_REQ r == 1

/-- Take a piece in one region: in a plot of the Bed with room, else in a free plot that the quota allows (R204). A plot
taken reads as fresh lines (R443). -/
def State.takeIn (s : State) (bed : Nat) (use : PlotUse) (size region : Nat) : Option (Nat × State) :=
  if s.regionPassed region then none else
  match s.mem.plots.find? fun p => p.region == region && p.bed == bed && p.use == use && (plotSlot p size).isSome with
  | some p =>
    match plotSlot p size with
    | some off =>
      let ps := updFirst (fun q => q.region == region && q.ix == p.ix)
        (fun q => { q with taken := (off, size) :: q.taken }) s.mem.plots
      some (plotPa region p.ix off, { s with mem := { s.mem with plots := ps } })
    | none => none
  | none =>
    if s.nearQuotaOk bed 1 then
      match s.freePlot region with
      | some ix =>
        let s := s.nearFresh (plotPa region ix 0) plotBytes
        let p : Plot := { region := region, ix := ix, bed := bed, use := use, taken := [(0, size)] }
        some (plotPa region ix 0, { s with mem := { s.mem with plots := p :: s.mem.plots } })
      | none => none
    else none

/-- Take a piece in the first region of an order that has room (R204). -/
def State.takeAlong (s : State) (bed : Nat) (use : PlotUse) (size : Nat) : List Nat → Option (Nat × State)
  | [] => none
  | r :: rs =>
    match s.takeIn bed use size r with
    | some x => some x
    | none => s.takeAlong bed use size rs

/-- Give a piece back; a plot whose last piece is freed is released and fresh (R203, R443). -/
def State.giveBack (s : State) (pa : Nat) : State :=
  let region := paRegion pa
  let ix := pa % 2 ^ 37 / plotBytes
  let off := pa % plotBytes
  let ps := updFirst (fun q => q.region == region && q.ix == ix)
    (fun q => { q with taken := q.taken.filter fun t => t.1 != off }) s.mem.plots
  let freed := ps.any fun q => q.region == region && q.ix == ix && q.taken.isEmpty
  let s := { s with mem := { s.mem with plots := ps.filter fun q => !q.taken.isEmpty } }
  if freed then s.nearFresh (plotPa region ix 0) plotBytes else s

/-- Give several pieces back. -/
def State.giveBackAll (s : State) (l : List Nat) : State := l.foldl (fun s pa => s.giveBack pa) s

/-- Regions of a Bed on a die, ascending. -/
def State.regionsOnDie (s : State) (bed q : Nat) : List Nat := (s.regionsOf bed).filter fun r => dieOf r == q

/-- The groups of R204 for an owning region. -/
def State.orderGroups (s : State) (bed r : Nat) : List (List Nat) :=
  let q := dieOf r
  [[r], (s.regionsOnDie bed q).filter (fun x => x != r),
   (s.regionsOf bed).filter (fun x => dieOf x == (q + 1) % 4 || dieOf x == (q + 3) % 4),
   s.regionsOnDie bed ((q + 2) % 4)]

/-- The order of R204 under a placement hint (R300); `last` is the region that took the last SPREAD frame. -/
def State.frameOrder (s : State) (bed r hint last : Nat) : List Nat :=
  match hint with
  | 1 =>
    let rs := s.regionsOf bed
    rs.filter (fun x => decide (last < x)) ++ rs.filter (fun x => decide (x ≤ last))
  | 2 => List.flatten (s.orderGroups bed r).reverse
  | _ => List.flatten (s.orderGroups bed r)

/-- Whether near memory has no region with a free plot in an order (R216). -/
def State.noFreePlot (s : State) (order : List Nat) : Bool :=
  order.all fun r => s.regionPassed r || (s.freePlot r).isNone

/-- Take whole plots for a holding of `size` bytes (a Graft, a loadable table, a prefix table: R299); each plot is one
piece. -/
def State.takeObject (s : State) (bed size : Nat) (order : List Nat) : Option (List Nat × State) :=
  if size < plotBytes then
    (s.takeAlong bed .object ((size + 4095) / 4096 * 4096) order).map fun x => ([x.1], x.2)
  else
    (List.range ((size + plotBytes - 1) / plotBytes)).foldl (fun acc _ =>
      match acc with
      | none => none
      | some (l, s) => (s.takeAlong bed .object plotBytes order).map fun x => (l ++ [x.1], x.2)) (some ([], s))

/-- The order for a Bed's own holdings: R204 from its lowest-numbered region (R204, KV_MAP). -/
def State.bedOrder (s : State) (bed : Nat) : List Nat :=
  match s.regionsOf bed with
  | [] => []
  | r :: _ => s.frameOrder bed r 0 0

/-- Take near memory of a Bed for a load of `size` bytes, along the Bed's regions. -/
def State.takeWhole (s : State) (bed size : Nat) : Option (List Nat × Option Nat × State) :=
  (s.takeObject bed size (s.bedOrder bed)).map fun x => (x.1, none, x.2)

/-! ## Sequences -/

/-- The sequence of a session. -/
def State.seq? (s : State) (sid : W64) : Option Seq := s.kv.seqs.find? fun q => q.sid == sid

/-- Change the sequence of a session. -/
def State.updSeq (s : State) (sid : W64) (f : Seq → Seq) : State :=
  { s with kv := { s.kv with seqs := updFirst (fun q => q.sid == sid) f s.kv.seqs } }

/-- The lowest free range of a Bed (R194). -/
def State.freeRange (s : State) (bed : Nat) : Option Nat :=
  firstFrom 1 (fun n => s.kv.seqs.all fun q => q.bed != bed || q.range != n) 65535

/-- The leaf entry of a page. -/
def Seq.leaf? (q : Seq) (layer page : Nat) : Option Leaf := q.leaves.find? fun l => l.layer == layer && l.page == page

/-- Set a leaf entry. -/
def Seq.setLeaf (q : Seq) (l : Leaf) : Seq :=
  { q with leaves := l :: q.leaves.filter fun k => !(k.layer == l.layer && k.page == l.page) }

/-- Holders of a frame: page maps of sequences, prefix nodes and snapshots (R220). -/
def State.frameHeld (s : State) (f : Nat) : Bool :=
  (s.kv.seqs.any fun q => q.leaves.any fun l => l.frame == f && !l.shared) ||
  (s.kv.nodes.any fun n => n.frames.any fun x => x.1 == f) ||
  (s.kv.snaps.any fun x => x.seq.leaves.any fun l => l.frame == f && !l.shared)

/-- Free a frame unless something still holds it (R220). -/
def State.freeFrame (s : State) (f : Nat) : State := if s.frameHeld f then s else s.giveBack f

/-- Change a prefix node. -/
def State.updNode (s : State) (bed ix : Nat) (f : PfxNode → PfxNode) : State :=
  { s with kv := { s.kv with nodes := updFirst (fun n => n.bed == bed && n.ix == ix) f s.kv.nodes } }

/-- Drop one reference to a prefix node (R215). -/
def State.unrefNode (s : State) (bed ix : Nat) : State := s.updNode bed ix fun n => { n with refs := n.refs - 1 }

/-- Remove a prefix node: its frames and its column are freed (R215). -/
def State.removeNode (s : State) (bed ix : Nat) : State :=
  match s.kv.nodes.find? fun n => n.bed == bed && n.ix == ix with
  | none => s
  | some n =>
    let s := { s with kv := { s.kv with nodes := s.kv.nodes.filter fun m => !(m.bed == bed && m.ix == ix) } }
    (n.frames.foldl (fun s f => s.freeFrame f.1) s).giveBack n.column

/-- A sequence lets a leaf go: a private frame is freed, a shared one loses the reference, once per page (the node is held
once for all layers, so the reference is dropped with layer 0) (R209, R215). -/
def State.releaseLeaf (s : State) (bed : Nat) (l : Leaf) : State :=
  if l.shared then (if l.layer = 0 then s.unrefNode bed l.node else s) else s.freeFrame l.frame

/-- The page-map tables that the pages present need: (level, key) pairs, M3 being (3, 0) (R199). -/
def tablesFor (ls : List Leaf) : List (Nat × Nat) :=
  (((3, 0) :: List.flatten (ls.map fun l =>
    [(2, l.layer), (1, l.layer * 64 + l.page / 4096), (0, l.layer * 4096 + l.page / 64)])).eraseDups)

/-- The size of a page-map table (R199). -/
def tableBytes (level : Nat) : Nat := if level = 3 then 1024 else 512

/-! ## KV addresses, table entries and walks (R199, R200, R205) -/

/-- The page number within a range, and the KV address, of a page of a layer (R199). -/
def pageNumber (layer page : Nat) : Nat := layer * 262144 + page
def kvAddr (range layer page stride : Nat) : Nat := range * 2 ^ 43 + pageNumber layer page * stride

/-- The key of the M0, M1 and M2 table on the way to a page: the tables of one level are numbered in the order of their pages. -/
def tableKey (level layer page : Nat) : Nat :=
  match level with
  | 0 => layer * 4096 + page / 64
  | 1 => layer * 64 + page / 4096
  | 2 => layer
  | _ => 0

/-- The index that a page selects in its table of a level (R199). -/
def tableIndex (level layer page : Nat) : Nat :=
  match level with
  | 0 => page % 64
  | 1 => page / 64 % 64
  | 2 => page / 4096 % 64
  | _ => layer

/-- The address of a sequence's page-map table (R199). -/
def Seq.tableAt (q : Seq) (level key : Nat) : Option Nat :=
  ((q.m3.zip q.tables).find? fun x => x.1 == (level, key)).map fun x => x.2

/-- An interior entry: that of a table, or zero (R200). -/
def interiorEntry : Option Nat → W64
  | some pa => BitVec.ofNat 64 (pa + 1)
  | none => 0

/-- A leaf entry (R200). -/
def leafEntry (l : Leaf) : W64 :=
  BitVec.ofNat 64 ((if l.shared then l.node % 2 ^ 23 * 2 ^ 41 else 0) + l.frame / 64 * 64 + (if l.cow then 16 else 0) +
    (if l.dirty then 8 else 0) + (if l.shared then 4 else 0) + (if l.sv then 2 else 0) + 1)

/-- Entry `n` of a Bed's range table, and where it lies: in the Bed's lowest-numbered region (R199, R510). -/
def State.rangeEntry (s : State) (bed n : Nat) : W64 :=
  interiorEntry ((s.kv.seqs.find? fun q => q.bed == bed && q.range == n).bind fun q => q.tableAt 3 0)
def State.rangeEntryPa (s : State) (bed n : Nat) : Nat := (s.regionsOf bed).headD 0 * 2 ^ 37 + rangeOffset + 8 * n

/-- The entries that a walk to a page reads after the range table's: M3, M2 and M1, then the leaf (R199, R200). -/
def Seq.walk (q : Seq) (layer page : Nat) : List W64 :=
  ([2, 1, 0].map fun level => interiorEntry (q.tableAt level (tableKey level layer page))) ++
    [match q.leaf? layer page with | some l => leafEntry l | none => 0]

/-- The walker reads the M0 table of a page: it, the interior entries on the way and the range's entry are held (R205). -/
def State.walkFetch (s : State) (r : Nat) (q : Seq) (layer page : Nat) : State :=
  s.updWalker r fun w =>
    let inner := [3, 2, 1].foldl (fun l level => cachePut 4096 (q.bed, q.range, level, tableKey (level - 1) layer page) l) w.interior
    { w with
      m0 := cachePut 1024 (q.bed, q.range, tableKey 0 layer page) w.m0, interior := inner
      ranges := cachePut 256 (q.bed, q.range) w.ranges }

/-- A region's walker holds the M0 table of a page. -/
def State.walkHolds (s : State) (r : Nat) (q : Seq) (layer page : Nat) : Bool :=
  (s.kv.walkers.getD r {}).m0.contains (q.bed, q.range, tableKey 0 layer page)

/-- The translation of a page (R205, R224); the region that holds its frame serves the read (R32). -/
def State.walkPage (s : State) (r : Nat) (q : Seq) (l : Leaf) : State :=
  let s := if s.walkHolds r q l.layer l.page then s.walked r 1 0 else (s.walkFetch r q l.layer l.page).walked r 0 1
  s.clockRestart (paRegion l.frame)

/-- The translations of a part: every page of its layer. -/
def State.walkLayer (s : State) (r : Nat) (q : Seq) (layer : Nat) : State :=
  (q.leaves.filter fun l => l.layer == layer).foldl (fun s l => s.walkPage r q l) s

/-- At the dispatch of an entry the walker fetches the M0 tables of all its pages (R205). A table read for that counts as a
translation that read a table. -/
def State.walkEntry (s : State) (r : Nat) (q : Seq) : State :=
  q.leaves.foldl (fun s l =>
    if s.walkHolds r q l.layer l.page then s else (s.walkFetch r q l.layer l.page).walked r 0 1) s

/-- The walkers' caches stay coherent when a range is freed (R202). -/
def State.walkForget (s : State) (bed range : Nat) : State :=
  let f : Walker → Walker := fun w => { w with
    m0 := w.m0.filter fun x => !(x.1 == bed && x.2.1 == range), ranges := w.ranges.filter fun x => x != (bed, range)
    interior := w.interior.filter fun x => !(x.1 == bed && x.2.1 == range) }
  { s with kv := { s.kv with walkers := s.kv.walkers.map f } }

/-- The walkers' caches stay coherent when a granule of a Bed changes (R202). -/
def State.walkUnmap (s : State) (bed va : Nat) : State :=
  let k := (bed, va / s.granule bed)
  { s with kv := { s.kv with walkers := s.kv.walkers.map fun w => { w with buffers := w.buffers.filter fun x => x != k } } }

/-! ## Bed tables (R201) -/

/-- The index of a buffer-space address in its table of a level, for a granule of 2^`g` bytes (R201). -/
def bedIndex (g level va : Nat) : Nat := va % 2 ^ 48 / 2 ^ (g + 9 * level) % 512

/-- The bits of a granule's offset. -/
def State.granuleBits (s : State) (bed : Nat) : Nat := 14 + s.fget F.SEC_BED_REGIONS_TABLE_GRANULE 0 bed

/-- A table of a level exists when a granule lies below it; the root always does. -/
def State.bedTable (s : State) (bed level va : Nat) : Bool :=
  let g := s.granuleBits bed + 9 * (level + 1)
  level == 3 || s.mem.granules.any fun x => x.bed == bed && x.va / 2 ^ g == va % 2 ^ 48 / 2 ^ g

/-- The L0 entry of a buffer-space address (R201). -/
def State.bedLeaf (s : State) (bed va : Nat) : W64 :=
  match s.granuleAt bed va with
  | some g => BitVec.ofNat 64 (g.pa / 4096 * 4096 + (if g.dirty then 2 else 0) + 1)
  | none => 0

/-- Give a sequence's KV up: every page, its tables, its range (R194). -/
def State.freeSeq (s : State) (sid : W64) : State :=
  match s.seq? sid with
  | none => s
  | some q =>
    let s := { s with kv := { s.kv with seqs := s.kv.seqs.filter fun x => x.sid != sid } }
    let s := s.walkForget q.bed q.range
    (q.leaves.foldl (fun s l => s.releaseLeaf q.bed l) s).giveBackAll q.tables

/-- Copy a frame within near memory (R209, R220). -/
def State.copyFrame (s : State) (src dst n : Nat) : State := s.nearWrite dst (s.nearRead src n)

/-! ## Prune (R216 to R218) -/

/-- Whether a Bed may prune: PRUNE_ENABLE, no free plot in the order, and a quota that would allow one (R216). -/
def State.mayPrune (s : State) (bed : Nat) (order : List Nat) : Bool :=
  s.fget F.KV_CTRL_PRUNE_ENABLE bed == 1 && s.noFreePlot order && s.nearQuotaOk bed 1

/-- The unreferenced node of a Bed with the oldest LAST_USE (R217). -/
def State.oldNode (s : State) (bed : Nat) : Option PfxNode :=
  (s.kv.nodes.filter fun n => n.bed == bed && n.refs == 0).foldl (fun best n =>
    match best with
    | none => some n
    | some b => if ftLater b.lastUse n.lastUse then some n else some b) none

/-- The highest page index that a sequence holds. -/
def Seq.topPage (q : Seq) : Option Nat :=
  q.leaves.foldl (fun m l => match m with | none => some l.page | some x => some (max x l.page)) none

/-- Position of a session, in its entry and its slot. -/
def State.setPosition (s : State) (sid : W64) (n : Nat) : State :=
  let s := s.updSlot sid fun t => { t with position := n }
  let es := updFirst (fun e => e.sid == sid && e.isOwner) (fun e => { e with position := n }) s.ses.entries
  { s with ses := { s.ses with entries := es } }

/-- The prefix run of a sequence after a rollback or a prune to `n` (R211). -/
def State.runAfter (s : State) (q : Seq) (n : Nat) : Bool × W128 :=
  if n = 0 then (q.runOpen, q.rootKey) else
    match q.leaf? 0 (n / 16 - 1) with
    | some l =>
      if n / 16 = 0 then (false, 0)
      else if l.shared then
        match s.kv.nodes.find? fun m => m.bed == q.bed && m.ix == l.node with
        | some m => (q.runOpen, m.key)
        | none => (false, 0)
      else (false, 0)
    | none => (false, 0)

/-- Prune has let frames go: KV_PRUNED grows by those that nothing holds any more (R217, R218). -/
def State.prunedFrames (s : State) (bed : Nat) (frames : List Nat) : State :=
  (s.bump64 .KV_PRUNED_LO .KV_PRUNED_HI bed (frames.filter fun f => !s.frameHeld f).length).setStatus F.KV_STATUS_PRUNED bed

/-- Take one page index of a victim, in all layers together (R216, R218). -/
def State.prunePage (s : State) (q : Seq) (page : Nat) : State :=
  let gone := q.leaves.filter fun l => l.page == page
  let r := s.runAfter q (16 * page)
  let s := s.updSeq q.sid fun q => { q with
    leaves := q.leaves.filter fun l => l.page != page
    tokens := q.tokens.take (16 * page)
    recompute := q.tokens.drop (16 * page) ++ q.recompute
    runOpen := r.1, runKey := r.2 }
  let s := gone.foldl (fun s l => s.releaseLeaf q.bed l) s
  (s.prunedFrames q.bed ((gone.filter fun l => !l.shared).map fun l => l.frame)).setPosition q.sid (16 * page)

/-- Expiry `a` comes before `b`, in the order of R40 and R41; a session without one (R96) comes last. -/
def expiryBefore (a b : Nat) : Bool :=
  if a = 0 then false else if b = 0 then true else ftLater (ftExtend40 b) (ftExtend40 a)

/-- The order in which R217 takes a victim: PRIORITY descending, PAUSED before LIVE, then earliest EXPIRY or LAST_STEP. -/
def pruneBefore (a b : Entry × Option Slot) : Bool :=
  let paused := fun (x : Entry × Option Slot) => x.1.state == .paused
  if a.1.prio != b.1.prio then decide (b.1.prio < a.1.prio)
  else if paused a != paused b then paused a
  else if paused a then expiryBefore a.1.expiry b.1.expiry
  else match a.2, b.2 with
    | some x, some y => ftLater y.lastStep x.lastStep
    | _, _ => false

/-- A session that Prune may take from (R217); one OFFERED or AWAITING has a handoff in progress. -/
def State.prunable (s : State) (bed : Nat) (e : Entry) : Bool :=
  e.bed == bed && e.isOwner && e.own != .offered && e.own != .awaiting &&
  ((s.profile? bed e.profile).any fun p =>
    p.pruneOk && ((s.seq? e.sid).any fun q =>
      q.copy.isNone && (q.topPage.any fun t => decide (p.pruneKeep ≤ t)))) &&
  (s.tiers.moves.all fun m => m.what != .session e.sid) && (s.sch.work.all fun w => w.sid != e.sid) &&
  (match e.state with
   | .paused => true
   | .live => (s.slotOf e.sid).any fun t => !t.turn && t.pend.isEmpty && !t.inFlight
   | _ => false)

/-- One step of Prune for a Bed: the oldest unreferenced node, else the highest page of the first victim (R217). -/
def State.pruneOnce (s : State) (bed : Nat) : Option State :=
  match s.oldNode bed with
  | some n => some ((s.removeNode bed n.ix).prunedFrames bed (n.frames.map fun f => f.1))
  | none =>
    let vs := (s.ses.entries.filter fun e => s.prunable bed e).map fun e => (e, s.slotOf e.sid)
    let v := vs.foldl (fun best x => match best with | none => some x | some b => if pruneBefore x b then some x else best)
      (none : Option (Entry × Option Slot))
    match v with
    | none => none
    | some x =>
      match s.seq? x.1.sid with
      | none => none
      | some q => q.topPage.map fun t => s.prunePage q t

/-- Take a piece in one of the regions `within`, pruning the Bed for it where R216 allows; `order` is the order of R204
whose free plots R216 asks about, `n` bounds the pages pruned. -/
def State.takePrune (n : Nat) (s : State) (bed : Nat) (use : PlotUse) (size : Nat) (within order : List Nat) :
    Option (Nat × State) :=
  match s.takeAlong bed use size within with
  | some x => some x
  | none =>
    match n with
    | 0 => none
    | n + 1 =>
      if s.mayPrune bed order then
        match s.pruneOnce bed with
        | some s => State.takePrune n s bed use size within order
        | none => none
      else none

/-- The bound on the pages pruned for one need: every page of near memory. -/
def pruneFuel : Nat := 4194304

/-- What a Prune leaves that cannot meet its need: it has taken every page it may, and they stay taken (R216, R218). -/
def State.pruneOut (n : Nat) (s : State) (bed : Nat) (order : List Nat) : State :=
  match n with
  | 0 => s
  | n + 1 =>
    if s.mayPrune bed order then
      match s.pruneOnce bed with
      | some s => State.pruneOut n s bed order
      | none => s
    else s

/-- A need of a sequence was not met: what Prune took for it stays taken. -/
def State.unmet (s : State) (bed region : Nat) : State := s.pruneOut pruneFuel bed (s.frameOrder bed region 0 0)

/-- Take the page-map tables a sequence lacks, in its owning region, with Prune where R216 allows (R199). `none` when there
is no room. -/
def State.growTables (s : State) (q : Seq) (need : List (Nat × Nat)) : Option State :=
  (need.filter fun t => !(q.m3.contains t)).foldl (fun acc t =>
    match acc with
    | none => none
    | some s =>
      (State.takePrune pruneFuel s q.bed .tables (tableBytes t.1) [q.region] (s.frameOrder q.bed q.region 0 0)).map fun x =>
        x.2.updSeq q.sid fun q => { q with m3 := q.m3 ++ [t], tables := q.tables ++ [x.1] }) (some s)

end Sys2Proof.Machine
end

