-- ==== Sys2Proof/Machine/FurOps.lean ====
section
/-! DEFINITION. Output contexts and the Furrow writer (R251, R266 to R271). -/

namespace Sys2Proof.Machine

/-- A Furrow by number. -/
def State.furrow? (s : State) (n : Nat) : Option Furrow := s.smp.furrows.find? fun f => f.num == n

/-- Change a Furrow. -/
def State.updFurrow (s : State) (n : Nat) (f : Furrow → Furrow) : State :=
  { s with smp := { s.smp with furrows := updFirst (fun x => x.num == n) f s.smp.furrows } }

/-- The output context of a session. -/
def State.ctx? (s : State) (sid : W64) : Option OutCtx := s.smp.ctxs.find? fun c => c.sid == sid

/-- Change the output context of a session. -/
def State.updCtx (s : State) (sid : W64) (f : OutCtx → OutCtx) : State :=
  { s with smp := { s.smp with ctxs := updFirst (fun c => c.sid == sid) f s.smp.ctxs } }

/-- The entries of a Furrow. -/
def furSize (f : Furrow) : Nat := 2 ^ f.log2

/-- An entry is an event (R268). -/
def furIsEvent (e : FurEntry) : Bool := 0x10 ≤ e.typ && e.typ ≤ 0x18

/-- The 64-byte image of an entry (R267). -/
def furBytes (e : FurEntry) (phase : Bool) : List Byte :=
  [BitVec.ofNat 8 e.typ, BitVec.ofNat 8 ((if phase then 1 else 0) + (if e.cont then 2 else 0))] ++
  leBytes 2 e.count ++ leBytes 4 e.position ++ leBytes 8 e.sid.toNat ++ leBytes 8 e.ft.toNat ++
  ((e.payload ++ List.replicate 40 0).take 40)

/-- Write bytes at an address of a Bed's function, in host memory or in ring SRAM (R266, R69). A function that was reset and not
opened since issues no DMA (R78, log entry 6). -/
def State.writeFn (s : State) (fn : Nat) (addr : W64) (bs : List Byte) : State :=
  let a := addr.toNat % 2 ^ 62
  match addr.toNat / 2 ^ 62 with
  | 1 => if s.host.quiet.contains fn then s else { s with mem := { s.mem with host := Mem.writeBytes s.mem.host a bs } }
  | 2 =>
    let m := Mem.writeBytes s.mem.sram (sramAddr fn (a % 65536)) (bs.take (65536 - a % 65536))
    { s with mem := { s.mem with sram := m } }
  | _ => s

/-- Read bytes at an address of a Bed's function. -/
def State.readFn (s : State) (fn : Nat) (addr : W64) (n : Nat) : List Byte :=
  let a := addr.toNat % 2 ^ 62
  match addr.toNat / 2 ^ 62 with
  | 1 => Mem.readBytes s.mem.host a n
  | 2 => Mem.readBytes s.mem.sram (sramAddr fn (a % 65536)) n
  | _ => List.replicate n 0

/-- Signal a Furrow's vector, which clears its pending count (R81, R266). -/
def State.furSignal (s : State) (f : Furrow) : State :=
  (s.msix (fnOf f.bed) f.vector).updFurrow f.num fun f => { f with pending := 0 }

/-- The Frame Time that stamps a session's entries: the replica of its die, else the hub's (R50, R267). -/
def State.sesFt (s : State) (sid : W64) : W64 :=
  match s.seq? sid with
  | some q => s.dieFt (dieOf q.region)
  | none => s.now

/-- The die whose services work for a session: that of its region, else of the Bed's first region. -/
def State.sesDie (s : State) (bed : Nat) (sid : W64) : Nat :=
  match s.seq? sid with
  | some q => dieOf q.region
  | none => dieOf ((s.regionsOf bed).headD 0)

/-- Write an entry at the tail of a Furrow that has a free slot (R266). Every event counts as a status other than OK. FT is
that of the write, but for AUDIO, which carries its play start (R267). -/
def State.furWrite (s : State) (f : Furrow) (e : FurEntry) : State :=
  let ft := if e.typ = 0x02 || e.typ = 0x1F then e.ft else s.sesFt e.sid
  let s := s.count (16 + s.sesDie f.bed e.sid) 0x24 0 (some f.bed) 1
  let s := s.writeFn (fnOf f.bed) (f.base + BitVec.ofNat 64 (64 * f.tail)) (furBytes { e with ft := ft } f.phase)
  let tail' := (f.tail + 1) % furSize f
  let s := s.updFurrow f.num fun f =>
    { f with tail := tail', used := f.used + 1, phase := if tail' = 0 then !f.phase else f.phase
             pending := f.pending + 1, oldest := if f.pending = 0 then s.now else f.oldest }
  if furIsEvent e || max 1 f.count ≤ f.pending + 1 then s.furSignal f else s

/-- The Furrow of a session, if its Bed holds it. -/
def State.furrowOf (s : State) (sid : W64) : Option Furrow :=
  match s.ses.entries.find? fun e => e.sid == sid && e.isOwner with
  | some e => match e.furrow with
    | some n => (s.furrow? n).filter fun f => f.bed == e.bed
    | none => none
  | none => none

/-- Capacity of the backlog (R251). -/
def backlogMax : Nat := 128

/-- Write one entry of a session: kept while the session is frozen (R270), else to its Furrow, to its backlog when no slot is free or the backlog is not empty, or to
the paused writer when the backlog is full (R271). A Bed that a C3 fault stopped writes nothing (R462). -/
def State.furPutOne (s : State) (sid : W64) (e : FurEntry) : State :=
  match s.furrowOf sid with
  | none => s
  | some f =>
    if s.flt.fatalBeds.contains f.bed then s else
    match s.ctx? sid with
    | none => if f.used < furSize f then s.furWrite f e else s
    | some c =>
      if c.frozen then s.updCtx sid fun c => { c with ice := c.ice ++ [e] }
      else if c.backlog.isEmpty && c.paused.isEmpty && f.used < furSize f then s.furWrite f e
      else if c.backlog.length < backlogMax && c.paused.isEmpty then
        s.updCtx sid fun c => { c with backlog := c.backlog ++ [e] }
      else s.updCtx sid fun c => { c with paused := c.paused ++ [e] }

/-- Write one entry; the first entry after a revival has the DELAY event immediately before it (R110). -/
def State.furPut (s : State) (sid : W64) (e : FurEntry) : State :=
  match s.ses.revivals.find? fun r => r.sid == sid && r.delayDue with
  | some r =>
    let rs := updFirst (fun x => x.sid == sid) (fun x => { x with delayDue := false }) s.ses.revivals
    let s := { s with ses := { s.ses with revivals := rs } }
    let d : FurEntry := { typ := 0x17, position := r.need, sid := sid, ft := e.ft
                          payload := leBytes 8 r.ackFt.toNat ++ leBytes 8 r.confirmFt.toNat }
    (s.furPutOne sid d).furPutOne sid e
  | none => s.furPutOne sid e

/-- Write entries in order. -/
def State.furPuts (s : State) (sid : W64) (es : List FurEntry) : State := es.foldl (fun s e => s.furPut sid e) s

/-- A session is frozen or no longer frozen (R106, R270). -/
def State.freeze (s : State) (sid : W64) (on : Bool) : State := s.updCtx sid fun c => { c with frozen := on }

/-- The entries kept while a session was frozen are written, in their order (R270). -/
def State.thaw (s : State) (sid : W64) : State :=
  match s.ctx? sid with
  | some c => (s.updCtx sid fun c => { c with ice := [] }).furPuts sid c.ice
  | none => s

/-- An event entry (R268). STATE_IN_DOUBT freezes the session's output, RESUMED ends that (R270). -/
def State.event (s : State) (sid : W64) (typ pos count : Nat) (payload : List Byte) : State :=
  let s := if typ = 0x15 then s.freeze sid false else s
  let s := s.furPut sid { typ := typ, count := count, position := pos, sid := sid, ft := s.sesFt sid, payload := payload }
  if typ = 0x14 then s.freeze sid true else if typ = 0x15 then s.thaw sid else s

/-- Payload bytes from byte 24 of an entry: 8 bytes, then 8 more (R268). -/
def evt (lo hi : Nat) : List Byte := leBytes 8 lo ++ leBytes 8 hi

end Sys2Proof.Machine
end

