-- ==== Sys2Proof/Machine/KeepOps.lean ====
section
/-! DEFINITION. The keep store's records: their image, their place in the two banks, and the change journal that is kept in
them (R85, R90, R323 to R326). -/

namespace Sys2Proof.Machine

/-! ## Images (R323) -/

/-- One bit step of the Castagnoli CRC in its reflected form. -/
def crcBit (c : Nat) : Nat := if c % 2 = 1 then (c / 2) ^^^ 0x82F63B78 else c / 2

/-- One byte step. -/
def crcByte (c : Nat) (b : Byte) : Nat := (List.range 8).foldl (fun c _ => crcBit c) (c ^^^ b.toNat)

/-- CRC-32C of a byte list. -/
def crc32c (bs : List Byte) : Nat := (bs.foldl crcByte 0xFFFFFFFF) ^^^ 0xFFFFFFFF

/-- The header of a record without its CRC. -/
def keepHead (r : KeepRec) : List Byte :=
  leBytes 4 0x5045454B ++ leBytes 2 r.typ ++ [1, 0] ++ leBytes 8 r.seq.toNat ++ leBytes 8 r.key.toNat ++
  leBytes 4 r.payload.length

/-- The image of a record: header, payload, zeros to a multiple of 64 bytes. -/
def keepImage (r : KeepRec) : List Byte :=
  let pad := (64 - (32 + r.payload.length) % 64) % 64
  keepHead r ++ leBytes 4 (crc32c (keepHead r ++ r.payload)) ++ r.payload ++ List.replicate pad 0

/-- Bytes a record takes. -/
def keepSize (r : KeepRec) : Nat := (32 + r.payload.length + 63) / 64 * 64

/-! ## Current records (R325) -/

/-- The record with the larger SEQ. -/
def newerRec (a b : KeepRec) : KeepRec := if a.seq.toNat < b.seq.toNat then b else a

/-- The current record of a key: the valid one with the highest SEQ. -/
def State.keepCur (s : State) (typ : Nat) (key : W64) : Option KeepRec :=
  (s.keep.records.filter fun r => r.typ == typ && r.key == key).foldl
    (fun best r => match best with | none => some r | some b => some (newerRec b r)) none

/-- The current records of a type, in SEQ order of their first appearance. -/
def State.keepAll (s : State) (typ : Nat) : List KeepRec :=
  s.keep.records.filter fun r => r.typ == typ && (s.keepCur typ r.key).any fun c => c.seq == r.seq

/-! ## Writing (R325, R326) -/

/-- Pages of a bank: 64 pSLC blocks of 512 pages. -/
def bankPages : Nat := 64 * 512

/-- The stack of a bank: A on stack 0, B on stack 4 (R323). -/
def bankStack (bank : Bool) : Nat := if bank then 4 else 0

/-- The free page and the bytes used in it, of a bank. -/
def Keep.pageOf (k : Keep) (bank : Bool) : Nat × Nat := if bank then k.pages.2 else k.pages.1

/-- Set them. -/
def Keep.setPage (k : Keep) (bank : Bool) (p : Nat × Nat) : Keep :=
  { k with pages := if bank then (k.pages.1, p) else (p, k.pages.2) }

/-- A flash controller. -/
def State.flashCtl (s : State) (i : Nat) : Flash := s.flash.ctl.getD i {}

/-- Change a flash controller. -/
def State.updFlash (s : State) (i : Nat) (f : Flash → Flash) : State :=
  { s with flash := { s.flash with ctl := s.flash.ctl.modify i f } }

/-- The erase count of a physical block. -/
def Flash.erasesOf (f : Flash) (phys : Nat) : Nat := Table.get f.erases 0 phys

/-- The block that plays the role of a fixed system block (R308, R309). -/
def Flash.sysPhys (f : Flash) (p : Nat) : Nat :=
  match f.subst.find? fun x => x.1 == p with | some x => x.2 | none => p

/-- The physical block of block `k` of a keep-store bank: blocks 0 to 3 of every plane of dies 0 to 3 (R308). -/
def Flash.keepPhys (f : Flash) (k : Nat) : Nat := f.sysPhys (64 * (k / 16) + k % 16)

/-- Pages are programmed with the next write sequence numbers (R314), for a request, or for Compost and the keep store (R330). -/
def State.flashProgram (s : State) (i : Nat) (r : PageRun) (request : Bool) : State :=
  let s := s.updFlash i fun f => { f with wseq := f.wseq + BitVec.ofNat 64 r.count, prog := f.prog ++ [{ r with wseq := f.wseq }] }
  let s := s.bump64 .FL_NAND_WR_LO .FL_NAND_WR_HI i (r.count * 16384)
  if request then s.bump64 .FL_REQ_WR_LO .FL_REQ_WR_HI i (r.count * 16384) else s

/-- The wear segment record of a physical block (R320, R324). -/
def State.wearSegment (s : State) (i seg : Nat) : KeepWrite :=
  let f := s.flashCtl i
  let es := (List.range 1024).map fun k =>
    let p := 1024 * seg + k
    leBytes 4 (min (f.erasesOf p) (2 ^ 24 - 1) + if f.retired.contains p then 2 ^ 31 else 0)
  { typ := 0x0004, key := BitVec.ofNat 64 (i + 256 * seg), payload := es.flatten }

/-- A physical block is erased: its pages, its counts, and every 16th erase of its segment saves the segment (R320). -/
def State.eraseBlock (s : State) (i phys : Nat) : State :=
  let s := s.updFlash i fun f => { f with
    erases := Table.set f.erases 0 phys (f.erasesOf phys + 1), reads := Table.erase f.reads phys, unc := Table.erase f.unc phys
    stale := f.stale.filter fun p => p != phys, prog := f.prog.filter fun r => r.phys != phys }
  let n : List Nat := ((s.flashCtl i).erases.filter fun x => x.1 / 1024 == phys / 1024).map fun x => x.2
  if n.sum % 16 = 0 then s.submit { writes := [s.wearSegment i (phys / 1024)] } else s

/-- One page of a bank is programmed (R314, R330). -/
def State.bankProgram (s : State) (bank : Bool) (page : Nat) : State :=
  let i := bankStack bank
  s.flashProgram i { phys := (s.flashCtl i).keepPhys (page / 512), page := page % 512, kind := 5 } false

/-- A record that a reclaim does not rewrite: a journal entry older than those held, an intent that is DONE, a version that
is not current (R325). -/
def State.keepDead (s : State) (r : KeepRec) : Bool :=
  !((s.keepCur r.typ r.key).any fun c => c.seq == r.seq) ||
  (r.typ == 0x0001 && decide (s.keep.jHeld ≤ (s.keep.jNewest - BitVec.ofNat 32 r.key.toNat).toNat)) ||
  (r.typ == 0x0003 && bytesAt r.payload 1 1 == 2)

/-- Put a record into the page being filled of a bank, which has room for it. -/
def State.keepAppend (s : State) (bank : Bool) (r : KeepRec) : State :=
  let p := s.keep.pageOf bank
  let s := if p.2 = 0 then s.bankProgram bank p.1 else s
  let k := { s.keep with
    records := s.keep.records ++ [{ r with bank := bank, page := p.1, seq := s.keep.nextSeq }]
    nextSeq := s.keep.nextSeq + 1, lastBank := bank }
  { s with keep := k.setPage bank (p.1, p.2 + keepSize r) }

/-- A bank's block leaves use: its current records go to the other bank by `put`, and it is erased if it was programmed (R325). -/
def State.keepVacate (s : State) (bank : Bool) (blk : Nat) (put : State → KeepRec → State) : State :=
  let i := bankStack bank
  let inBlk := fun (r : KeepRec) => r.bank == bank && r.page / 512 == blk
  let live := (s.keep.records.filter inBlk).filter fun r => !s.keepDead r
  let s := live.foldl put s
  let s := { s with keep := { s.keep with records := s.keep.records.filter fun r => !inBlk r } }
  let phys := (s.flashCtl i).keepPhys blk
  if (s.flashCtl i).prog.any fun r => r.phys == phys then s.eraseBlock i phys else s

/-- Put a record at the end of a bank, in the page being filled or in the next one; a page that opens a block has it reclaimed
first (R325). `fuel` bounds the blocks that reclaim one another. -/
def State.keepPlaceN : Nat → State → Bool → KeepRec → State
  | 0, s, _, _ => s
  | fuel + 1, s, bank, r =>
    let p := s.keep.pageOf bank
    if 16384 < p.2 + keepSize r then
      let s := { s with keep := s.keep.setPage bank ((p.1 + 1) % bankPages, 0) }
      let s := if (p.1 + 1) % 512 = 0 then
          s.keepVacate bank ((p.1 + 1) % bankPages / 512) fun s r => State.keepPlaceN fuel s (!bank) r
        else s
      s.keepAppend bank r
    else s.keepAppend bank r

/-- Put a record at the end of a bank. -/
def State.keepPlace (s : State) (bank : Bool) (typ : Nat) (key : W64) (payload : List Byte) : State :=
  State.keepPlaceN 64 s bank { typ := typ, key := key, seq := 0, bank := bank, page := 0, payload := payload }

/-- A bank reclaims a block (R325): its current records go to the other bank with a new SEQ. -/
def State.keepReclaim (s : State) (bank : Bool) (blk : Nat) : State :=
  s.keepVacate bank blk fun s r => s.keepPlace (!bank) r.typ r.key r.payload

/-- A batch of records opens a new page in a bank; a new block is reclaimed first. -/
def State.keepOpen (s : State) (bank : Bool) : State :=
  let p := s.keep.pageOf bank
  if p.2 = 0 then s else
    let s := { s with keep := s.keep.setPage bank ((p.1 + 1) % bankPages, 0) }
    if (p.1 + 1) % 512 = 0 then s.keepReclaim bank ((p.1 + 1) % bankPages / 512) else s

/-- Both banks open a new page: records waiting together are programmed in one (R326). -/
def State.keepBatch (s : State) : State := (s.keepOpen false).keepOpen true

/-- Write a record: to the bank that does not hold the key's current version, a new key to the bank that did not take the
previous record (R325). -/
def State.keepPut (s : State) (typ : Nat) (key : W64) (payload : List Byte) : State :=
  match s.keepCur typ key with
  | some c => s.keepPlace (!c.bank) typ key payload
  | none => s.keepPlace (!s.keep.lastBank) typ key payload

/-- Write records. -/
def State.keepPuts (s : State) (ws : List KeepWrite) : State :=
  ws.foldl (fun s w => s.keepPut w.typ w.key w.payload) s

/-- Write a record at once: it is durable before what follows (R315, R319). -/
def State.keepSave (s : State) (w : KeepWrite) : State := (s.keepBatch).keepPuts [w]

/-! ## The change journal (R85, R90) -/

/-- Show the journal's SEQ range (R90). -/
def State.showJournal (s : State) : State :=
  let n := s.keep.jNewest
  let o := if s.keep.jHeld = 0 then n + 1 else n - BitVec.ofNat 32 (s.keep.jHeld - 1)
  (s.wr ⟨.JRN_NEWEST_SEQ, 0, 0⟩ n).wr ⟨.JRN_OLDEST_SEQ, 0, 0⟩ o

/-- The functions that see an entry (R89, R90). -/
def jFns (bed : Nat) : List Nat := if bed < 16 then [0, fnOf bed] else [0]

/-- Write a journal entry with the next SEQ (R85, R90). -/
def State.journalPut (s : State) (e : JEntry) : State :=
  let seq := s.keep.jNewest + 1
  let full := s.keep.jHeld = 65536
  let s := s.keepPut 0x0001 (BitVec.ofNat 64 seq.toNat) (jBytes e seq)
  let s := { s with keep := { s.keep with jNewest := seq, jHeld := min 65536 (s.keep.jHeld + 1) } }
  let s := (s.showJournal).setStatus F.JRN_STATUS_NEW_ENTRY 0
  let s := if full then s.setStatus F.JRN_STATUS_OVERWRITE 0 else s
  (jFns e.bed).foldl (fun s fn => s.ifInt fn 16) s

/-- The 64 bytes of the journal entry with a SEQ, if it is held. -/
def State.journalGet (s : State) (seq : W32) : Option (List Byte) :=
  if (s.keep.jNewest - seq).toNat < s.keep.jHeld then
    (s.keepCur 0x0001 (BitVec.ofNat 64 seq.toNat)).map fun r => r.payload
  else none

end Sys2Proof.Machine
end

