-- ==== Sys2Proof/Machine/FlashOps.lean ====
section
/-! DEFINITION. Room in the Mulch and its logical blocks (R308 to R313, R322). -/

namespace Sys2Proof.Machine

/-- The size of a logical block (R310). -/
def lbBytes : Nat := 25165824

/-- Logical blocks an image takes (R311). -/
def lbCount (len : Nat) : Nat := (len + lbBytes - 1) / lbBytes

/-- The pools of a stack (R308): 0 data, 1 log, 2 spare, 3 system. Only the keep-store blocks have fixed numbers in the
spec; the other places are a DESIGN CHOICE (log entry 13). -/
def poolOf (phys : Nat) : Nat :=
  if phys / 64 < 8 && phys % 64 < 16 then 3
  else if 8 ≤ phys / 64 && phys / 64 < 72 then 1
  else if 72 ≤ phys / 64 && phys / 64 < 96 then 2
  else 0

/-- The pool whose role a block plays (R309). -/
def Flash.roleOf (f : Flash) (phys : Nat) : Nat :=
  match f.spares.find? fun x => x.1 == phys with | some x => x.2 | none => poolOf phys

/-- A physical block plays a pool's role and is free. -/
def Flash.freeIn (f : Flash) (pool phys : Nat) : Bool :=
  f.roleOf phys == pool && !f.retired.contains phys &&
  !f.stale.contains phys && (f.map.all fun b => b.phys != phys && b.log != some phys) &&
  (f.copy.all fun c => c.dest != phys)

/-- Free physical blocks of a pool. -/
def Flash.freeList (f : Flash) (pool : Nat) : List Nat := (List.range 79488).filter fun p => f.freeIn pool p

/-- The free block of a pool with the least erase count; the lower number on a tie (R320). -/
def Flash.leastWorn (f : Flash) (pool : Nat) : Option Nat :=
  (f.freeList pool).foldl (fun best p =>
    match best with
    | none => some p
    | some b => if f.erasesOf p < f.erasesOf b then some p else some b) none

/-- A logical block is FREE (R313). -/
def State.lbFree (s : State) (lb : Nat) : Bool :=
  (s.flashCtl (lb % 8)).map.all fun b => b.lb != lb

/-- Logical blocks mapped in a stack. -/
def State.lbMapped (s : State) (i : Nat) : Nat := (s.flashCtl i).map.length

/-- The 8-byte block map entry of a logical block (R313); an unmapped one is zero. -/
def lbEntry (b : LBlock) : Nat :=
  b.phys + (match b.kind with | .image => 1 | .record => 2 | .kept => 3) * 2 ^ 17 + b.fill * 2 ^ 20 +
  (match b.log with | some g => 2 ^ 31 + g * 2 ^ 32 | none => 0)

/-- The map segment record of a local logical block: 1,024 entries (R324). -/
def State.mapSegment (s : State) (i seg : Nat) : KeepWrite :=
  let es := (List.range 1024).map fun k =>
    match (s.flashCtl i).map.find? fun b => b.lb == 8 * (1024 * seg + k) + i with
    | some b => leBytes 8 (lbEntry b)
    | none => leBytes 8 0
  { typ := 0x0002, key := BitVec.ofNat 64 (i + 256 * seg), payload := es.flatten }

/-- Save the map segment that holds a logical block (R315): the record is durable before anything uses the change. -/
def State.saveMap (s : State) (lb : Nat) : State := s.keepSave (s.mapSegment (lb % 8) (lb / 8 / 1024))

/-- Save the map segments that hold logical blocks, each once (R315, R328). -/
def State.saveMaps (s : State) (lbs : List Nat) : State :=
  ((lbs.map fun lb => (lb % 8, lb / 8 / 1024)).eraseDups).foldl (fun s x => s.saveMap (x.1 + 8 * 1024 * x.2)) s

/-- The Mulch has room for a run of `n` logical blocks from `lb` (R311, R309, R461). -/
def State.runOk (s : State) (lb n : Nat) : Bool :=
  decide (lb + n ≤ 1048576) && ((List.range n).all fun k => s.lbFree (lb + k)) &&
  ((List.range 8).all fun i =>
    let share := ((List.range n).filter fun k => (lb + k) % 8 == i).length
    share == 0 || (!s.flt.flashOff.contains i &&
      decide (s.lbMapped i + share ≤ 73472 - (s.flashCtl i).lostLogical)))

/-- The first run with room for an image of `len` bytes; none until the keep store can save its map entries (R315). The spec does not
say which run is taken: DESIGN CHOICE (log entry 13). -/
def State.mulchRun (s : State) (len : Nat) : Option Nat :=
  if s.keep.ready then firstFrom 0 (fun lb => s.runOk lb (lbCount len)) 1048576 else none

/-- Map one logical block to the least-worn free data block. -/
def State.mapBlock (s : State) (kind : BlockKind) (lb fill : Nat) : State :=
  s.updFlash (lb % 8) fun f =>
    match f.leastWorn 0 with
    | some p => { f with map := { lb := lb, kind := kind, phys := p, fill := fill } :: f.map }
    | none => f

/-- Take a run for an image of `len` bytes and save its map entries; the answer is its Mulch address (R311, R315). -/
def State.mulchTake (s : State) (kind : BlockKind) (len : Nat) : Option (W64 × State) :=
  (s.mulchRun len).map fun lb =>
    let run := List.range (lbCount len)
    let s := run.foldl (fun s k => s.mapBlock kind (lb + k) 0) s
    (BitVec.ofNat 64 (lb * lbBytes), s.saveMaps (run.map fun k => lb + k))

/-- Release an image run: its logical blocks are FREE, its physical blocks wait for their erase (R318, R322,
R328). -/
def State.mulchRelease (s : State) (addr : W64) (len : Nat) (bed : Option Nat) : State :=
  let lb := addr.toNat / lbBytes
  let n := lbCount len
  let s := (List.range 8).foldl (fun s i =>
    let mine := (s.flashCtl i).map.filter fun b => decide (lb ≤ b.lb) && decide (b.lb < lb + n)
    if mine.isEmpty then s else
      let phys := List.flatten (mine.map fun b => b.phys :: b.log.toList)
      let r : Release := { bed := bed, left := phys, ix := s.flash.nextRelease, started := s.now }
      s.updFlash i fun f => { f with
        map := f.map.filter fun b => !(decide (lb ≤ b.lb) && decide (b.lb < lb + n))
        stale := f.stale ++ phys, releases := f.releases ++ [r] }) s
  State.saveMaps { s with flash := { s.flash with nextRelease := s.flash.nextRelease + 1 } }
    ((List.range n).map fun k => lb + k)

/-- Page reads of a physical block since its last erase (R321). -/
def Flash.readsOf (f : Flash) (phys : Nat) : Nat := Table.get f.reads 0 phys

/-- Pages of a physical block are read (R321, R330). -/
def State.flashRead (s : State) (i phys pages : Nat) : State :=
  (s.updFlash i fun f => { f with reads := Table.set f.reads 0 phys (f.readsOf phys + pages) }).bump64 .FL_RD_LO
    .FL_RD_HI i (pages * 16384)

/-- Change a logical block's map entry. -/
def State.updLb (s : State) (lb : Nat) (f : LBlock → LBlock) : State :=
  s.updFlash (lb % 8) fun c => { c with map := updFirst (fun b => b.lb == lb) f c.map }

/-- A logical block's map entry. -/
def State.lb? (s : State) (lb : Nat) : Option LBlock := (s.flashCtl (lb % 8)).map.find? fun b => b.lb == lb

/-- The code of a kind in the page metadata (R314). -/
def blockCode : BlockKind → Nat
  | .image => 1
  | .record => 2
  | .kept => 3

/-- Pages of an image range that lie in its `k`-th logical block: the first, and the end. -/
def lbPages (lo hi k : Nat) : Nat × Nat :=
  ((max lo (k * lbBytes) - k * lbBytes) / 16384, (min hi ((k + 1) * lbBytes) - k * lbBytes + 16383) / 16384)

/-- Image range `[lo, hi)` at a Mulch address is read: the pages below FILL; those above read as zeros (R315). -/
def State.readMulch (s : State) (addr : W64) (lo hi : Nat) : State :=
  (List.range (lbCount hi - lo / lbBytes)).foldl (fun s n =>
    let k := lo / lbBytes + n
    let lb := addr.toNat / lbBytes + k
    match s.lb? lb with
    | some b => s.flashRead (lb % 8) b.phys (min b.fill (lbPages lo hi k).2 - (lbPages lo hi k).1)
    | none => s) s

/-- The pages of the `k`-th logical block that an image of `len` bytes has whole once its bytes up to `hi` are written. -/
def lbWhole (len hi k : Nat) : Nat :=
  if len ≤ hi then (lbPages 0 len k).2 else min 1536 ((hi - k * lbBytes) / 16384)

/-- The bytes of an image of `len` bytes at a Mulch address are written up to `hi`: in logical page order, each page once it is whole
(R315); FILL counts them. -/
def State.writeMulch (s : State) (addr : W64) (len hi : Nat) : State :=
  (List.range (lbCount (min hi len))).foldl (fun s k =>
    let lb := addr.toNat / lbBytes + k
    match s.lb? lb with
    | none => s
    | some b =>
      if lbWhole len hi k ≤ b.fill then s else
        (s.updLb lb fun b => { b with fill := lbWhole len hi k }).flashProgram (lb % 8)
          { phys := b.phys, page := b.fill, count := lbWhole len hi k - b.fill, lblock := lb / 8, lpage := b.fill
            kind := blockCode b.kind } true) s

/-- A write of image range `[lo, hi)` meets a logical block that is being copied (R319). -/
def State.mulchBusy (s : State) (addr : W64) (lo hi : Nat) : Bool :=
  (List.range (lbCount hi - lo / lbBytes)).any fun n =>
    let lb := addr.toNat / lbBytes + lo / lbBytes + n
    (s.flashCtl (lb % 8)).copy.any fun c => c.lb == lb

/-- Change a tensor set. -/
def State.updSet (s : State) (ix : Nat) (f : TensorSet → TensorSet) : State :=
  { s with tiers := { s.tiers with sets := updFirst (fun t => t.ix == ix) f s.tiers.sets } }

/-- Free a tensor set: its generation stays (R287). -/
def State.freeSet (s : State) (ix : Nat) : State := s.updSet ix fun t => { ix := t.ix, gen := t.gen }

/-- Release the storage of a tensor set in the tier that holds it, then free its entry (R287, R291). -/
def State.releaseSet (s : State) (ix : Nat) : State :=
  match s.tiers.sets.find? fun t => t.ix == ix && t.state != .free with
  | none => s
  | some t =>
    let s := if t.tier = 2 then s.mulchRelease t.mulch t.length (some t.bed) else s
    s.freeSet ix

end Sys2Proof.Machine
end

