-- ==== Sys2Proof/Machine/SesOps.lean ====
section
/-! DEFINITION. The session directory, home records and ownership messages (R91 to R112), as far as several families use
them. -/

namespace Sys2Proof.Machine

/-! ## Indices of a SID (R92) -/

/-- The home bucket of a SID. -/
def homeBucket (sid : W64) : Nat :=
  let h := sidDigest sid
  ((h.getD 1 0).toNat * 256 + (h.getD 0 0).toNat) % 4096

/-- The home node of a SID under the map held (R92). -/
def State.homeOf (s : State) (sid : W64) : Option Nat := s.ses.map.map fun m => m.nodes.getD (homeBucket sid) 0

/-- This node is the home of a SID. -/
def State.isHome (s : State) (sid : W64) : Bool := s.homeOf sid == some s.node

/-! ## Entries -/

/-- The directory entry of a SID (R95). -/
def State.entry? (s : State) (sid : W64) : Option Entry := s.ses.entries.find? fun e => e.sid == sid

/-- The owner entry of a SID. -/
def State.owner? (s : State) (sid : W64) : Option Entry := (s.entry? sid).filter fun e => e.isOwner

/-- The home record of a SID. -/
def State.record? (s : State) (sid : W64) : Option Entry := (s.entry? sid).filter fun e => e.isHome

/-- Change the entry of a SID. -/
def State.updEntry (s : State) (sid : W64) (f : Entry → Entry) : State :=
  { s with ses := { s.ses with entries := updFirst (fun e => e.sid == sid) f s.ses.entries } }

/-- Remove the entry of a SID. -/
def State.freeEntry (s : State) (sid : W64) : State :=
  { s with ses := { s.ses with entries := s.ses.entries.filter fun e => e.sid != sid } }

/-- The first FREE entry of a SID's bucket (R95). -/
def State.freeDslot (s : State) (sid : W64) : Option Nat :=
  (List.range 8).find? fun i => s.ses.entries.all fun e => dirBucket e.sid != dirBucket sid || e.dslot != i

/-- Place a new entry; `none` when its bucket is full (NO_RESOURCE, R95). -/
def State.addEntry (s : State) (e : Entry) : Option State :=
  (s.freeDslot e.sid).map fun i =>
    { s with ses := { s.ses with entries := s.ses.entries ++ [{ e with dslot := i }] } }

/-- The number that stands for a STATE (R97). -/
def SesNum : SesState → Nat
  | .free => 0 | .live => 1 | .paused => 2 | .parked => 3 | .dropped => 4 | .closed => 5 | .held => 6

/-- The STATE that a number stands for. -/
def sesOf : Nat → SesState
  | 1 => .live | 2 => .paused | 3 => .parked | 4 => .dropped | 5 => .closed | 6 => .held | _ => .free

/-- The number that stands for an OWN value (R97). -/
def ownNum : Own → Nat
  | .confirmed => 0 | .offered => 1 | .awaiting => 2 | .inDoubt => 3

/-- The number that stands for a TIER (R96). -/
def tierNum : Tier → Nat
  | .near => 0 | .cxl => 1 | .mulch => 2 | .none => 3

/-- The tier of a number (R276). -/
def tierOf : Nat → Tier
  | 0 => .near | 1 => .cxl | 2 => .mulch | _ => .none

/-- The 64-byte image of an entry (R96). -/
def entryBytes (e : Entry) : List Byte :=
  leBytes 8 e.sid.toNat ++
  [BitVec.ofNat 8 (SesNum e.state + 8 * ownNum e.own + (if e.isHome then 32 else 0) + (if e.isOwner then 64 else 0)),
   BitVec.ofNat 8 (e.bed % 16 + 16 * tierNum e.tier + 64 * (e.prio % 4))] ++
  leBytes 2 (e.ownerNode % 512) ++ leBytes 4 e.epoch.toNat ++ leBytes 2 e.profile ++ leBytes 2 (e.slot.getD 0) ++
  leBytes 2 (e.furrow.getD 0) ++
  [BitVec.ofNat 8 ((if e.slot.isSome then 1 else 0) + (if e.furrow.isSome then 2 else 0) + 4 * (e.pauseReason % 4)), 0] ++
  leBytes 4 e.position ++ leBytes 4 e.confirmed ++ leBytes 5 e.expiry ++ leBytes 3 e.turnStart ++
  leBytes 8 e.kvHandle.toNat ++ leBytes 8 (if e.isHome then e.transcript.toNat else 0) ++
  leBytes 2 (match e.graft with | some g => g % 4096 | none => 0x8000) ++ leBytes 6 0

/-- The STATE the home view shows (R97): when the entry is the owner's too, HELD unless DROPPED or CLOSED. -/
def homeState (e : Entry) : SesState :=
  if e.isOwner then (match e.state with | .dropped => .dropped | .closed => .closed | _ => .held) else e.state

/-- Owner entries of a Bed (R115, SES_USE_DIR). -/
def State.useDir (s : State) (bed : Nat) : Nat :=
  (s.ses.entries.filter fun e => e.isOwner && e.bed == bed && e.state != .free).length

/-- LIVE sessions of a Bed (R115, SES_USE_LIVE). -/
def State.useLive (s : State) (bed : Nat) : Nat :=
  (s.ses.entries.filter fun e => e.isOwner && e.bed == bed && e.state == .live).length

/-- QUOTA_DIR and QUOTA_LIVE leave room for one more (R115, R116). -/
def State.dirQuotaOk (s : State) (bed : Nat) : Bool := s.useDir bed + 1 ≤ s.rdN .SES_QUOTA_DIR bed
def State.liveQuotaOk (s : State) (bed : Nat) : Bool := s.useLive bed + 1 ≤ s.rdN .SES_QUOTA_LIVE bed

/-- The session a descriptor's TARGET names: a SID, or the session of a Trellis slot (R68). -/
def State.targetSid (s : State) (d : Desc) : Option W64 :=
  if dSlot d then (s.slot? (d.target.toNat % 65536)).map fun t => t.sid else some d.target

/-- The issuer's owner entry for a session: a virtual function reaches only its Bed's entries (R117). -/
def State.view? (s : State) (d : Desc) (sid : W64) : Option Entry :=
  (s.owner? sid).filter fun e => match dBed d with | some b => e.bed == b | none => true

/-- How a session answers a command that needs it held (R101): its entry, or the status. -/
def State.heldEntry (s : State) (d : Desc) (sid : W64) : Except Nat Entry :=
  match s.view? d sid with
  | none => .error St.notOwner
  | some e =>
    match e.own with
    | .confirmed => .ok e
    | .inDoubt => .error St.stateInDoubt
    | _ => .error St.notOwner

/-! ## Time-to-live (R98) -/

/-- The value 0xFFFF_FFFF never expires (R98). -/
def ttlNever : Nat := 0xFFFFFFFF

/-- The EXPIRY field `ttl` ft from now; 0 for a time-to-live that never expires (R96, R98). -/
def State.expiryAfter (s : State) (ttl : Nat) : Nat :=
  if ttl = ttlNever then 0 else ftSample (ftAdd s.now ttl)

/-! ## Messages (R102) -/

/-- An ownership message from this node, with the next message number. -/
def State.sendOwn (s : State) (dest : Nat) (bed : Option Nat) (t : OwnType) (m : OwnMsg) : State :=
  let m := { m with
    sender := s.node, seq := s.ses.msgSeq, ft := s.now
    mapVersion := match s.ses.map with | some h => h.version | none => 0 }
  let s := { s with ses := { s.ses with msgSeq := s.ses.msgSeq + 1 } }
  s.emit { dest := dest, bed := bed, msg := .own t m }

/-- A reply, which copies SEQ (R102). -/
def State.replyOwn (s : State) (src : OwnMsg) (t : OwnType) (m : OwnMsg) : State :=
  let m := { m with
    sender := s.node, seq := src.seq, ft := s.now, sid := src.sid
    mapVersion := match s.ses.map with | some h => h.version | none => 0 }
  s.emit { dest := src.sender, msg := .own t m }

/-- Note the latest ownership message of a session (R105). -/
def State.touchOwn (s : State) (sid : W64) : State :=
  { s with ses := { s.ses with lastOwnMsg := Table.set s.ses.lastOwnMsg 0 sid s.now } }

/-- Send an ownership message about a session to its home (R102). -/
def State.sendHome (s : State) (sid : W64) (t : OwnType) (m : OwnMsg) : State :=
  match s.homeOf sid with
  | none => s
  | some h => (s.sendOwn h ((s.owner? sid).map fun e => e.bed) t { m with sid := sid }).touchOwn sid

/-! ## Leaving states -/

/-- The FTs by which a session's timers started are forgotten with its entry. -/
def State.forget (s : State) (sid : W64) : State :=
  { s with ses := { s.ses with
      boundary := s.ses.boundary.filter fun p => p.1 != sid
      queries := s.ses.queries.filter fun p => p.1 != sid
      lastOwnMsg := s.ses.lastOwnMsg.filter fun p => p.1 != sid
      revivals := s.ses.revivals.filter fun r => r.sid != sid } }

/-- The set that a handle names: index, GEN and Bed must agree (R288). -/
def State.setOf (s : State) (h : W64) : Option TensorSet :=
  s.tiers.sets.find? fun t => t.ix == h.toNat % 2 ^ 18 && t.state != .free &&
    t.gen % 2 ^ 24 == bits h.toNat 47 24 && t.bed == bits h.toNat 23 20

/-- The handle of a set (R288). -/
def setHandle (t : TensorSet) : W64 :=
  BitVec.ofNat 64 (t.ix + t.tier * 2 ^ 18 + t.bed * 2 ^ 20 + (t.gen % 2 ^ 24) * 2 ^ 24)

/-- The output context leaves near memory with the sequence range (R251). -/
def State.freeCtx (s : State) (sid : W64) : State :=
  match s.ctx? sid with
  | none => s
  | some c =>
    ({ s with smp := { s.smp with ctxs := s.smp.ctxs.filter fun x => x.sid != sid } }).giveBackAll c.near

/-- The backing set of a session (R293). -/
def State.backing? (s : State) (sid : W64) : Option TensorSet :=
  s.tiers.sets.find? fun t => t.state == .backing && t.kind == 0 && t.owner == sid

/-- Release a session's backing (R293). -/
def State.dropBacking (s : State) (sid : W64) : State :=
  match s.backing? sid with
  | some t => s.releaseSet t.ix
  | none => s

/-- Cancel the moves of a session; a destination being filled is freed, the source is kept (R100, R291). -/
def State.cancelMoves (s : State) (sid : W64) : State :=
  let ms := s.tiers.moves.filter fun m => m.what == MoveWhat.session sid
  let s := { s with tiers := { s.tiers with moves := s.tiers.moves.filter fun m => m.what != MoveWhat.session sid } }
  let s := ms.foldl (fun s m => (match m.dst with | some x => s.releaseSet x | none => s).complete? m.d St.noResource) s
  s.updSeq sid fun q => { q with copy := none }

/-- The output contexts of a Bed, in near memory and in the tensor sets that hold a session (R251, R289). -/
def State.ctxsOf (s : State) (bed : Nat) : List OutCtx :=
  (s.smp.ctxs.filter fun c => c.bed == bed) ++
    s.tiers.sets.filterMap fun t => if t.bed == bed && t.state == .complete then t.ctx else none

/-- A version that is no longer current is kept while something binds it (R245, R258): streams and submissions bind kinds 1 to
3, open turns bind grammars. -/
def State.tableBound (s : State) (t : Table) : Bool :=
  if t.kind = 4 then (s.ctxsOf t.bed).any fun c => c.bound == some (t.id, t.version)
  else
    let has := fun (x : Stream) => x.bed == t.bed && x.bound.contains (t.kind, t.id, t.version)
    s.intake.streams.any has || s.intake.submits.any fun u => u.stream.any has

/-- Free the versions of a Bed that are neither current nor bound. -/
def State.sweepTables (s : State) (bed : Nat) : State :=
  let dead := s.intake.tables.filter fun t => t.bed == bed && !t.current && !s.tableBound t
  let ts := s.intake.tables.filter fun t => !(t.bed == bed && !t.current && !s.tableBound t)
  let s := { s with intake := { s.intake with tables := ts } }
  dead.foldl (fun s t => s.giveBackAll t.near) s

/-- Release everything a session holds on this node but its entry: tensors, slot, context, sets, work in flight, carry of
its intake stream (R98, R238); table versions that nothing binds any more go (R245). -/
def State.releaseHoldings (s : State) (sid : W64) : State :=
  let s := s.cancelMoves sid
  let s := match s.owner? sid with
    | some e => if e.tier == Tier.cxl || e.tier == Tier.mulch then
        (match s.setOf e.kvHandle with | some t => s.releaseSet t.ix | none => s) else s
    | none => s
  let s := (((s.freeSeq sid).freeCtx sid).dropSlot sid).dropBacking sid
  let work := s.sch.work.filter fun w => w.sid != sid
  let idle := s.sch.idle.filter fun t => t.sid != sid
  let sch := { s.sch with work := work, idle := idle }
  let intake := { s.intake with streams := s.intake.streams.filter fun x => x.sid != sid }
  let s := { s with sch := sch, intake := intake }
  match s.owner? sid with
  | some e => s.sweepTables e.bed
  | none => s

/-- Free a session's owner state and its entry; a node that is its home keeps the home record, held by `node` at `epoch`
(R97, R104, R105). -/
def State.freeOwner (s : State) (sid : W64) (st : SesState) (node : Nat) (epoch : W32) : State :=
  let s := (s.releaseHoldings sid).forget sid
  match s.entry? sid with
  | some e =>
    if e.isHome then s.updEntry sid fun e =>
      { sid := e.sid, dslot := e.dslot, state := st, isHome := true, ownerNode := node, epoch := epoch
        confirmed := e.confirmed, transcript := e.transcript, expiry := if st == .closed then e.expiry else 0
        recEpoch := epoch, recNode := node }
    else s.freeEntry sid
  | none => s

/-- Record a note of an epoch that waits for the home's answer and send it (R99). -/
def State.noteFor (s : State) (sid : W64) (bed : Nat) (epoch : W32) (close : Bool) : State :=
  let n : Note := { sid := sid, bed := bed, close := close, epoch := epoch, lastSent := s.now }
  let ns := s.ses.notes.filter fun x => x.sid != sid || x.close != close
  let s := { s with ses := { s.ses with notes := ns ++ [n] } }
  s.sendHome sid (if close then .closeNote else .dropNote) { epoch := epoch }

/-- The note of a session that this node holds. -/
def State.sendNote (s : State) (sid : W64) (close : Bool) : State :=
  match s.entry? sid with
  | none => s
  | some e => s.noteFor sid e.bed e.epoch close

/-- The values that SMP_SET and SMP_STOP_SET gave a session stay in its transcript header when its context goes (R251). -/
def State.keepHeader (s : State) (e : Entry) : State :=
  match s.ctx? e.sid, s.profile? e.bed e.profile with
  | some c, some p =>
    if c.next == p.controls e.sid && c.nextStops.isEmpty then s else
      let x : SavedCtl := { sid := e.sid, ctl := c.next, stops := c.nextStops }
      { s with smp := { s.smp with saved := x :: s.smp.saved.filter fun y => y.sid != e.sid } }
  | _, _ => s

/-- A session becomes DROPPED on its owner (R98, R111): holdings released, DROP_NOTE to the home, TTL_DROPPED runs; a
time-to-live of 0 closes it at once. -/
def State.dropSession (s : State) (sid : W64) : State :=
  match s.owner? sid with
  | none => s
  | some e =>
    let ttl := s.rdN .SES_TTL_DROPPED e.bed
    let s := (s.keepHeader e).releaseHoldings sid
    let ex := s.expiryAfter ttl
    let s := s.updEntry sid fun e => { e with
      state := if ttl = 0 then .closed else .dropped
      tier := .none, slot := none, pauseReason := 0, position := 0, turnStart := 0, kvHandle := 0, expiry := ex }
    (s.setStatus F.SES_STATUS_DROPPED e.bed).sendNote sid (ttl == 0)

/-- Close a session (R98): holdings released, CLOSE_NOTE to the home; the entry stays CLOSED until the answer. -/
def State.closeSession (s : State) (sid : W64) : State :=
  let s := (s.releaseHoldings sid).forget sid
  let s := { s with smp := { s.smp with saved := s.smp.saved.filter fun x => x.sid != sid } }
  let s := s.updEntry sid fun e => { e with
    state := .closed, tier := .none, slot := none, pauseReason := 0, position := 0, turnStart := 0, kvHandle := 0
    expiry := 0 }
  s.sendNote sid true

/-- The waits of a session, taken out. -/
def State.takeWaits (s : State) (sid : W64) (p : SesWhy → Bool) : List SesWait × State :=
  let f := fun (w : SesWait) => w.sid == sid && p w.why
  (s.ses.waits.filter f, { s with ses := { s.ses with waits := s.ses.waits.filter fun w => !f w } })

/-- Complete the waiting commands of a session with a status and a result. -/
def State.finishWaits (s : State) (sid : W64) (p : SesWhy → Bool) (st : Nat) (res : Nat := 0) : State :=
  let r := s.takeWaits sid p
  r.1.foldl (fun s w => s.complete? w.d st res) r.2

/-- A command starts to wait. -/
def State.addWait (s : State) (w : SesWait) : State := { s with ses := { s.ses with waits := s.ses.waits ++ [w] } }

end Sys2Proof.Machine
end

