-- ==== Sys2Proof/Machine/SchOps.lean ====
section
/-! DEFINITION. Entering and leaving the Trellis: region placement (R128), what a session takes when its KV enters near
memory (R194, R251), slots (R126), Graft bindings (R185) and the costs of R129. -/

namespace Sys2Proof.Machine

/-! ## Sorting and rounding -/

/-- Insert by an order into an ordered list, after the entries that do not come later. -/
def insertBy {α : Type} (before : α → α → Bool) (a : α) : List α → List α
  | [] => [a]
  | b :: r => if before a b then a :: b :: r else b :: insertBy before a r

/-- A list in order; entries that tie keep their order. -/
def sortBy {α : Type} (before : α → α → Bool) (l : List α) : List α := l.foldl (fun acc a => insertBy before a acc) []

/-- Division rounded up. -/
def ceilDiv (a b : Nat) : Nat := (a + b - 1) / b

/-! ## Placement (R128) -/

/-- Change a profile. -/
def State.updProfile (s : State) (bed id : Nat) (f : Profile → Profile) : State :=
  let ps := updFirst (fun p => p.bed == bed && p.id == id) f s.sch.profiles
  { s with sch := { s.sch with profiles := ps } }

/-- The region of a Bed for a session of a profile (R128). -/
def State.placeRegion (s : State) (bed pid : Nat) : Option Nat :=
  let cost := fun r => match s.profile? bed pid with | some p => Table.get p.cost 0 r | none => 0
  ((s.regionsOf bed).filter fun r => !s.regionPassed r).foldl (fun best r =>
    match best with
    | none => some r
    | some b => if cost r < cost b then some r else some b) none

/-! ## Near memory of a session -/

/-- The bytes of an output context (R251). -/
def ctxBytes : Nat := 16384

/-- The base of a sequence range (R194). -/
def rangeBase (n : Nat) : W64 := BitVec.ofNat 64 (n * 2 ^ 43)

/-- Take an output context in an order of regions (R251, R204). -/
def State.takeCtx (s : State) (bed : Nat) (order : List Nat) : Option (List Nat × State) :=
  (State.takePrune pruneFuel s bed .object ctxBytes order order).map fun x => ([x.1], x.2)

/-- Why near memory refuses: the Bed's quota, or no room (R115, R116, R222). -/
def State.nearRefusal (s : State) (bed : Nat) : Nat := if s.nearQuotaOk bed 1 then St.noResource else St.overQuota

/-- A session's KV enters near memory: region, sequence range, output context (R128, R194, R251). `old` is the context it
brings with it. -/
def State.enterNear (s : State) (e : Entry) (pid : Nat) (old : Option OutCtx) : Except Nat State :=
  match s.placeRegion e.bed pid with
  | none => .error St.fenced
  | some r =>
    match s.freeRange e.bed with
    | none => .error St.noResource
    | some n =>
      match s.takeCtx e.bed (s.frameOrder e.bed r 0 r) with
      | none => .error (s.nearRefusal e.bed)
      | some (near, s) =>
        let fresh : OutCtx :=
          { bed := e.bed, sid := e.sid
            ctl := match s.profile? e.bed pid with | some p => p.controls e.sid | none => {}
            next := match s.profile? e.bed pid with | some p => p.controls e.sid | none => {} }
        let c : OutCtx := { (old.getD fresh) with bed := e.bed, sid := e.sid, near := near }
        let q : Seq := { bed := e.bed, sid := e.sid, range := n, region := r, lastSpread := r }
        let kv := { s.kv with seqs := s.kv.seqs ++ [q] }
        let smp := { s.smp with ctxs := s.smp.ctxs ++ [c] }
        let s := State.clockRestart { s with kv := kv, smp := smp } r
        .ok (s.updEntry e.sid fun e => { e with tier := .near, kvHandle := rangeBase n })

/-- A placement found no region (R128, R140). -/
def State.noRegion (s : State) (bed st : Nat) : State :=
  if st = St.fenced then s.setStatus F.SCH_STATUS_NO_REGION bed else s

/-- A session's KV could not enter near memory: the placement found no region, or the Prune made for it did not suffice and stays
made (R128, R216). -/
def State.nearFails (s : State) (bed pid st : Nat) : State :=
  match s.placeRegion bed pid with
  | none => s.noRegion bed st
  | some r => if (s.freeRange bed).isSome then s.unmet bed r else s

/-! ## Slots (R126) -/

/-- What a session without a slot keeps of one. -/
def State.idle? (s : State) (sid : W64) : Option Slot := s.sch.idle.find? fun t => t.sid == sid

/-- The empty slot record of a session. -/
def blankSlot (e : Entry) : Slot := { ix := 0, sid := e.sid, profile := e.profile, bed := e.bed, region := 0 }

/-- Change what a session keeps without a slot. -/
def State.updIdle (s : State) (e : Entry) (f : Slot → Slot) : State :=
  let t := (s.idle? e.sid).getD (blankSlot e)
  { s with sch := { s.sch with idle := f t :: s.sch.idle.filter fun x => x.sid != e.sid } }

/-- Forget what a session keeps without a slot. -/
def State.dropIdle (s : State) (sid : W64) : State :=
  { s with sch := { s.sch with idle := s.sch.idle.filter fun x => x.sid != sid } }

/-- A session releases its slot and keeps its waiting input and its turn. -/
def State.idleSlot (s : State) (sid : W64) : State :=
  match s.slotOf sid with
  | none => s
  | some t =>
    let idle := t :: s.sch.idle.filter fun x => x.sid != sid
    ({ s with sch := { s.sch with idle := idle } }).dropSlot sid

/-- A session takes the lowest free slot; the recompute positions of a pruned sequence go ahead of other input (R126,
R218). An entry that was in flight when it left its last slot still is (R135), and a GRAFT_BIND not yet applied stays pending
(R187). -/
def State.takeSlot (s : State) (sid : W64) (job : Option W32) : Option State :=
  match s.owner? sid, s.seq? sid, s.freeSlot with
  | some e, some q, some ix =>
    let k := (s.idle? sid).getD (blankSlot e)
    let tree := match s.profile? e.bed e.profile with | some p => p.treeMax | none => 0
    let t : Slot :=
      { ix := ix, sid := sid, profile := e.profile, bed := e.bed, region := q.region, prio := e.prio, turn := k.turn
        final := k.final, job := job.getD k.job, treeNodes := tree,
        client := (job.map fun j => j.toNat / 2 ^ 24).getD (k.chClient.getD k.client), graft := e.graft, position := e.position
        pend := q.recompute ++ k.pend, known := q.recompute.length + k.known, playEnd := k.playEnd, inputFt := k.inputFt, furrow := e.furrow.getD 0
        lastStep := k.lastStep, noInputEvent := k.noInputEvent, chGraft := k.chGraft
        inFlight := s.sch.work.any fun w => w.sid == sid }
    let s := State.clockRestart { s with sch := { s.sch with slots := t :: s.sch.slots } } q.region
    let s := (s.dropIdle sid).updSeq sid fun q => { q with recompute := [] }
    some (s.updEntry sid fun e => { e with state := .live, slot := some ix, pauseReason := 0, expiry := 0 })
  | _, _, _ => none

/-- What a session keeps, in its slot or without one. -/
def State.seat? (s : State) (sid : W64) : Option Slot := (s.slotOf sid).or (s.idle? sid)

/-- Change what a session keeps, in its slot or without one. -/
def State.updSeat (s : State) (sid : W64) (f : Slot → Slot) : State :=
  if (s.slotOf sid).isSome then s.updSlot sid f
  else { s with sch := { s.sch with idle := updFirst (fun t => t.sid == sid) f s.sch.idle } }

/-- Add waiting positions to a session, in its slot or in what it keeps without one (R126 PENDING, INPUT_FT). -/
def State.addPending (s : State) (e : Entry) (toks : List W32) (front final : Bool) : State :=
  let f := fun (t : Slot) => { t with
    pend := if front then t.pend.take t.known ++ toks ++ t.pend.drop t.known else t.pend ++ toks
    final := t.final || final
    finalLate := t.finalLate || (final && t.inFlight)
    inputFt := if t.pend.isEmpty && !toks.isEmpty then BitVec.ofNat 32 (ftSample s.now) else t.inputFt }
  if (s.slotOf e.sid).isSome then s.updSlot e.sid f else s.updIdle e f

/-! ## Grafts -/

/-- The current version of a Graft of a Bed (R181). -/
def State.graft? (s : State) (bed id : Nat) : Option Graft :=
  s.grafts.find? fun g => g.bed == bed && g.id == id && g.current

/-- A held version. -/
def State.graftV? (s : State) (bed id : Nat) (v : W32) : Option Graft :=
  s.grafts.find? fun g => g.bed == bed && g.id == id && g.version == v

/-- Change a held version. -/
def State.updGraft (s : State) (bed id : Nat) (v : W32) (f : Graft → Graft) : State :=
  { s with grafts := updFirst (fun g => g.bed == bed && g.id == id && g.version == v) f s.grafts }

/-- RANK (R180). -/
def graftRank (g : Graft) : Nat := bytesAt g.table 6 1

/-- LAYERS (R180). -/
def graftLayers (g : Graft) : Nat := bytesAt g.table 20 2

/-- Bindings of a version: entries in flight bound to it (R185). -/
def State.bindings (s : State) (bed id : Nat) (v : W32) : Nat :=
  (s.sch.work.filter fun w => w.bed == bed && w.graft == some (id, v)).length

/-- Remove a version and what it holds. A move of it ends, and a command that waits for it completes with NOT_FOUND: the spec names
no status (log entry 34). -/
def State.freeGraft (s : State) (bed id : Nat) (v : W32) : State :=
  match s.graftV? bed id v with
  | none => s
  | some g =>
    let gs := s.grafts.filter fun x => !(x.bed == bed && x.id == id && x.version == v)
    let ms := s.tiers.moves.filter fun m => m.what == .graft bed id v
    let tiers := { s.tiers with moves := s.tiers.moves.filter fun m => m.what != .graft bed id v }
    let s := State.giveBackAll { s with grafts := gs, tiers := tiers } g.near
    let s := ms.foldl (fun s m => (match m.dst with | some x => s.releaseSet x | none => s).complete? m.d St.notFound) s
    let s := match g.stow with | some (_, d) => s.complete d St.notFound | none => s
    match g.set with
    | some ix => s.releaseSet ix
    | none => s

/-- A version that is no longer current leaves the table when its last binding ends (R185). -/
def State.retireGraft (s : State) (bed id : Nat) (v : W32) : State :=
  match s.graftV? bed id v with
  | some g => if g.current || s.bindings bed id v != 0 then s else s.freeGraft bed id v
  | none => s

/-! ## Costs and budgets (R129, R130) -/

/-- G of R129 for a rank. -/
def graftMac (p : Profile) (rank : Nat) : Nat :=
  rank * (4 * p.hidden + 2 * p.qheads * p.headDim + 2 * p.kvheads * p.headDim)

/-- K of R129. -/
def decodePages (n e : Nat) : Nat := ceilDiv (ceilDiv n 16 * e) 256

/-- The cost of a decode at width `w`: bytes and MAC. P is DATA_BYTES (R197). -/
def decodeCost (p : Profile) (n e w g : Nat) : Nat × Nat :=
  (p.layers * decodePages n e * p.dataBytes,
   w * p.layers * p.qheads * p.headDim * 2 * 16 * decodePages n e + w * p.layers * g)

/-- The cost of a prefill chunk of `k` positions: bytes and MAC. The half positions of the formula are kept exact. -/
def prefillCost (p : Profile) (n k g : Nat) : Nat × Nat :=
  (p.layers * ceilDiv (n + k) 16 * p.dataBytes,
   p.layers * p.qheads * p.headDim * k * (2 * n + (k + 1)) + k * p.layers * g)

/-- A percentage register as R140 reads it. -/
def percentOf (v : Nat) : Nat := if v = 0 then 1 else min v 100

/-- E of R129 (SCH_SKIP_EST). -/
def State.skipEst (s : State) (bed : Nat) : Nat :=
  let v := s.fget F.SCH_SKIP_EST_VALUE bed
  if v = 0 then 1 else min v 256

/-- Bb and Bm of R130 for a region: the exact budgets times 10,000, so that no product is rounded. -/
def State.budget (s : State) (p : Profile) (r : Nat) : Nat × Nat :=
  let bw := percentOf (s.fget F.SCH_CTRL_BW_SHARE p.bed)
  let ar := percentOf (s.fget F.SCH_CTRL_ARITH_SHARE p.bed)
  let mhz := s.fget F.RGN_CLK_STATUS_FREQ_MHZ r
  let bm := 131072 * mhz * 1000000 * p.period * ar * p.share / 48000
  (32000000 * p.period * bw * p.share, if p.kvFormat = 0 then bm / 2 else bm)

/-- Costs fit a budget (R130). -/
def fits (c b : Nat × Nat) : Bool := decide (c.1 * 10000 ≤ b.1) && decide (c.2 * 10000 ≤ b.2)

/-- Two costs together. -/
def costAdd (a b : Nat × Nat) : Nat × Nat := (a.1 + b.1, a.2 + b.2)

end Sys2Proof.Machine
end

