-- ==== Sys2Proof/Machine/TierOps.lean ====
section
/-! DEFINITION. Tensor sets, their storage and their charges, and the start of a move (R284 to R300). -/

namespace Sys2Proof.Machine

/-- The device physical address of an entry of the tensor-set table (R287, R510). -/
def setPa (ix : Nat) : Nat := ix % 16 * 2 ^ 37 + setOffset + ix / 16 * 64

/-! ## Charges (R299) -/

/-- Image bytes per CXL block and the bytes a block takes (R285). -/
def imgBlock : Nat := 32768
def cxlBlock : Nat := 36864
def mib : Nat := 1048576

/-- Blocks of an image. -/
def blocksOf (len : Nat) : Nat := ceilDiv len imgBlock

/-- The charge of an image in MiB: 36 KiB for every block on the CXL tier, LENGTH in the Mulch (R299). -/
def cxlCharge (len : Nat) : Nat := ceilDiv (blocksOf len * cxlBlock) mib
def mulchCharge (len : Nat) : Nat := ceilDiv len mib

/-- CXL and Mulch use of a Bed in MiB (R299); a shard whose set a reset took counts too (R414). -/
def State.useCxl (s : State) (bed : Nat) : Nat :=
  ((s.tiers.sets.filter fun t => t.state != .free && t.tier == 1 && t.bed == bed).map fun t => cxlCharge t.length).sum
def State.useMulch (s : State) (bed : Nat) : Nat :=
  ((s.tiers.sets.filter fun t => t.state != .free && t.tier == 2 && t.bed == bed).map fun t => mulchCharge t.length).sum +
  ((s.ck.stored.filter fun x => x.bed == bed && x.place == 0 && x.set.isNone).map fun x => mulchCharge x.bytes.length).sum

/-! ## CXL ports and extents (R284, R286, R295) -/

/-- The extents of a port that a Bed may use (R295): ACTIVE, its own or the pool's. -/
def State.usable (s : State) (bed port : Nat) : List Extent :=
  s.tiers.extents.filter fun e => e.port == port && e.state == .active && (e.owner == bed || e.owner == 0xFF) &&
    !s.flt.ports.contains (8 + port)

/-- The runs that lie on a port: window offset and length in bytes. -/
def State.runsOn (s : State) (port : Nat) : List (Nat × Nat) :=
  List.flatten (s.tiers.sets.map fun t =>
    if t.state == .free then [] else (t.runs.filter fun r => r.1 == port).map fun r => (r.2.1, r.2.2))

/-- A run meets an extent. -/
def runIn (e : Extent) (r : Nat × Nat × Nat) : Bool :=
  e.port == r.1 && decide (r.2.1 < e.off + e.len) && decide (e.off < r.2.1 + r.2.2)

/-- A run lies whole in one extent of those given. -/
def inside (es : List Extent) (off len : Nat) : Bool :=
  es.any fun e => decide (e.off ≤ off) && decide (off + len ≤ e.off + e.len)

/-- The lowest place for a run of `len` bytes on a port: the start of a usable extent, or the end of a run. The spec does not
say which place is taken: DESIGN CHOICE (log entry 14). -/
def State.runPlace (s : State) (bed port len : Nat) : Option Nat :=
  let es := s.usable bed port
  let rs := s.runsOn port
  let cands := sortBy (fun a b => decide (a < b)) (es.map (fun e => e.off) ++ rs.map (fun r => r.1 + r.2))
  cands.find? fun off => inside es off len && rs.all fun r => decide (off + len ≤ r.1) || decide (r.1 + r.2 ≤ off)

/-- Bytes of the run on the j-th of k ports (R286). -/
def runLen (len k j : Nat) : Nat := ((blocksOf len + k - 1 - j) / k) * cxlBlock

/-- The ports among `ps` that have room for their runs. -/
def State.roomy (s : State) (bed len : Nat) (ps : List Nat) : List Nat :=
  (ps.zipIdx.filter fun x => (s.runPlace bed x.1 (runLen len ps.length x.2)).isSome).map fun x => x.1

/-- The ports over which an image is striped (R286): every port with a usable extent and room for its run; a port without
room is left out and the rest are tried again. -/
def State.stripePorts (s : State) (bed len : Nat) : Nat → List Nat → List Nat
  | 0, _ => []
  | n + 1, ps =>
    let r := s.roomy bed len ps
    if r.length = ps.length then ps else s.stripePorts bed len n r

/-- The runs of an image on the CXL tier, if there is room (R286, R294). -/
def State.cxlPlace (s : State) (bed region len : Nat) : Option (List (Nat × Nat × Nat)) :=
  let all := (List.range 4).filter fun p => !(s.usable bed p).isEmpty
  let ps := if s.fget F.TIER_CTRL_STRIPE bed = 1 then s.stripePorts bed len 5 all else
    let one := all.filter fun p => (s.runPlace bed p (runLen len 1 0)).isSome
    if one.contains (dieOf region) then [dieOf region] else one.take 1
  if ps.isEmpty then none else
    some ((ps.zipIdx).filterMap fun x =>
      (s.runPlace bed x.1 (runLen len ps.length x.2)).map fun off => (x.1, off, runLen len ps.length x.2))

/-! ## Tensor sets (R287) -/

/-- The lowest entry of the table that is free. -/
def State.freeSetIx (s : State) : Option Nat :=
  firstFrom 0 (fun i => s.tiers.sets.all fun t => t.ix != i || t.state == .free) 262144

/-- Put a set into its entry: GEN grows at each reuse (R287). -/
def State.putSet (s : State) (t : TensorSet) : State :=
  let gen := match s.tiers.sets.find? fun x => x.ix == t.ix with | some x => (x.gen + 1) % 2 ^ 24 | none => 0
  let t := { t with gen := gen }
  { s with tiers := { s.tiers with sets := t :: s.tiers.sets.filter fun x => x.ix != t.ix } }

/-- The set at an index. -/
def State.setIx? (s : State) (ix : Nat) : Option TensorSet :=
  s.tiers.sets.find? fun t => t.ix == ix && t.state != .free

/-- Why a tier does not accept an image, if it does not (R294). -/
def State.tierRefusal (s : State) (bed region len tier : Nat) : Option Nat :=
  if tier = 1 then
    if s.useCxl bed + cxlCharge len ≤ s.rdN .TIER_QUOTA_CXL bed then
      (if (s.cxlPlace bed region len).isSome && s.freeSetIx.isSome then none else some St.noResource)
    else some St.overQuota
  else if s.useMulch bed + mulchCharge len ≤ s.rdN .TIER_QUOTA_MULCH bed then
    (if (s.mulchRun len).isSome && s.freeSetIx.isSome then none else some St.noResource)
  else some St.overQuota

/-- Take a FILLING set for an image in a tier that accepts it; the answer is its index. -/
def State.takeSet (s : State) (t : TensorSet) (region : Nat) : Option (Nat × State) :=
  match s.freeSetIx with
  | none => none
  | some ix =>
    if t.tier = 1 then
      (s.cxlPlace t.bed region t.length).map fun rs =>
        (ix, s.putSet { t with ix := ix, state := .filling, runs := rs })
    else
      (s.mulchTake .image t.length).map fun x => (ix, x.2.putSet { t with ix := ix, state := .filling, mulch := x.1 })

/-- The 64-byte image of an entry (R287). -/
def setBytes (t : TensorSet) : List Byte :=
  let st := match t.state with | .free => 0 | .filling => 1 | .complete => 2 | .lost => 3 | .backing => 4
  let base := fun p => if t.tier = 2 then (if p = 0 then t.mulch.toNat else 0) else
    match t.runs.find? fun r => r.1 == p with | some r => r.2.1 | none => 0
  if t.state == .free then leBytes 4 0 ++ leBytes 3 t.gen ++ leBytes 57 0 else
  [BitVec.ofNat 8 st, BitVec.ofNat 8 t.kind, BitVec.ofNat 8 (t.tier + 4 * t.bed),
   BitVec.ofNat 8 (if t.tier = 2 then 0 else (t.runs.map fun r => 2 ^ r.1).sum)] ++
  leBytes 3 t.gen ++ [if t.drain then 1 else 0] ++ leBytes 8 t.owner.toNat ++ leBytes 8 t.length ++
  List.flatten ((List.range 4).map fun p => leBytes 8 (base p)) ++ leBytes 5 t.expiry ++ leBytes 3 0

/-! ## Images (R289) -/

/-- CAPACITY: pages per layer of a session image. -/
def capacityOf (position : Nat) : Nat := ceilDiv (ceilDiv position 16) 64 * 64

/-- LENGTH of a session image. -/
def imageLength (p : Profile) (position : Nat) : Nat := 20480 + p.layers * capacityOf position * p.pageBytes

/-- The image bytes of piece `k` of a move of a set in `pieces` pieces (R289, R290): the first carries the header, and the output
context of a session, with layer 0; each later one a layer. A stored shard moves in one piece. -/
def pieceSpan (t : TensorSet) (pieces k : Nat) : Nat × Nat :=
  match t.kind with
  | 0 =>
    let per := capacityOf t.position * t.shape.2.2
    (if k = 0 then 0 else 20480 + k * per, 20480 + (k + 1) * per)
  | 1 =>
    let per := (t.length - 64) / max 1 pieces
    (if k = 0 then 0 else 64 + k * per, if k + 1 = pieces then t.length else 64 + (k + 1) * per)
  | _ => (0, t.length)

/-- The image bytes of a page of a session image (R289). -/
def pageSpan (p : Profile) (position layer page : Nat) : Nat × Nat :=
  let o := 20480 + (layer * capacityOf position + page) * p.pageBytes
  (o, o + p.pageBytes)

/-- What passes from near memory in one layer: page, SV and bytes of each frame. -/
def State.layerPages (s : State) (p : Profile) (q : Seq) (layer : Nat) (only : Leaf → Bool) :
    List (Nat × Nat × Bool × List Byte) :=
  (q.leaves.filter fun l => l.layer == layer && only l).map fun l =>
    (l.layer, l.page, l.sv, s.nearRead l.frame p.pageBytes)

/-- Some frame of a layer carries poison, or lies in a fenced region. -/
def State.layerPoison (s : State) (p : Profile) (q : Seq) (layer : Nat) : Bool :=
  q.leaves.any fun l => l.layer == layer &&
    (s.nearPoison l.frame p.pageBytes || s.flt.regions.contains (paRegion l.frame))

/-! ## Moves (R290) -/

/-- A move by number. -/
def State.move? (s : State) (ix : Nat) : Option Move := s.tiers.moves.find? fun m => m.ix == ix

/-- The move of a tensor. -/
def State.moveOf (s : State) (w : MoveWhat) : Option Move := s.tiers.moves.find? fun m => m.what == w

/-- Change a move. -/
def State.updMove (s : State) (ix : Nat) (f : Move → Move) : State :=
  { s with tiers := { s.tiers with moves := updFirst (fun m => m.ix == ix) f s.tiers.moves } }

/-- A move leaves the queue. -/
def State.dropMove (s : State) (ix : Nat) : State :=
  { s with tiers := { s.tiers with moves := s.tiers.moves.filter fun m => m.ix != ix } }

/-- Queue a move. -/
def State.addMove (s : State) (m : Move) : State :=
  let ms := s.tiers.moves ++ [{ m with ix := s.tiers.nextMove }]
  { s with tiers := { s.tiers with moves := ms, nextMove := s.tiers.nextMove + 1 } }

/-- Clear DIRTY in the leaves of a layer (R219). -/
def State.cleanLayer (s : State) (sid : W64) (layer : Nat) : State :=
  s.updSeq sid fun q => { q with leaves := updAll (fun l => l.layer == layer) (fun l => { l with dirty := false }) q.leaves }

/-- A backing set can take a write-back: it is BACKING, not expired, and every layer fits its CAPACITY (R293). -/
def State.writeBackSet (s : State) (sid : W64) (len : Nat) : Option TensorSet :=
  (s.backing? sid).filter fun t => !t.drain && (t.expiry == 0 || ftLater (ftExtend40 t.expiry) s.now) &&
    decide (len ≤ t.length)

/-- Start the downward move of a session that is in near memory (R291, R293). The status says why it cannot start. -/
def State.startDown (s : State) (e : Entry) (tier : Nat) (d : Option Desc) : Except Nat State :=
  match s.seq? e.sid, s.profile? e.bed e.profile with
  | some q, some p =>
    let len := imageLength p e.position
    let m : Move :=
      { ix := 0, what := .session e.sid, cls := 4, bed := e.bed, region := q.region, fromTier := 0, toTier := tier
        pieces := p.layers, d := d }
    let go := fun (s : State) (m : Move) =>
      .ok ((s.addMove m).updSeq e.sid fun q => { q with copy := some {} })
    match (if tier = 1 then s.writeBackSet e.sid len else none) with
    | some t => go (s.updSet t.ix fun t => { t with state := .filling }) { m with dst := some t.ix, writeBack := true }
    | none =>
      let s' := s.dropBacking e.sid
      match s'.tierRefusal e.bed q.region len tier with
      | some st => .error st
      | none =>
        let t : TensorSet :=
          { ix := 0, kind := 0, tier := tier, bed := e.bed, owner := e.sid, length := len
            shape := (p.layers, p.kvFormat, p.pageBytes), position := e.position }
        match s'.takeSet t q.region with
        | some (ix, s) => go s { m with dst := some ix }
        | none => .error St.noResource
  | _, _ => .error St.noResource

/-- Start a move of a parked session from the CXL tier to the Mulch (R98 TTL_CXL, R296); `srcPort` names the region whose
queue holds it. -/
def State.startSink (s : State) (t : TensorSet) (tier : Nat) : Except Nat State :=
  let region := match s.regionsOf t.bed with | r :: _ => r | [] => 0
  match s.tierRefusal t.bed region t.length tier with
  | some st => .error st
  | none =>
    match s.takeSet { t with tier := tier, runs := [], mulch := 0, expiry := 0, drain := false } region with
    | none => .error St.noResource
    | some (ix, s) =>
      .ok (s.addMove
        { ix := 0, what := if t.kind = 0 then .session t.owner else .relocate t.ix, cls := 4, bed := t.bed
          region := region, fromTier := t.tier, toTier := tier, src := some t.ix, dst := some ix
          pieces := match t.kind with | 0 => max 1 t.shape.1 | 1 => max 1 (bytesAt t.bytes 20 2) | _ => 1 })

/-- Start the upward move of a parked session (R98, R292); class 1 when input waits (R290). -/
def State.startUp (s : State) (e : Entry) (t : TensorSet) (input : Bool) (d : Option Desc) : Except Nat State :=
  match s.enterNear e e.profile t.ctx with
  | .error st => .error st
  | .ok s =>
    let layers := match s.profile? e.bed e.profile with | some p => p.layers | none => 1
    let region := match s.seq? e.sid with | some q => q.region | none => 0
    let s := s.updSeq e.sid fun q => match t.seq with
      | some o => { q with tokens := o.tokens, rootKey := o.rootKey, runKey := o.runKey, runOpen := o.runOpen
                           recompute := o.recompute }
      | none => q
    let s := s.updEntry e.sid fun x => { x with tier := e.tier, kvHandle := e.kvHandle, expiry := 0 }
    .ok (s.addMove
      { ix := 0, what := .session e.sid, cls := if input then 1 else 3, bed := e.bed, region := region
        fromTier := t.tier, toTier := 0, src := some t.ix, pieces := layers, d := d })

/-- Near memory for a Graft version that is brought back, with Prune where R216 allows; what Prune took stays taken where it does not
suffice (R186, R292). -/
def State.graftNear (s : State) (g : Graft) (region : Nat) : Option (List Nat) × State :=
  if !g.near.isEmpty then (some g.near, s) else
    match s.takeObject g.bed g.table.length (s.bedOrder g.bed) with
    | some (l, s) => (some l, s)
    | none =>
      let s := s.unmet g.bed region
      match s.takeObject g.bed g.table.length (s.bedOrder g.bed) with
      | some (l, s) => (some l, s)
      | none => (none, s.setStatus F.TIER_STATUS_NO_ROOM g.bed)

/-- Start to bring a stowed Graft version back (R186). Without near memory its move waits in its class (R292). -/
def State.startGraftUp (s : State) (g : Graft) (d : Option Desc) : State :=
  let region := match s.regionsOf g.bed with | r :: _ => r | [] => 0
  let (near, s) := s.graftNear g region
  let s := s.updGraft g.bed g.id g.version fun g => { g with near := near.getD [], moving := true, resident := 0 }
  s.addMove { ix := 0, what := .graft g.bed g.id g.version, cls := 3, bed := g.bed, region := region, fromTier := g.tier
              toTier := 0, src := g.set, pieces := graftLayers g, waiting := near.isNone, d := d }

/-- Start to stow a Graft version (R186, R294). -/
def State.startStow (s : State) (g : Graft) (tier : Nat) (d : Option Desc) : Except Nat State :=
  let region := match s.regionsOf g.bed with | r :: _ => r | [] => 0
  let len := g.table.length
  match s.tierRefusal g.bed region len tier with
  | some st => .error st
  | none =>
    let t : TensorSet :=
      { ix := 0, kind := 1, tier := tier, bed := g.bed
        owner := BitVec.ofNat 64 (g.id + g.version.toNat * 2 ^ 32), length := len }
    match s.takeSet t region with
    | none => .error St.noResource
    | some (ix, s) =>
      let s := s.updGraft g.bed g.id g.version fun g => { g with moving := true, stow := none }
      .ok (s.addMove { ix := 0, what := .graft g.bed g.id g.version, cls := 4, bed := g.bed, region := region, fromTier := g.tier
                       toTier := tier, src := g.set, dst := some ix, pieces := graftLayers g, d := d })

/-- A stow that waited for bindings starts when the last of them has ended (R186). -/
def State.pendingStow (s : State) (bed id : Nat) (v : W32) : State :=
  match s.graftV? bed id v with
  | some g =>
    match g.stow with
    | some (tier, d) =>
      if s.bindings bed id v = 0 then
        match s.startStow g tier (some d) with
        | .ok s => s
        | .error st => (s.updGraft bed id v fun g => { g with stow := none }).complete d st
      else s
    | none => s
  | none => s

/-- The park order of a session (R300): the tiers tried. -/
def State.parkTiers (s : State) (sid : W64) : List Nat :=
  let o := match s.ctx? sid with
    | some c => c.parkOrder
    | none => match s.tiers.sets.find? fun t => t.kind == 0 && t.owner == sid && t.state != .free with
      | some t => (match t.ctx with | some c => c.parkOrder | none => 0)
      | none => 0
  match o with | 1 => [2] | 2 => [1] | _ => [1, 2]

/-- The time-to-live of a tier (R98). -/
def State.tierTtl (s : State) (bed tier : Nat) : Nat :=
  if tier = 1 then s.rdN .SES_TTL_CXL bed else s.rdN .SES_TTL_MULCH bed

end Sys2Proof.Machine
end

