-- ==== Sys2Proof/Machine/CkOps.lean ====
section
/-! DEFINITION. Checkpoints as the scheduler and the session commands meet them (R409, R410, R413, R424). -/

namespace Sys2Proof.Machine

/-! ## Covered sessions -/

/-- The checkpoint that a Bed takes part in. -/
def State.ckPart? (s : State) (bed : Nat) : Option CkPart := s.ck.parts.find? fun p => p.bed == bed

/-- Change it. -/
def State.updPart (s : State) (bed : Nat) (f : CkPart → CkPart) : State :=
  { s with ck := { s.ck with parts := updFirst (fun p => p.bed == bed) f s.ck.parts } }

/-- Change a covered session. -/
def State.updCkSes (s : State) (bed : Nat) (sid : W64) (f : CkSes → CkSes) : State :=
  s.updPart bed fun p => { p with sessions := updFirst (fun x => x.entry.sid == sid) f p.sessions }

/-- A session of a Bed is covered by a checkpoint that has been cut (R409). -/
def State.ckCovered (s : State) (bed : Nat) (sid : W64) : Bool :=
  s.ck.parts.any fun p => p.bed == bed && decide (2 ≤ p.phase) && p.sessions.any fun x => x.entry.sid == sid

/-- A covered session is held because its checkpoint has EVICT (R410), or because it is captured before any later admission
(R409). -/
def State.ckHeld (s : State) (bed : Nat) (sid : W64) : Bool :=
  s.ck.parts.any fun p => p.bed == bed && decide (2 ≤ p.phase) &&
    p.sessions.any fun x => x.entry.sid == sid && (p.evict || !x.captured)

/-! ## Snapshots (R220) -/

/-- Take the snapshot of a sequence: COW in every private leaf, a reference more to every shared node. -/
def State.takeSnapshot (s : State) (sid : W64) (position : Nat) : State :=
  match s.seq? sid with
  | none => s
  | some q =>
    let x : Snapshot := { seq := q, position := position, ctx := s.ctx? sid }
    let s := { s with kv := { s.kv with snaps := s.kv.snaps ++ [x] } }
    let s := s.updSeq sid fun q => { q with leaves := q.leaves.map fun l => if l.shared then l else { l with cow := true } }
    (q.leaves.filter fun l => l.shared && l.layer == 0).foldl (fun s l =>
      s.updNode q.bed l.node fun n => { n with refs := n.refs + 1 }) s

/-- The snapshot of a session. -/
def State.snap? (s : State) (bed : Nat) (sid : W64) : Option Snapshot :=
  s.kv.snaps.find? fun x => x.seq.bed == bed && x.seq.sid == sid

/-- Some snapshot holds a frame (R200, COW). -/
def State.snapHolds (s : State) (frame : Nat) : Bool := s.kv.snaps.any fun x => x.seq.leaves.any fun l => l.frame == frame

/-- Release the snapshots of a Bed: a frame goes with its last holder, and COW clears where no snapshot holds the frame (R200). -/
def State.dropSnapshots (s : State) (bed : Nat) : State :=
  let mine := s.kv.snaps.filter fun x => x.seq.bed == bed
  let s := { s with kv := { s.kv with snaps := s.kv.snaps.filter fun x => x.seq.bed != bed } }
  let s := mine.foldl (fun s x => x.seq.leaves.foldl (fun s l => s.releaseLeaf bed l) s) s
  mine.foldl (fun s x => s.updSeq x.seq.sid fun q => { q with
    leaves := q.leaves.map fun l => { l with cow := l.cow && s.snapHolds l.frame } }) s

/-! ## Transcripts of covered sessions (R413) -/

/-- A transcript is here: the shard holds the tokens of its positions; those of a dropped session, whose POSITION is 0, whole. -/
def State.ckTranscript (s : State) (bed : Nat) (sid : W64) (toks : List W32) : State :=
  s.updCkSes bed sid fun x =>
    { x with resolved := true, got := [], trx := some (if x.entry.state == .dropped then toks else toks.take x.entry.position) }

/-- Ask the home for the transcript of a captured session once POSITION is confirmed. -/
def State.ckAsk (s : State) (bed : Nat) (sid : W64) : State :=
  match (s.ckPart? bed).bind fun p => p.sessions.find? fun x => x.entry.sid == sid with
  | none => s
  | some x =>
    if !x.captured || x.resolved || x.asked then s
    else if s.isHome sid then
      match s.ses.transcripts.find? fun t => t.sid == sid with
      | some t => if x.entry.state == .dropped || decide (x.entry.position ≤ t.tokens.length) then s.ckTranscript bed sid t.tokens else s
      | none => if x.entry.position = 0 then s.ckTranscript bed sid [] else s
    else if s.ses.map.isNone then s.updCkSes bed sid fun x => { x with resolved := true }
    else if x.entry.state == .dropped || ((s.owner? sid).any fun e => decide (x.entry.position ≤ e.confirmed)) then
      (s.updCkSes bed sid fun x => { x with asked := true }).sendHome sid .trxFetch {}
    else s

/-- A covered session that was IN_FLIGHT at CUT is captured when IN_FLIGHT clears, before any later admission (R409). -/
def State.ckCapture (s : State) (bed : Nat) (sid : W64) : State :=
  match (s.ckPart? bed).bind fun p => p.sessions.find? fun x => x.entry.sid == sid, s.owner? sid with
  | some x, some e =>
    if x.captured then s else
      let turn := match s.seat? sid with | some t => t.turn | none => x.turn
      let s := s.takeSnapshot sid e.position
      let s := s.updCkSes bed sid fun x => { x with
        captured := true, turn := turn, entry := { x.entry with position := e.position, confirmed := e.confirmed } }
      s.ckAsk bed sid
  | _, _ => s

/-! ## Old partner groups (R424) -/

/-- The old group that an entry admitted at `step` still uses: the first that a regrouping after it replaced. -/
def State.oldGroup (s : State) (bed group : Nat) (step : W64) : Option CkOldGroup :=
  s.ck.olds.find? fun o => o.bed == bed && o.group == group && ftLater o.before step

/-- The nodes of a group as four register values name them: the step node and the accepted nodes (R192). -/
def groupNodes (vs : List Nat) : Option Nat × List Nat :=
  let one := fun (v : Nat) => if v / 2 ^ 15 % 2 = 1 then [v % 512] else []
  (if (vs.getD 0 0) / 2 ^ 31 = 1 then some (vs.getD 0 0 % 512) else none,
   List.flatten ((vs.drop 1).map fun v => one (v % 2 ^ 16) ++ one (v / 2 ^ 16)))

end Sys2Proof.Machine
end

