-- ==== Sys2Proof/Machine/LxOps.lean ====
section
/-! DEFINITION. Rollback (R209), the end of a Graft binding (R185) and the
abandonment of an entry (R176). -/

namespace Sys2Proof.Machine

/-- The frame order of a sequence's new frames under its placement hint (R204, R300). -/
def State.seqOrder (s : State) (q : Seq) : List Nat :=
  let hint := match s.ctx? q.sid with | some c => c.hint | none => 0
  s.frameOrder q.bed q.region hint q.lastSpread

/-- Take a frame for a sequence, with Prune where R216 allows (R207). Under SPREAD the region is noted (R300). -/
def State.takeFrame (s : State) (q : Seq) (p : Profile) : Option (Nat × State) :=
  (State.takePrune pruneFuel s q.bed (.frames p.frameBytes) p.frameBytes (s.seqOrder q) (s.seqOrder q)).map fun x =>
    (x.1, x.2.updSeq q.sid fun q => { q with lastSpread := paRegion x.1 })

/-- Replace a leaf of a sequence. -/
def State.putLeaf (s : State) (sid : W64) (l : Leaf) : State := s.updSeq sid fun q => q.setLeaf l

/-- Copy the page of a leaf, with its summary, to a private frame that starts DIRTY, and let the old one go (R209, R220).
`none` when no frame can be had. -/
def State.privateCopy (s : State) (q : Seq) (p : Profile) (l : Leaf) : Option State :=
  (s.takeFrame q p).map fun x =>
    let s := (x.2.copyFrame l.frame x.1 p.frameBytes).putLeaf q.sid
      { l with frame := x.1, node := 0, shared := false, cow := false, dirty := true }
    s.releaseLeaf q.bed l

/-- Let every page at or above an index go, in every layer. -/
def State.dropPages (s : State) (q : Seq) (page : Nat) : State :=
  let gone := q.leaves.filter fun l => page ≤ l.page
  let s := s.updSeq q.sid fun q => { q with leaves := q.leaves.filter fun l => !decide (page ≤ l.page) }
  gone.foldl (fun s l => s.releaseLeaf q.bed l) s

/-- Make the partial page at `page` private in every layer where it is SHARED. -/
def State.unshare (s : State) (sid : W64) (p : Profile) (page : Nat) : State :=
  match s.seq? sid with
  | none => s
  | some q => (q.leaves.filter fun l => l.page == page && l.shared).foldl (fun s l =>
      match s.seq? sid with
      | none => s
      | some q =>
        match s.privateCopy q p l with
        | some s => s
        | none => s.setStatus F.KV_STATUS_NO_FRAME q.bed) s

/-- Roll a sequence back to `n` positions (R209). -/
def State.rollback (s : State) (sid : W64) (p : Profile) (n : Nat) : State :=
  match s.seq? sid with
  | none => s
  | some q =>
    let s := s.dropPages q (ceilDiv n 16)
    let s := if n % 16 = 0 then s else s.unshare sid p (n / 16)
    let r := s.runAfter q n
    let s := s.updSeq sid fun q => { q with tokens := q.tokens.take n, runOpen := r.1, runKey := r.2 }
    s.setPosition sid n

/-- The step node of a profile's partner group, if the group holds one (R170, R192). -/
def State.stepNode (s : State) (p : Profile) : Option Nat :=
  if s.fget F.LX_GROUP_STEP_VALID p.bed p.partnerGroup = 1 then
    some (s.fget F.LX_GROUP_STEP_NODE p.bed p.partnerGroup) else none

/-- The step node of an entry: that of the old group for an entry admitted before a regrouping (R424). -/
def State.stepNodeOf (s : State) (p : Profile) (w : Work) : Option Nat :=
  match s.oldGroup p.bed p.partnerGroup w.step with
  | some o => (groupNodes o.values).1
  | none => s.stepNode p

/-- A layer exchange message from this node about an entry (R169). -/
def State.lxHdr (s : State) (w : Work) : LxHdr :=
  { sender := s.node, slot := w.slot, sid := w.sid, step := ftSample w.step, graft := w.graft.isSome }

/-- State trace of an entry (R482): its state code, layer and positions. -/
def State.traceEntry (s : State) (w : Work) (code layer positions : Nat) : State :=
  s.trace 1 4 10 w.region (.region w.region) (some w.bed) w.slot
    (leBytes 4 w.base ++ leBytes 2 layer ++ leBytes 2 code ++ leBytes 2 w.range ++ leBytes 2 positions ++ leBytes 4 0)

/-- IN_FLIGHT of a session clears and its Graft binding ends (R135, R185); a checkpoint that waited for it captures the session
(R409). -/
def State.endWork (s : State) (w : Work) : State :=
  let s := s.traceEntry w 5 0 w.toks.length
  let s := { s with sch := { s.sch with work := s.sch.work.filter fun x => x.sid != w.sid } }
  let s := (s.updSeat w.sid fun t => { t with inFlight := false }).ckCapture w.bed w.sid
  match w.graft with
  | some (g, v) => (s.retireGraft w.bed g v).pendingStow w.bed g v
  | none => s

/-- Abandon an entry (R176). -/
def State.abandon (s : State) (w : Work) : State :=
  let p? := s.profile? w.bed w.profile
  let s := match p? with
    | some p => s.rollback w.sid p w.base
    | none => s
  let s := (s.traceEntry w 6 w.layer w.toks.length).count w.region 0x15 0 (some w.bed) 1
  let s := (s.endWork w).bump .LX_ABANDONED w.bed
  let s := s.setStatus F.LX_STATUS_ABANDONED w.bed
  match p?.bind fun p => s.stepNodeOf p w with
  | some n => s.emit { dest := n, bed := some w.bed, msg := .lxReject { s.lxHdr w with code := 7 } }
  | none => s

/-- Abandon the entries that satisfy `f`. -/
def State.abandonAll (s : State) (f : Work → Bool) : State :=
  (s.sch.work.filter f).foldl (fun s w => s.abandon w) s

end Sys2Proof.Machine
end

