-- ==== Sys2Proof/Machine/Revive.lean ====
section
/-! DEFINITION. How a session comes back to LIVE (R98, R100, R110, R113) and how it loses its tensors (R111, R291, R297). -/

namespace Sys2Proof.Machine

/-! ## Statuses of the session commands (R118) -/

namespace SesSt
def wrongState : Nat := 0x80
def sidExists : Nat := 0x81
def homeUnreachable : Nat := 0x82
def epochLimit : Nat := 0x83
end SesSt

/-! ## Changes that wait for a boundary -/

/-- A change waits for the session's next boundary. -/
def State.addBoundary (s : State) (sid : W64) (op : BoundaryOp) : State :=
  { s with ses := { s.ses with boundary := s.ses.boundary ++ [(sid, op)] } }

/-- A session waits for a boundary at which to take its slot. -/
def State.liveWaits (s : State) (sid : W64) : Bool :=
  s.ses.boundary.any fun p => p.1 == sid && (match p.2 with | .setLive => true | _ => false)

/-- A session asks for a slot at its next boundary (R98); while it waits its entry reads PAUSED and no time-to-live runs. -/
def State.askLive (s : State) (sid : W64) : State :=
  let s := s.updEntry sid fun e => { e with state := .paused, expiry := 0 }
  if s.liveWaits sid then s else s.addBoundary sid .setLive

/-- Input waits for a session: positions pending, or an IN_SUBMIT not yet appended. -/
def State.inputWaits (s : State) (sid : W64) : Bool :=
  (s.idle? sid).any (fun t => !t.pend.isEmpty) || (s.slotOf sid).any (fun t => !t.pend.isEmpty) ||
  s.intake.submits.any fun x => x.sid == sid

/-- The RESULT of a command that brought a session to LIVE (R117): SES_OPEN gives slot and epoch, SES_RESUME the path and
the restart position. -/
def State.liveResult (s : State) (w : SesWait) : Nat :=
  match s.owner? w.sid with
  | none => 0
  | some e =>
    if w.why == SesWhy.open then e.slot.getD 0 + e.epoch.toNat * 2 ^ 16
    else w.path + (if w.path = 2 then e.confirmed else e.position) * 2 ^ 32

/-- The commands that wait for a session to become LIVE complete. -/
def State.finishLive (s : State) (sid : W64) : State :=
  let r := s.takeWaits sid fun w => w == .open || w == .resume
  r.1.foldl (fun t w => t.complete? w.d St.ok (s.liveResult w)) r.2

/-- The JOB_ID of the command that takes a session to LIVE (R137). -/
def State.liveJob (s : State) (sid : W64) : Option W32 :=
  match s.ses.waits.find? fun w => w.sid == sid && (w.why == SesWhy.open || w.why == SesWhy.resume) with
  | some w => w.d.map fun d => d.jobId
  | none => (s.intake.submits.find? fun x => x.sid == sid).map fun x => x.d.jobId

/-! ## Revival from the transcript (R110) -/

/-- Start a revival: CLAIM with REVIVE. Without a home the command completes with HOME_UNREACHABLE (R120). -/
def State.startRevival (s : State) (sid : W64) (epoch : W32) (d : Option Desc) : State :=
  if s.ses.waits.any fun w => w.sid == sid && w.why == SesWhy.revive then
    s.addWait { sid := sid, why := .resume, since := s.now, d := d, path := 2 }
  else match s.homeOf sid with
    | none => s.complete? d SesSt.homeUnreachable
    | some _ =>
      (s.sendHome sid .claim { flagRevive := true, epoch := epoch }).addWait
        { sid := sid, why := .revive, since := s.now, d := d, path := 2 }

/-- The IN_SUBMITs of a session that wait for it end with a status, and their input is not held. -/
def State.endInput (s : State) (sid : W64) (st : Nat) : State :=
  let xs := s.intake.submits.filter fun x => x.sid == sid
  let s := { s with intake := { s.intake with submits := s.intake.submits.filter fun x => x.sid != sid } }
  xs.foldl (fun s x => s.complete x.d st) s

/-- A revival that the home has confirmed ends without tensors: what waits for it ends with the status, the session stays DROPPED
with its time-to-live begun again, and DROP_NOTE turns its record DROPPED again (R98, R111, R128). -/
def State.revivalEnds (s : State) (e : Entry) (st : Nat) : State :=
  let s := { s with ses := { s.ses with revivals := s.ses.revivals.filter fun r => r.sid != e.sid } }
  let s := s.updEntry e.sid fun x => { x with expiry := s.expiryAfter (s.rdN .SES_TTL_DROPPED e.bed) }
  ((s.finishWaits e.sid (fun w => w == .resume || w == .open) st).endInput e.sid st).sendNote e.sid false

/-- The transcript is here: the session enters near memory with the transcript as prefill input that the transcript
already holds (R110). -/
def State.reviveWith (s : State) (sid : W64) (toks : List W32) : State :=
  match s.owner? sid with
  | none => s
  | some e =>
    match s.enterNear e e.profile none with
    | .error st => (s.nearFails e.bed e.profile st).revivalEnds e st
    | .ok s =>
      let s := match s.smp.saved.find? fun x => x.sid == sid with
        | some x => s.updCtx sid fun c => { c with
            ctl := { x.ctl with grammar := c.ctl.grammar }, next := x.ctl, nextStops := x.stops }
        | none => s
      let s := s.updEntry sid fun e => { e with position := 0, confirmed := toks.length, turnStart := 0 }
      let rs := updFirst (fun r => r.sid == sid) (fun r => { r with need := toks.length, tokens := toks }) s.ses.revivals
      let s := { s with ses := { s.ses with revivals := rs } }
      let s := match s.owner? sid with
        | some e => s.updIdle e fun t => { t with
            pend := toks ++ t.pend, known := toks.length, turn := false, final := t.final
            inputFt := BitVec.ofNat 32 (ftSample s.now) }
        | none => s
      s.askLive sid

/-- A session loses its tensors (R111): DROPPED, DROP_NOTE, and revival at once if it was LIVE or has input. -/
def State.lostTensors (s : State) (sid : W64) : State :=
  match s.owner? sid with
  | none => s
  | some e =>
    if e.state == .dropped || e.state == .closed then s else
    let revive := e.state == .live || s.liveWaits sid || s.inputWaits sid
    let keep := match s.slotOf sid with
      | some t => some t
      | none => s.idle? sid
    let s := s.dropSession sid
    let s := { s with ses := { s.ses with boundary := s.ses.boundary.filter fun p => p.1 != sid } }
    if !revive then s else
      let s := s.updIdle e fun t => match keep with
        | some k => { t with pend := k.pend.drop k.known, final := k.final || k.finalLate, client := k.client, job := k.job, inputFt := k.inputFt }
        | none => t
      s.startRevival sid e.epoch none

/-! ## Loss and failure of moves (R291, R297) -/

/-- A Graft version is removed as GRAFT_DROP removes it (R187), and the removal is journalled as a drop (R182, R297). -/
def State.removeGraft (s : State) (g : Graft) : State :=
  let s := s.journal (s.jDev 0x0006 g.bed 1 (g.id + g.version.toNat * 2 ^ 32) (digest128 g.table) 0)
  let s := s.updGraft g.bed g.id g.version fun g => { g with current := false }
  s.retireGraft g.bed g.id g.version

/-- The entries that wait for a layer of a Graft version are abandoned, with GRAFT_MISSING (R186). -/
def State.graftMissing (s : State) (bed id : Nat) (v : W32) : State :=
  let f := fun (w : Work) => w.bed == bed && w.graft == some (id, v) && w.parts.any fun p => p.waits
  if s.sch.work.any f then (s.abandonAll f).setStatus F.LX_STATUS_GRAFT_MISSING bed else s

/-- A move fails (R291): the source stays, the destination is freed, the session stays where it was. -/
def State.moveUndone (s : State) (m : Move) (st : Nat) : State :=
  let s := s.dropMove m.ix
  let s := match m.dst with | some x => s.releaseSet x | none => s
  match m.what with
  | .session sid =>
    match s.owner? sid with
    | none => s.complete? m.d st
    | some e =>
      if m.toTier = 0 then
        let s := (s.freeSeq sid).freeCtx sid
        let s := s.updEntry sid fun e => { e with
          tier := tierOf m.fromTier
          kvHandle := match m.src.bind s.setIx? with | some t => setHandle t | none => 0
          expiry := s.expiryAfter (s.tierTtl e.bed m.fromTier) }
        s.finishWaits sid (fun w => w == .resume) st
      else
        let s := s.updSeq sid fun q => { q with copy := none }
        let ttl := if m.fromTier = 0 then s.rdN .SES_TTL_PAUSED e.bed else s.tierTtl e.bed m.fromTier
        let s := s.updEntry sid fun e => { e with expiry := s.expiryAfter ttl }
        s.complete? m.d st
  | .graft bed id v =>
    match s.graftV? bed id v with
    | none => s.complete? m.d st
    | some g =>
      let s := s.updGraft bed id v fun g => { g with moving := false }
      let s := if m.toTier = 0 then
          ((s.updGraft bed id v fun g => { g with near := [], resident := 0 }).giveBackAll g.near).graftMissing bed id v
        else s
      s.complete? m.d st
  | .handoff _ _ => s.complete? m.d st
  | .relocate _ => s.complete? m.d st

/-- A set lies in part in an extent. -/
def setIn (e : Extent) (t : TensorSet) : Bool := t.state != .free && t.runs.any fun r => runIn e r

/-- What an orderly release does with one set (R296). -/
def State.drainSet (s : State) (t : TensorSet) : State :=
  match t.state with
  | .backing => s.releaseSet t.ix
  | .filling =>
    match s.tiers.moves.find? fun m => m.dst == some t.ix with
    | none => s.releaseSet t.ix
    | some m =>
      let s := (s.dropMove m.ix).releaseSet t.ix
      match m.what with
      | .session sid =>
        match s.owner? sid with
        | some e =>
          if m.fromTier = 0 then
            let s := s.updSeq sid fun q => { q with copy := none }
            match s.startDown e m.toTier m.d with
            | .ok s => s
            | .error st => s.moveUndone { m with dst := none } st
          else s
        | none => s
      | .graft bed id v =>
        match s.graftV? bed id v with
        | some g => match s.startStow g m.toTier m.d with
          | .ok s => s
          | .error st => s.moveUndone { m with dst := none } st
        | none => s
      | _ => s.moveUndone { m with dst := none } St.noResource
  | .complete =>
    if s.tiers.moves.any fun m => m.src == some t.ix then s
    else if t.kind = 0 && !(s.parkTiers t.owner).contains 2 then
      ((s.setStatus F.TIER_STATUS_DRAIN_DROP t.bed).lostTensors t.owner).releaseSet t.ix
    else match s.startSink t 2 with
      | .ok s => s
      | .error _ =>
        let s := s.setStatus F.TIER_STATUS_DRAIN_DROP t.bed
        if t.kind = 0 then (s.lostTensors t.owner).releaseSet t.ix
        else match s.grafts.find? fun g => g.set == some t.ix with
          | some g => (s.removeGraft g).releaseSet t.ix
          | none => s.releaseSet t.ix
  | _ => s

/-- A move fails. A set that an orderly release has still to take out of its extent is handled again (R296). -/
def State.failMove (s : State) (m : Move) (st : Nat) : State :=
  let s := s.moveUndone m st
  match m.src.bind s.setIx? with
  | some t => if t.drain && t.state == .complete then s.drainSet t else s
  | none => s

/-- The effects of R297 on a set that is LOST; nothing stands for the session of a stored shard, which can no longer be read. -/
def State.loseSet (s : State) (ix : Nat) : State :=
  match s.setIx? ix with
  | none => s
  | some t =>
    let s := (s.updSet ix fun t => { t with state := .lost }).setStatus F.TIER_STATUS_EXTENT_LOST t.bed
    let ms := s.tiers.moves.filter fun m => m.src == some ix || m.dst == some ix
    let s := ms.foldl (fun s m => s.failMove m St.noResource) s
    if t.state == .filling then s.releaseSet ix
    else if t.state == .backing then s.releaseSet ix
    else if t.kind = 0 then (s.lostTensors t.owner).releaseSet ix
    else if t.kind = 1 then
      match s.grafts.find? fun g => g.set == some ix with
      | some g => (s.removeGraft g).releaseSet ix
      | none => s.releaseSet ix
    else
      let xs := updAll (fun (x : CkStored) => x.set == some ix) (fun x => { x with set := none }) s.ck.stored
      State.releaseSet { s with ck := { s.ck with stored := xs } } ix

/-! ## Waking a session (R98, R100, R113) -/

/-- The checks of R113 on a session that is PARKED: the status that refuses, if one does. -/
def State.wakeRefusal (s : State) (e : Entry) (t : Option TensorSet) : Option Nat :=
  match s.profile? e.bed e.profile with
  | none => some St.notFound
  | some p =>
    if !((e.furrow.bind s.furrow?).any fun f => f.bed == e.bed) then some St.notFound
    else match t with
      | some t => if t.shape == (p.layers, p.kvFormat, p.pageBytes) then none else some St.tableVersion
      | none => none

/-- A revival joins the upward move in progress; input takes it into class 1 (R98, R290). -/
def State.joinMove (s : State) (m : Move) (input : Bool) : State :=
  if input then s.updMove m.ix fun m => { m with cls := min m.cls 1 } else s

/-- A command waits for a session to become LIVE. -/
def State.waitLive (s : State) (sid : W64) (d : Option Desc) (path : Nat) : State :=
  match d with
  | some _ => s.addWait { sid := sid, why := .resume, since := s.now, d := d, path := path }
  | none => s

/-- Wake a session that is PAUSED, PARKED or DROPPED (R98): `d` is a SES_RESUME, none when input wakes it. The answer of
the function is the state, and the status that refuses, which a caller that is input reports itself. A SES_PARK whose downward move
the revival cancels completes with NO_RESOURCE: R100 names no status, and this is a DESIGN CHOICE (log entry 106). -/
def State.wake (s : State) (e : Entry) (d : Option Desc) : Except Nat State :=
  let sid := e.sid
  match e.state with
  | .paused =>
    match s.moveOf (.session sid) with
    | some m =>
      if m.toTier = 0 then .ok ((s.joinMove m d.isNone).waitLive sid d 1)
      else .ok (((s.cancelMoves sid).askLive sid).waitLive sid d 0)
    | none => .ok ((s.askLive sid).waitLive sid d 0)
  | .parked =>
    match s.moveOf (.session sid) with
    | some m =>
      if m.toTier = 0 then .ok ((s.joinMove m d.isNone).waitLive sid d 1)
      else
        let s := (s.dropMove m.ix).complete? m.d St.noResource
        let s := match m.dst with | some x => s.releaseSet x | none => s
        match s.setOf e.kvHandle with
        | some t => match s.wakeRefusal e (some t) with
          | some st => .error st
          | none => match s.startUp e t d.isNone none with
            | .ok s => .ok (s.waitLive sid d 1)
            | .error st => .error st
        | none => .error St.notFound
    | none =>
      match s.setOf e.kvHandle with
      | some t => match s.wakeRefusal e (some t) with
        | some st => .error st
        | none => match s.startUp e t d.isNone none with
          | .ok s => .ok (s.waitLive sid d 1)
          | .error st => .error st
      | none => .error St.notFound
  | .dropped =>
    match s.wakeRefusal e none with
    | some st => .error st
    | none => .ok (s.startRevival sid e.epoch d)
  | _ => .error SesSt.wrongState

/-- Input wakes a session that is not LIVE (R98, R115). While QUOTA_LIVE has no room the session stays in its state with the input
held, and its boundary tries again. -/
def State.wakeByInput (s : State) (e : Entry) : Except Nat State :=
  if s.liveWaits e.sid then .ok s
  else if !s.liveQuotaOk e.bed then
    let held := if e.state == .parked then s.setOf e.kvHandle else none
    match (if e.state == .paused then none else s.wakeRefusal e held) with
    | some st => .error st
    | none => .ok ((s.setStatus F.SES_STATUS_QUOTA_REFUSED e.bed).addBoundary e.sid .setLive)
  else s.wake e none

end Sys2Proof.Machine
end

