-- ==== Sys2Proof/Machine/Prefix.lean ====
section
/-! DEFINITION. Positions that enter a sequence and its transcript (R109), and prefix sharing (R211 to R214). -/

namespace Sys2Proof.Machine

/-! ## Transcript (R109) -/

/-- Send the token IDs added to a session's KV to its home (R109), at most 64 in a message (R102). -/
def State.sendTrx (s : State) (sid : W64) (pos : Nat) (toks : List W32) : State :=
  match s.owner? sid with
  | some e => (List.range (ceilDiv toks.length 64)).foldl (fun s i =>
      s.sendHome sid .trxAppend
        { epoch := e.epoch, position := pos + 64 * i, tokens := (toks.drop (64 * i)).take 64 }) s
  | none => s

/-- Send the truncation of a session's transcript (R109, R114). -/
def State.truncateTrx (s : State) (sid : W64) (n : Nat) : State :=
  match s.owner? sid with
  | some e => s.sendHome sid .trxAppend { epoch := e.epoch, position := n, flagTruncate := true }
  | none => s

/-- The first `n` positions of PENDING enter the KV: POSITION grows, the tokens follow those held, and those that the
transcript does not hold yet are sent to it (R109, R213). -/
def State.consume (s : State) (sid : W64) (n : Nat) : State :=
  match s.seat? sid, s.owner? sid with
  | some t, some e =>
    let toks := t.pend.take n
    let fresh := toks.drop t.known
    let s := s.updSeat sid fun t => { t with pend := t.pend.drop n, known := t.known - n }
    let s := s.updSeq sid fun q => { q with tokens := q.tokens ++ toks }
    let s := s.setPosition sid (e.position + n)
    s.sendTrx sid (e.position + min t.known n) fresh
  | _, _ => s

/-- The recompute positions of a pruned sequence enter PENDING ahead of any other input (R218). -/
def State.recomputeIn (s : State) (sid : W64) : State :=
  match s.seq? sid, s.slotOf sid with
  | some q, some _ =>
    if q.recompute.isEmpty then s else
      let s := s.updSeq sid fun q => { q with recompute := [] }
      s.updSlot sid fun t => { t with
        pend := q.recompute ++ t.pend, known := q.recompute.length + t.known
        inputFt := if t.pend.isEmpty then BitVec.ofNat 32 (ftSample s.now) else t.inputFt }
  | _, _ => s

/-! ## Page keys (R211) -/

/-- The root key of a sequence for a bound Graft. -/
def rootKeyOf (profile : Nat) (graft : Option (Nat × W32)) (salt : W64) : W128 :=
  let g := match graft with | some x => x.1 % 4096 | none => 0x8000
  let v := match graft with | some x => x.2.toNat | none => 0
  digest128 (leBytes 2 profile ++ leBytes 2 g ++ leBytes 4 v ++ leBytes 8 salt.toNat)

/-- The key of a page: the key of the page before, then its 16 token IDs. -/
def pageKey (k : W128) (toks : List W32) : W128 :=
  digest128 (leBytes 16 k.toNat ++ List.flatten (toks.map fun t => leBytes 4 t.toNat))

/-- The Graft a session's next entry would bind: the current version of its Graft (R185). -/
def State.graftNow (s : State) (bed : Nat) (g : Option Nat) : Option (Nat × W32) :=
  g.bind fun id => (s.graft? bed id).map fun x => (id, x.version)

/-- The buckets of a Bed's prefix table (R223). -/
def State.pfxBuckets (s : State) (bed : Nat) : Nat := 2 ^ min 20 (max 10 (s.fget F.KV_PFX_CTRL_LOG2_BUCKETS bed))

/-- Sharing is enabled for a sequence (R213). -/
def State.sharing (s : State) (q : Seq) (p : Profile) : Bool :=
  s.fget F.KV_PFX_CTRL_ENABLE q.bed == 1 && p.shareOk && q.share

/-! ## Lookup (R213) -/

/-- Attach a node's page to a sequence. The node is referenced first, so that no eviction takes it (R215). -/
def State.attachNode (s : State) (q : Seq) (page : Nat) (n : PfxNode) : Option State :=
  let ls := n.frames.zipIdx.map fun (x : (Nat × Bool) × Nat) =>
    ({ layer := x.2, page := page, frame := x.1.1, node := n.ix, dirty := true, shared := true, sv := x.1.2 } : Leaf)
  let s := s.updNode q.bed n.ix fun m => { m with refs := m.refs + 1, lastUse := s.now }
  (s.growTables q (tablesFor ls)).map fun s => s.updSeq q.sid fun q => { q with leaves := ls ++ q.leaves, runKey := n.key }

/-- One lookup: false when the conditions of R213 do not hold, when the lookup misses, and while the page that missed is not
prefilled. -/
def State.lookupOnce (s : State) (sid : W64) : State × Bool :=
  match s.seq? sid, s.slotOf sid with
  | some q, some t =>
    match s.profile? q.bed t.profile with
    | none => (s, false)
    | some p =>
      if q.runOpen && t.position % 16 == 0 && decide (16 ≤ t.pend.length) && !t.inFlight && s.sharing q p &&
          q.missed != some (t.position / 16) then
        let root := rootKeyOf t.profile (s.graftNow t.bed t.graft) q.salt
        if t.position != 0 && root != q.rootKey then
          (s.updSeq sid fun q => { q with runOpen := false }, false)
        else
          let key := pageKey (if t.position = 0 then root else q.runKey) (t.pend.take 16)
          match s.kv.nodes.find? fun n => n.bed == q.bed && n.key == key with
          | none =>
            let s := s.updSeq sid fun q => { q with missed := some (t.position / 16) }
            (s.bump64 .KV_PFX_MISSES_LO .KV_PFX_MISSES_HI q.bed, false)
          | some n =>
            match s.attachNode q (t.position / 16) n with
            | none => (s.unmet q.bed q.region, false)
            | some s =>
              let s := s.updSeq sid fun q => { q with rootKey := root }
              ((s.bump64 .KV_PFX_HITS_LO .KV_PFX_HITS_HI q.bed).consume sid 16, true)
      else (s, false)
  | _, _ => (s, false)

/-- Lookups until one misses (R213); `n` bounds their number. -/
def State.lookupPages (n : Nat) (s : State) (sid : W64) : State :=
  match n with
  | 0 => s
  | n + 1 =>
    let r := s.lookupOnce sid
    if r.2 then State.lookupPages n r.1 sid else r.1

/-- The lookups of a session after input was added or a chunk completed (R213). -/
def State.prefixLookup (s : State) (sid : W64) : State :=
  match s.slotOf sid with
  | some t => State.lookupPages (t.pend.length / 16 + 1) s sid
  | none => s

/-! ## Insert (R214) -/

/-- A slot for a new node of a bucket: a free one, else that of its unreferenced node with the oldest LAST_USE. -/
def State.pfxSlot (s : State) (bed bucket : Nat) : Option (Nat × State) :=
  let mine := s.kv.nodes.filter fun n => n.bed == bed && n.ix / 8 == bucket
  match (List.range 8).find? fun i => mine.all fun n => n.ix != bucket * 8 + i with
  | some i => some (bucket * 8 + i, s)
  | none =>
    let old := (mine.filter fun n => n.refs == 0).foldl (fun best n =>
      match best with
      | none => some n
      | some b => if ftLater b.lastUse n.lastUse then some n else some b) none
    old.map fun n => (n.ix, s.removeNode bed n.ix)

/-- Insert a node for page `page` of a sequence, whose frames become its column (R214). -/
def State.insertNode (s : State) (q : Seq) (layers page : Nat) (key : W128) : State :=
  if s.kv.nodes.any fun n => n.bed == q.bed && n.key == key then s else
  match s.pfxSlot q.bed (key.toNat % 2 ^ 32 % s.pfxBuckets q.bed) with
  | none => s.setStatus F.KV_STATUS_PFX_FULL q.bed
  | some (ix, s) =>
    match s.takeAlong q.bed .columns (layers * 8) (s.bedOrder q.bed) with
    | none => s.setStatus F.KV_STATUS_PFX_FULL q.bed
    | some (col, s) =>
      let frames := (List.range layers).map fun l =>
        match q.leaf? l page with | some x => (x.frame, x.sv) | none => (0, false)
      let n : PfxNode := { bed := q.bed, ix := ix, key := key, refs := 1, lastUse := s.now, layers := layers
                           column := col, frames := frames, parent := q.runKey }
      let s := { s with kv := { s.kv with nodes := n :: s.kv.nodes } }
      s.updSeq q.sid fun q => { q with
        leaves := updAll (fun l => l.page == page) (fun l => { l with shared := true, node := ix }) q.leaves }

/-- A prefill chunk has filled page `page` of a sequence with an open run (R211, R214): the page is offered to the prefix
table and the run's key advances. -/
def State.pageFilled (s : State) (sid : W64) (p : Profile) (page : Nat) : State :=
  match s.seq? sid with
  | none => s
  | some q =>
    if !q.runOpen then s else
      let key := pageKey q.runKey ((q.tokens.drop (16 * page)).take 16)
      let private_ := (q.leaf? 0 page).any fun l => !l.shared
      let s := if s.sharing q p && private_ then s.insertNode q p.layers page key else s
      s.updSeq sid fun q => { q with runKey := key, missed := none }

/-- The run of a sequence at the completion of a chunk that began at `base` under a bound Graft (R211): the root key is
set when page 0 is first written, and the run closes when the bound Graft no longer matches it. -/
def State.chunkRun (s : State) (sid : W64) (profile base : Nat) (graft : Option (Nat × W32)) : State :=
  s.updSeq sid fun q =>
    let root := rootKeyOf profile graft q.salt
    if base = 0 then { q with rootKey := root, runKey := root }
    else if root = q.rootKey then q else { q with runOpen := false }

end Sys2Proof.Machine
end

