-- ==== Sys2Proof/Machine/KvPages.lean ====
section
/-! DEFINITION. The page commands (R222) and the prefix table's enable (R223). -/

namespace Sys2Proof.Machine

/-- The command-specific status of the page commands (R222). -/
def notEmpty : Nat := 0x80

/-- Why near memory refuses a holding of `len` bytes: the Bed's quota, or no room (R203, R299). -/
def State.roomRefusal (s : State) (bed len : Nat) : Nat :=
  if s.nearQuotaOk bed (max 1 (ceilDiv len plotBytes)) then St.noResource else St.overQuota

/-! ## Buffer space -/

/-- The hint that holds for a buffer-space address: the last one given (R401). -/
def State.hintAt (s : State) (bed va : Nat) : Option MemHint :=
  s.exp.hints.find? fun h => h.bed == bed && decide (h.start ≤ va) && decide (va < h.start + h.len)

/-- The order of regions for a granule under a hint (R401): HOT, the Bed's regions in turn; COLD, the highest first; else R204. -/
def State.hintOrder (s : State) (bed hint turn : Nat) : List Nat :=
  let rs := s.regionsOf bed
  match hint with
  | 1 => rs.filter (fun r => decide (turn ≤ r)) ++ rs.filter (fun r => decide (r < turn))
  | 2 => rs.reverse
  | _ => s.bedOrder bed

/-- The order of regions for a new granule at an address. -/
def State.granuleOrder (s : State) (bed va : Nat) : List Nat :=
  match s.hintAt bed va with
  | some h => s.hintOrder bed h.hint h.turn
  | none => s.bedOrder bed

/-- The turn of a HOT range goes on after the region that took a granule. -/
def State.hintTook (s : State) (bed va region : Nat) : State :=
  let hs := updFirst (fun (h : MemHint) => h.bed == bed && decide (h.start ≤ va) && decide (va < h.start + h.len))
    (fun h => { h with turn := region + 1 }) s.exp.hints
  { s with exp := { s.exp with hints := hs } }

/-- Map the granules at `vas` for a Bed in the region named, or in placement order; the status says why one cannot be placed
(R203, R204, R222, R401). A granule already mapped is left as it is: an overlapping map is unchecked input (R84). -/
def State.mapGranules (bed : Nat) (named : Option (List Nat)) : List Nat → Nat → State → Except Nat (Nat × State)
  | [], n, s => .ok (n, s)
  | va :: r, n, s =>
    if (s.granuleAt bed va).isSome then State.mapGranules bed named r n s else
    let order := match named with | some l => l | none => s.granuleOrder bed va
    match s.takeAlong bed .granules (s.granule bed) order with
    | none => .error (if s.noFreePlot order then St.noResource else St.overQuota)
    | some (pa, s) =>
      let g : Granule := { bed := bed, va := va, pa := pa }
      let s := { s with mem := { s.mem with granules := g :: s.mem.granules } }
      State.mapGranules bed named r (n + 1) (s.hintTook bed va (paRegion pa))

/-- The granule addresses of a run of buffer space. -/
def State.granuleVas (s : State) (bed : Nat) (addr len : Nat) : List Nat :=
  let g := s.granule bed
  (List.range (len / g)).map fun i => addr % 2 ^ 48 / g * g + i * g

/-- KV_MAP (R222). -/
def State.kvMap (s : State) (d : Desc) : State :=
  let bed := (dBed d).getD 0
  let r := dArg d 48 1
  let named := if r = 0xFF then none else some ((s.regionsOf bed).filter fun x => x == r)
  match State.mapGranules bed named (s.granuleVas bed d.addr0.toNat (dLen0 d)) 0 s with
  | .ok (n, s) => s.complete d St.ok n
  | .error st => s.complete d st

/-- Unmap one granule of a Bed. -/
def State.unmapGranule (s : State) (bed va : Nat) : State :=
  match s.granuleAt bed va with
  | none => s
  | some g =>
    let gs := s.mem.granules.filter fun x => !(x.bed == bed && x.va == g.va)
    (State.walkUnmap { s with mem := { s.mem with granules := gs } } bed va).giveBack g.pa

/-- KV_UNMAP (R222). -/
def State.kvUnmap (s : State) (d : Desc) : State :=
  let bed := (dBed d).getD 0
  let vas := s.granuleVas bed d.addr0.toNat (dLen0 d)
  let n := (vas.filter fun va => (s.granuleAt bed va).isSome).length
  (vas.foldl (fun s va => s.unmapGranule bed va) s).complete d St.ok n

/-! ## Sequences -/

/-- The sequence a page command names: its session must be held, and hold a sequence range (R101, R222). -/
def State.seqFor (s : State) (d : Desc) : Except Nat Seq :=
  match s.targetSid d with
  | none => .error St.notOwner
  | some sid =>
    match s.heldEntry d sid with
    | .error st => .error st
    | .ok _ => match s.seq? sid with
      | some q => .ok q
      | none => .error St.notFound

/-- KV_SEQ_SET (R222). -/
def State.kvSeqSet (s : State) (d : Desc) : State :=
  match s.seqFor d with
  | .error st => s.complete d st
  | .ok q =>
    if dArg d 48 1 = 0 then
      (s.updSeq q.sid fun q => { q with share := dArg d 56 1 % 2 == 1 }).complete d St.ok (if q.share then 1 else 0)
    else if ((s.owner? q.sid).any fun e => e.position != 0) then s.complete d notEmpty
    else (s.updSeq q.sid fun q => { q with salt := BitVec.ofNat 64 (dArg d 56 8) }).complete d St.ok
      (q.salt.toNat % 2 ^ 32)

/-- KV_PAGE_QUERY (R222, R200). -/
def State.kvPageQuery (s : State) (d : Desc) : State :=
  match s.seqFor d with
  | .error st => s.complete d st
  | .ok q =>
    match q.leaf? (dArg d 48 2) (dArg d 52 4) with
    | none => s.complete d St.ok 0
    | some l =>
      let b := 1 + (if l.sv then 2 else 0) + (if l.shared then 4 else 0) + (if l.dirty then 8 else 0) +
        (if l.cow then 16 else 0)
      s.complete d St.ok (b + paRegion l.frame % 16 * 2 ^ 8 + (if l.shared then l.node % 2 ^ 23 else 0) * 2 ^ 16)

/-! ## Prefix table -/

/-- The unreferenced nodes of a Bed (R215). -/
def State.looseNodes (s : State) (bed : Nat) : List PfxNode := s.kv.nodes.filter fun n => n.bed == bed && n.refs == 0

/-- Remove the unreferenced nodes of a Bed (R215). -/
def State.flushNodes (s : State) (bed : Nat) : State := (s.looseNodes bed).foldl (fun s n => s.removeNode bed n.ix) s

/-- KV_PREFIX_FLUSH (R222). -/
def State.kvPrefixFlush (s : State) (d : Desc) : State :=
  let bed := (dBed d).getD 0
  (s.flushNodes bed).complete d St.ok (s.looseNodes bed).length

/-- The prefix table's near memory leaves a Bed with its last node (R223, log entry 12). -/
def State.dropPfxTable (s : State) (bed : Nat) : State :=
  let mine := s.kv.pfxOn.filter fun p => p.1 == bed
  let s := { s with kv := { s.kv with pfxOn := s.kv.pfxOn.filter fun p => p.1 != bed } }
  mine.foldl (fun s p => s.giveBackAll p.2) s

/-- A write of KV_PFX_CTRL by a Bed's function (R223): LOG2_BUCKETS changes only while ENABLE is 0; setting ENABLE takes
the table's memory or reads 0 with PFX_FULL; clearing it frees the unreferenced nodes. -/
def State.pfxWrite (s : State) (bed : Nat) (v : W32) : State :=
  let was := s.fget F.KV_PFX_CTRL_ENABLE bed == 1
  let on := F.KV_PFX_CTRL_ENABLE.get v == 1
  let s := if was then s else s.fset F.KV_PFX_CTRL_LOG2_BUCKETS (F.KV_PFX_CTRL_LOG2_BUCKETS.get v) bed
  if on && !was then
    let s := s.dropPfxTable bed
    match s.takeObject bed (s.pfxBuckets bed * 512) (s.bedOrder bed) with
    | some (l, s) =>
      let s := { s with kv := { s.kv with pfxOn := (bed, l) :: s.kv.pfxOn } }
      s.fset F.KV_PFX_CTRL_ENABLE 1 bed
    | none => s.setStatus F.KV_STATUS_PFX_FULL bed
  else if !on && was then
    let s := (s.flushNodes bed).fset F.KV_PFX_CTRL_ENABLE 0 bed
    if s.kv.nodes.any fun n => n.bed == bed then s else s.dropPfxTable bed
  else s

end Sys2Proof.Machine
end

