-- ==== Sys2Proof/Machine/IntakeOps.lean ====
section
/-! DEFINITION. Loadable tables (R227 to R231, R243 to R246) and the tokenizer (R232, R233, R236). -/

namespace Sys2Proof.Machine

/-! ## Table accessors -/

/-- A current table of a Bed. -/
def State.table? (s : State) (bed kind id : Nat) : Option Table :=
  s.intake.tables.find? fun t => t.bed == bed && t.kind == kind && t.id == id && t.current

/-- A held version of a table. -/
def State.tableV? (s : State) (bed kind id : Nat) (v : W32) : Option Table :=
  s.intake.tables.find? fun t => t.bed == bed && t.kind == kind && t.id == id && t.version == v

/-- A little-endian field of a table. -/
def Table.at (t : Table) (off n : Nat) : Nat := bytesAt t.bytes off n

/-- NAMESPACES, NS_BASE_k, NS_SIZE_k, BYTE_BASE, CHAR_LOG2 of a vocabulary (R227). -/
def Table.namespaces (t : Table) : Nat := t.at 5 1
def Table.nsBase (t : Table) (k : Nat) : Nat := t.at (64 + 8 * k) 4 % 2 ^ 20
def Table.nsSize (t : Table) (k : Nat) : Nat := t.at (68 + 8 * k) 4
def Table.byteBase (t : Table) : Nat := t.at 16 4 % 2 ^ 20
def Table.charLog2 (t : Table) : Nat := t.at 20 1

/-- The first slot of a search of 2^`log2` slots (R229, R230). -/
def hashSlot (log2 h : Nat) : Nat := h % 2 ^ 32 / 2 ^ (32 - log2)

/-- The slots that such a search reads, in order. -/
def probeSeen (size : Nat) (valid hit : Nat → Bool) : Nat → Nat → List Nat
  | 0, _ => []
  | n + 1, i => if !valid i || hit i then [i] else i :: probeSeen size valid hit n ((i + 1) % size)

/-- The hash of a pair (R230). -/
def pairHash (a b : Nat) : Nat := a * 0x9E3779B1 + b * 0x85EBCA77

/-- The search of a hashed table: from slot `i`, at most `n` slots, wrapping, to the first that is not valid (none) or that
matches (R229, R230). -/
def probe (size : Nat) (valid hit : Nat → Bool) : Nat → Nat → Option Nat
  | 0, _ => none
  | n + 1, i =>
    if !valid i then none
    else if hit i then some i
    else probe size valid hit n ((i + 1) % size)

/-- The offset of a vocabulary's token record, its character map and its string pool (R227). -/
def Table.recOff (t : Table) (tok : Nat) : Nat := 557312 + 8 * (tok - t.nsBase 0)
def Table.mapOff (t : Table) : Nat := 557312 + 8 * t.nsSize 0
def Table.poolOff (t : Table) : Nat := t.mapOff + 8 * 2 ^ t.charLog2

/-- A token lies in the text namespace. -/
def Table.isText (t : Table) (tok : Nat) : Bool := decide (t.nsBase 0 ≤ tok) && decide (tok < t.nsBase 0 + t.nsSize 0)

/-- A text token is SPECIAL (R229). -/
def Table.special (t : Table) (tok : Nat) : Bool := t.isText tok && t.at (t.recOff tok + 6) 1 % 2 == 1

/-- The string of a text token (R229). -/
def Table.string (t : Table) (tok : Nat) : List Byte :=
  (t.bytes.drop (t.poolOff + t.at (t.recOff tok) 4)).take (t.at (t.recOff tok + 4) 2)

/-- The class of a code point (R227). -/
def Table.class (t : Table) (c : Nat) : Nat := t.at (256 + c / 2) 1 / 2 ^ (4 * (c % 2)) % 16

/-- A piece boundary falls between characters of classes `a` and `b` (R227). -/
def Table.boundary (t : Table) (a b : Nat) : Bool := bitSet (t.at (192 + 2 * a) 2) b

/-- A slot of the character map: its offset, whether it is valid, and whether it is the slot of a code point (R229). -/
def Table.charAt (t : Table) (i : Nat) : Nat := t.mapOff + 8 * i
def Table.charValid (t : Table) (i : Nat) : Bool := bitSet (t.at (t.charAt i) 4) 31
def Table.charHit (t : Table) (c i : Nat) : Bool := t.at (t.charAt i) 4 % 2 ^ 21 == c
def Table.charStart (t : Table) (c : Nat) : Nat := hashSlot t.charLog2 (c * 0x9E3779B1)

/-- The token of a code point, if the character map has one (R229); a SPECIAL token is never produced (R226). -/
def Table.charToken (t : Table) (c : Nat) : Option Nat :=
  let n := 2 ^ t.charLog2
  ((probe n t.charValid (t.charHit c) n (t.charStart c)).map fun i => t.at (t.charAt i + 4) 4 % 2 ^ 20).filter
    fun k => !t.special k

/-- The slots that the lookup of a code point reads. -/
def Table.charSeen (t : Table) (c : Nat) : List Nat :=
  probeSeen (2 ^ t.charLog2) t.charValid (t.charHit c) (2 ^ t.charLog2) (t.charStart c)

/-- A slot of a merge table: whether it is valid, and whether it is the slot of a pair (R230). -/
def Table.pairValid (t : Table) (i : Nat) : Bool := bitSet (t.at (64 + 16 * i) 4) 31
def Table.pairHit (t : Table) (a b i : Nat) : Bool :=
  t.at (64 + 16 * i) 4 % 2 ^ 20 == a && t.at (68 + 16 * i) 4 % 2 ^ 20 == b
def Table.pairSlots (t : Table) : Nat := 2 ^ t.at 5 1
def Table.pairStart (t : Table) (a b : Nat) : Nat := hashSlot (t.at 5 1) (pairHash a b)

/-- The merge of a pair: RANK and RESULT (R230). -/
def Table.merge (t : Table) (a b : Nat) : Option (Nat × Nat) :=
  (probe t.pairSlots t.pairValid (t.pairHit a b) t.pairSlots (t.pairStart a b)).map fun i =>
    (t.at (76 + 16 * i) 4 % 2 ^ 20, t.at (72 + 16 * i) 4 % 2 ^ 20)

/-- The slots that the lookup of a pair reads. -/
def Table.pairSeen (t : Table) (a b : Nat) : List Nat :=
  probeSeen t.pairSlots t.pairValid (t.pairHit a b) t.pairSlots (t.pairStart a b)

/-! ## UTF-8 (R232, step 1) -/

/-- The decoder between two bytes: the bytes of an incomplete sequence, how many follow, and the range of the next. -/
structure Utf8 where
  acc : List Byte := []
  need : Nat := 0
  lo : Nat := 0x80
  hi : Nat := 0xBF
  deriving DecidableEq, Repr

/-- A byte that starts a sequence. -/
def utf8First (b : Byte) : Utf8 × List CharUnit :=
  let v := b.toNat
  if v < 0x80 then ({}, [.cp v])
  else if 0xC2 ≤ v && v ≤ 0xDF then ({ acc := [b], need := 1 }, [])
  else if v = 0xE0 then ({ acc := [b], need := 2, lo := 0xA0 }, [])
  else if v = 0xED then ({ acc := [b], need := 2, hi := 0x9F }, [])
  else if 0xE1 ≤ v && v ≤ 0xEF then ({ acc := [b], need := 2 }, [])
  else if v = 0xF0 then ({ acc := [b], need := 3, lo := 0x90 }, [])
  else if v = 0xF4 then ({ acc := [b], need := 3, hi := 0x8F }, [])
  else if 0xF1 ≤ v && v ≤ 0xF3 then ({ acc := [b], need := 3 }, [])
  else ({}, [.bad b])

/-- The code point of a well-formed sequence. -/
def utf8Code (bs : List Byte) : Nat :=
  match bs with
  | [] => 0
  | b :: r =>
    let n := r.length
    let top := if n = 0 then b.toNat else b.toNat % 2 ^ (6 - n)
    r.foldl (fun a x => a * 64 + x.toNat % 64) top

/-- One byte. A byte that breaks a sequence ends its maximal subpart and then starts anew. -/
def utf8Step (u : Utf8) (b : Byte) : Utf8 × List CharUnit :=
  if u.need = 0 then utf8First b
  else if u.lo ≤ b.toNat && b.toNat ≤ u.hi then
    if u.need = 1 then ({}, [.cp (utf8Code (u.acc ++ [b]))])
    else ({ acc := u.acc ++ [b], need := u.need - 1 }, [])
  else
    let r := utf8First b
    (r.1, u.acc.map CharUnit.bad ++ r.2)

/-- Decode bytes; the rest is an incomplete but well-formed prefix. -/
def utf8Decode (bs : List Byte) : List CharUnit × List Byte :=
  let r := bs.foldl (fun (a : Utf8 × List CharUnit) b => let x := utf8Step a.1 b; (x.1, a.2 ++ x.2)) ({}, [])
  (r.2, r.1.acc)

/-- The UTF-8 bytes of a code point. -/
def utf8Encode (c : Nat) : List Byte :=
  let f := fun (n : Nat) => BitVec.ofNat 8 n
  if c < 0x80 then [f c]
  else if c < 0x800 then [f (0xC0 + c / 64), f (0x80 + c % 64)]
  else if c < 0x10000 then [f (0xE0 + c / 4096), f (0x80 + c / 64 % 64), f (0x80 + c % 64)]
  else [f (0xF0 + c / 262144), f (0x80 + c / 4096 % 64), f (0x80 + c / 64 % 64), f (0x80 + c % 64)]

/-! ## Normalisation (R231, R232, step 2) -/

/-- The offset of the record of a code point. -/
def Table.normRec (t : Table) (c : Nat) : Nat := 8768 + 2048 * t.at (64 + 2 * (c / 256)) 2 + 8 * (c % 256)

/-- The canonical combining class of a code point; Hangul syllables are starters. -/
def Table.ccc (t : Table) (c : Nat) : Nat := t.at (t.normRec c) 1

/-- The full decomposition of a code point for the table's FORM; Hangul by arithmetic (R231). -/
def Table.decomp (t : Table) (c : Nat) : List Nat :=
  if 0xAC00 ≤ c && c < 0xAC00 + 11172 then
    let i := c - 0xAC00
    let l := 0x1100 + i / 588
    let v := 0x1161 + i % 588 / 28
    if i % 28 = 0 then [l, v] else [l, v, 0x11A7 + i % 28]
  else
    let r := t.normRec c
    let n := t.at r 4 / 256 % 32
    if n = 0 then [c] else
      let pool := 8768 + 2048 * t.at 20 4
      (List.range n).map fun k => t.at (pool + 4 * (t.at (r + 4) 4 + k)) 4

/-- The primary composite of two code points, if they have one (R231). -/
def Table.compose (t : Table) (a b : Nat) : Option Nat :=
  if 0x1100 ≤ a && a < 0x1113 && 0x1161 ≤ b && b < 0x1176 then
    some (0xAC00 + ((a - 0x1100) * 21 + (b - 0x1161)) * 28)
  else if 0xAC00 ≤ a && a < 0xAC00 + 11172 && (a - 0xAC00) % 28 == 0 && 0x11A8 ≤ b && b < 0x11C3 then
    some (a + (b - 0x11A7))
  else
    let base := 8768 + 2048 * t.at 20 4 + 4 * t.at 24 4
    let lg := t.at 28 1
    let at_ := fun (i : Nat) => base + 16 * i
    let r := probe (2 ^ lg) (fun i => bitSet (t.at (at_ i) 4) 31)
      (fun i => t.at (at_ i) 4 % 2 ^ 21 == a && t.at (at_ i + 4) 4 == b) (2 ^ lg) (hashSlot lg (pairHash a b))
    (r.map fun i => t.at (at_ i + 8) 4).filter fun c => !bitSet (t.at (t.normRec c) 4) 13

/-- A unit's code point, a byte unit being none. -/
def unitCp : CharUnit → Nat
  | .cp c => c
  | .bad _ => 0

/-- Compose a starter with its ordered non-starters: the composite and what does not compose (UAX #15). `last` is the class
of the last mark kept, none when nothing stands between. -/
def Table.composeMarks (t : Table) : Nat → Option Nat → List Nat → Nat × List Nat
  | st, _, [] => (st, [])
  | st, last, m :: r =>
    let c := t.ccc m
    let blocked := match last with | some k => decide (c ≤ k) | none => false
    match (if blocked then none else t.compose st m) with
    | some x => t.composeMarks x last r
    | none =>
      let y := t.composeMarks st (some c) r
      (y.1, m :: y.2)

/-- The held segment in canonical order and composed. -/
def Table.segmentOut (t : Table) (seg : List Nat) : List Nat :=
  match seg with
  | [] => []
  | a :: r =>
    let order := fun (l : List Nat) => sortBy (fun x y => decide (t.ccc x < t.ccc y)) l
    if t.ccc a = 0 then
      let y := t.composeMarks a none (order r)
      y.1 :: y.2
    else order seg

/-- One decomposed character enters the segment: a non-starter joins it, a starter ends it or composes with it. The answer is
the new segment and what leaves. -/
def Table.segPush (t : Table) (seg : List Nat) (c : Nat) : List Nat × List Nat :=
  if t.ccc c != 0 then (seg ++ [c], [])
  else
    let out := t.segmentOut seg
    match out with
    | [a] => if t.ccc a = 0 then (match t.compose a c with | some x => ([x], []) | none => ([c], out)) else ([c], out)
    | _ => ([c], out)

/-- The non-starters at the end of a segment. -/
def Table.marks (t : Table) (seg : List Nat) : Nat := (seg.filter fun c => t.ccc c != 0).length

/-- One character of the text: before a run of non-starters would exceed 30, U+034F is inserted (R232). -/
def Table.normChar (t : Table) (seg : List Nat) (c : Nat) : List Nat × List Nat :=
  let d := t.decomp c
  let lead := (d.takeWhile fun x => t.ccc x != 0).length
  let d := if 30 < t.marks seg + lead then 0x034F :: d else d
  d.foldl (fun (a : List Nat × List Nat) x => let y := t.segPush a.1 x; (y.1, a.2 ++ y.2)) (seg, [])

/-! ## Pieces and tokens (R232, steps 3 to 6; R233) -/

/-- A lookup of a character or of a pair (R241): the kind of its table, 1 or 2, and the slots it reads. -/
abbrev Lookup := Nat × List Nat

/-- What tokenizing text counts, with the lookups made, in order. -/
structure TokCount where
  cuts : Nat := 0
  fallback : Nat := 0
  ill : Nat := 0
  looks : List Lookup := []
  deriving DecidableEq, Repr

/-- The tables a stream is tokenized under, with the profile's PIECE_MAX and SPACE_MAP. -/
structure TokEnv where
  vocab : Table
  merges : Option Table
  norm : Option Table
  pieceMax : Nat
  spaceMap : Nat
  deriving DecidableEq, Repr

/-- The best pair of a piece: place, rank, result; the leftmost of the lowest rank (R233). -/
def bestPair (m : Table) (v : Table) : Nat → List Nat → Option (Nat × Nat × Nat)
  | i, a :: b :: r =>
    let rest := bestPair m v (i + 1) (b :: r)
    match (m.merge a b).filter fun x => !v.special x.2 with
    | none => rest
    | some (rank, res) =>
      match rest with
      | some (j, rank', res') => if rank' < rank then some (j, rank', res') else some (i, rank, res)
      | none => some (i, rank, res)
  | _, _ => none

/-- The lookups of the adjacent pairs of a list. -/
def pairLooks (m : Table) : List Nat → List Lookup
  | a :: b :: r => (2, m.pairSeen a b) :: pairLooks m (b :: r)
  | _ => []

/-- Merge a piece (R233); `n` bounds the merges. Each pair is looked up once, when it comes to stand (log entry 23). -/
def mergePiece (m v : Table) : Nat → List Nat → List Nat × List Lookup
  | 0, l => (l, [])
  | n + 1, l =>
    match bestPair m v 0 l with
    | none => (l, [])
    | some (i, _, res) =>
      let l' := l.take i ++ res :: l.drop (i + 2)
      let r := mergePiece m v n l'
      (r.1, pairLooks m ((l'.drop (i - 1)).take (min i 1 + 2)) ++ r.2)

/-- The tokens of a piece before its merges, the bytes made byte tokens, and the lookups of its characters. -/
def pieceChars (e : TokEnv) (p : List CharUnit) : List Nat × Nat × List Lookup :=
  p.foldl (fun (a : List Nat × Nat × List Lookup) u =>
    match u with
    | .bad b => (a.1 ++ [e.vocab.byteBase + b.toNat], a.2.1 + 1, a.2.2)
    | .cp c =>
      let seen := a.2.2 ++ [(1, e.vocab.charSeen c)]
      match e.vocab.charToken c with
      | some k => (a.1 ++ [k], a.2.1, seen)
      | none =>
        let bs := utf8Encode c
        (a.1 ++ bs.map fun b => e.vocab.byteBase + b.toNat, a.2.1 + bs.length, seen)) ([], 0, [])

/-- The tokens of a piece, the bytes made byte tokens, and its lookups. -/
def pieceTokens (e : TokEnv) (p : List CharUnit) : List Nat × Nat × List Lookup :=
  let r := pieceChars e p
  match e.merges with
  | some m =>
    let x := mergePiece m e.vocab r.1.length r.1
    (x.1, r.2.1, r.2.2 ++ pairLooks m r.1 ++ x.2)
  | none => r

/-- The working carry of a stream while text passes, with the tokens formed. -/
structure TokSt where
  prefix8 : List Byte := []
  segment : List Nat := []
  piece : List CharUnit := []
  out : List W32 := []
  n : TokCount := {}
  deriving DecidableEq, Repr

/-- The open piece ends. -/
def TokSt.close (t : TokSt) (e : TokEnv) : TokSt :=
  if t.piece.isEmpty then t else
    let r := pieceTokens e t.piece
    { t with piece := [], out := t.out ++ r.1.map fun k => BitVec.ofNat 32 k
             n := { t.n with fallback := t.n.fallback + r.2.1, looks := t.n.looks ++ r.2.2 } }

/-- A character reaches the splitter (R232, steps 3 and 4). -/
def TokSt.char (t : TokSt) (e : TokEnv) (c : Nat) : TokSt :=
  let c := if c = 0x20 && e.spaceMap != 0 then e.spaceMap else c
  let cut := match t.piece.getLast? with
    | some (.cp a) => e.vocab.boundary (e.vocab.class a) (e.vocab.class c)
    | _ => false
  let t := if cut then t.close e else t
  let t := { t with piece := t.piece ++ [.cp c] }
  if e.pieceMax ≤ t.piece.length then
    let t := t.close e
    { t with n := { t.n with cuts := t.n.cuts + 1 } }
  else t

/-- The held segment leaves for the splitter. -/
def TokSt.endSegment (t : TokSt) (e : TokEnv) : TokSt :=
  match e.norm with
  | some m => (m.segmentOut t.segment).foldl (fun t c => t.char e c) { t with segment := [] }
  | none => t

/-- A unit of decoded text (R232). -/
def TokSt.unit (t : TokSt) (e : TokEnv) (u : CharUnit) : TokSt :=
  match u with
  | .bad b =>
    let t := (t.endSegment e).close e
    let t := ({ t with piece := [.bad b] }).close e
    { t with n := { t.n with ill := t.n.ill + 1 } }
  | .cp c =>
    match e.norm with
    | none => t.char e c
    | some m =>
      let r := m.normChar t.segment c
      r.2.foldl (fun t x => t.char e x) { t with segment := r.1 }

/-- Bytes of text. -/
def TokSt.text (t : TokSt) (e : TokEnv) (bs : List Byte) : TokSt :=
  let r := utf8Decode (t.prefix8 ++ bs)
  r.1.foldl (fun t u => t.unit e u) { t with prefix8 := r.2 }

/-- The flush (R236): an incomplete prefix becomes byte units, the segment and the piece end. -/
def TokSt.flush (t : TokSt) (e : TokEnv) : TokSt :=
  let t := t.prefix8.foldl (fun (t : TokSt) b => t.unit e (.bad b)) { t with prefix8 := [] }
  (t.endSegment e).close e

/-- Bytes carried (RESULT of IN_SUBMIT): the text that the stream has not yet turned into tokens. -/
def carryBytes (pre : List Byte) (seg piece : List CharUnit) : Nat :=
  let len := fun (u : CharUnit) => match u with | .cp c => (utf8Encode c).length | .bad _ => 1
  pre.length + (seg.map len).sum + (piece.map len).sum

/-! ## Streams (R235 to R238, R245) -/

/-- The stream of a session. -/
def State.stream? (s : State) (sid : W64) : Option Stream := s.intake.streams.find? fun x => x.sid == sid

/-- The tables a profile names now (R245). -/
def State.tablesNow (s : State) (p : Profile) : List (Nat × Nat × W32) :=
  [(1, p.vocabId), (2, p.mergeId), (3, p.normId)].filterMap fun x =>
    (s.table? p.bed x.1 x.2).map fun t => (x.1, x.2, t.version)

/-- The tables bound by a list of versions. -/
def State.tokEnv (s : State) (p : Profile) (bound : List (Nat × Nat × W32)) : Option TokEnv :=
  let get := fun (k : Nat) => (bound.find? fun x => x.1 == k).bind fun x => s.tableV? p.bed k x.2.1 x.2.2
  (get 1).map fun v =>
    { vocab := v, merges := get 2, norm := get 3, pieceMax := p.pieceMax, spaceMap := p.spaceMap }

/-- What tokenizing counts in a Bed's registers (R249). -/
def State.tokCounts (s : State) (bed bytes : Nat) (n : TokCount) : State :=
  let s := s.bump64 .IN_BYTES_LO .IN_BYTES_HI bed bytes
  let s := s.bump64 .IN_FALLBACK_LO .IN_FALLBACK_HI bed n.fallback
  let s := s.bump .IN_PIECE_CUTS bed n.cuts
  (s.setTimes F.IN_STATUS_PIECE_CUT bed n.cuts).setTimes F.IN_STATUS_ILL_FORMED bed n.ill

/-! ## The caches of the tokenizer (R241) -/

/-- Keep of the entries of a set the first `n`, and every other entry. -/
def keepFirst {α : Type} (same : α → Bool) : Nat → List α → List α
  | _, [] => []
  | 0, x :: r => if same x then keepFirst same 0 r else x :: keepFirst same 0 r
  | n + 1, x :: r => x :: keepFirst same (if same x then n else n + 1) r

/-- Use an entry: it becomes the most recently used of its set, and the least recently used of nine leaves. -/
def touchLine (l : List CacheLine) (x : CacheLine) : List CacheLine :=
  x :: keepFirst (fun y => y.die == x.die && y.kind == x.kind && y.set == x.set) 7 (l.filter fun y => y != x)

/-- The entry of a slot of a table: one of 16,384 sets, whose choice is free (log entry 23). -/
def cacheLine (die : Nat) (t : Table) (slot : Nat) : CacheLine :=
  { die := die, kind := t.kind, bed := t.bed, id := t.id, version := t.version, slot := slot
    set := Config.tokSet t.kind t.bed t.id t.version slot % 16384 }

/-- A lookup hits when every slot it reads is held; each is held after it. -/
def lookUp (die : Nat) (t : Table) (slots : List Nat) (l : List CacheLine) : Bool × List CacheLine :=
  let xs := slots.map (cacheLine die t)
  (xs.all fun x => l.contains x, xs.foldl touchLine l)

/-- The lookups of a stretch of text on a die: hits, misses, and the caches after them. -/
def lookUps (die : Nat) (e : TokEnv) (looks : List Lookup) (l : List CacheLine) : Nat × Nat × List CacheLine :=
  looks.foldl (fun (a : Nat × Nat × List CacheLine) x =>
    match if x.1 = 1 then some e.vocab else e.merges with
    | some t =>
      let r := lookUp die t x.2 a.2.2
      (if r.1 then a.1 + 1 else a.1, if r.1 then a.2.1 else a.2.1 + 1, r.2)
    | none => a) (0, 0, l)

/-- Text of a Bed tokenized on a die: what it counts in the Bed's registers (R249) and in the die's (R250). -/
def State.tokWork (s : State) (die : Nat) (e : TokEnv) (bed bytes : Nat) (n : TokCount) : State :=
  let s := s.tokCounts bed bytes n
  let r := lookUps die e n.looks s.intake.caches
  let s := s.bump64 .DS_TOK_CACHE_HITS_LO .DS_TOK_CACHE_HITS_HI die r.1
  let s := s.bump64 .DS_TOK_CACHE_MISSES_LO .DS_TOK_CACHE_MISSES_HI die r.2.1
  { s with intake := { s.intake with caches := r.2.2 } }

/-- The carry of a stream as the tokenizer works on it. -/
def streamSt (x : Stream) : TokSt :=
  { prefix8 := x.prefix8, segment := x.segment.map unitCp, piece := x.piece }

/-- Put the tokenizer's carry back. -/
def streamKeep (x : Stream) (t : TokSt) : Stream :=
  { x with prefix8 := t.prefix8, segment := t.segment.map CharUnit.cp, piece := t.piece }

/-- A stream holds carry (R236). -/
def Stream.carries (x : Stream) : Bool := !(x.prefix8.isEmpty && x.segment.isEmpty && x.piece.isEmpty)

/-- Contexts of a die in use (R237). -/
def State.ctxUsed (s : State) (die : Nat) : Nat := (s.intake.streams.filter fun x => x.die == die && x.ctx).length

/-- The flush before a session leaves the node or enters PARKED (R238): the carry becomes waiting positions. A submission between
two chunks starts again after the flush, since the stream is as it was before it until it is appended (R239). -/
def State.flushIntake (s : State) (sid : W64) : State :=
  let us := updAll (fun (u : Submit) => u.sid == sid) (fun u => { d := u.d, sid := u.sid, records := u.src }) s.intake.submits
  let s := { s with intake := { s.intake with submits := us } }
  match s.stream? sid, s.owner? sid with
  | some x, some e =>
    let s := { s with intake := { s.intake with streams := s.intake.streams.filter fun y => y.sid != sid } }
    match (s.profile? e.bed e.profile).bind fun p => s.tokEnv p x.bound with
    | none => s.sweepTables x.bed
    | some env =>
      let t := (streamSt x).flush env
      let s := (s.tokWork x.die env e.bed 0 t.n).bump64 .IN_TOKENS_LO .IN_TOKENS_HI e.bed t.out.length
      (s.addPending e t.out false false).sweepTables x.bed
  | _, _ => s

end Sys2Proof.Machine
end

