-- ==== Sys2Proof/Machine/Intake.lean ====
section
/-! DEFINITION. The intake commands (R234 to R248): IN_SUBMIT and its chunks, IN_TOKENIZE, and the loading and unloading of
tables, which grammars share (R243, R274). -/

namespace Sys2Proof.Machine

/-- The command-specific statuses of the intake commands (R248); SMP_GRAMMAR_UNLOAD has a TABLE_IN_USE of its own. -/
def tableInUse : Nat := 0x80
def contextFull : Nat := 0x81
def grammarInUse : Nat := 0x81

/-! ## Table headers (R227, R228, R230, R231, R256) -/

/-- The kind that a MAGIC names (R243). -/
def tableKind (bs : List Byte) : Nat :=
  match bytesAt bs 0 4 with
  | 0x42434F56 => 1 | 0x4752454D => 2 | 0x4D524F4E => 3 | 0x4C504C54 => 4 | _ => 0

/-- The identifier and the version of a table, at the same offsets in every kind. -/
def tableId (bs : List Byte) : Nat := bytesAt bs 6 2
def tableVersion (bs : List Byte) : W32 := BitVec.ofNat 32 (bytesAt bs 8 4)

/-- FORMAT, TABLE_ID, VERSION. -/
def headOk (bs : List Byte) : Bool := bytesAt bs 4 1 == 1 && bytesAt bs 6 2 != 0xFFFF && bytesAt bs 8 4 != 0

/-- A vocabulary's header and LENGTH (R227, R228, R509); the namespaces are disjoint (R225). -/
def vocabOk (bs : List Byte) : Bool :=
  let n := bytesAt bs 5 1
  let base := fun k => bytesAt bs (64 + 8 * k) 4
  let size := fun k => bytesAt bs (68 + 8 * k) 4
  let ks := List.range n
  let bb := bytesAt bs 16 4
  decide (1 ≤ n) && decide (n ≤ 16) && decide (bb < 2 ^ 20) && decide (base 0 ≤ bb) &&
  decide (bb + 256 ≤ base 0 + size 0) && decide (8 ≤ bytesAt bs 20 1) && decide (bytesAt bs 20 1 ≤ 21) &&
  bytesAt bs 21 3 == 0 && bytesAt bs 28 36 == 0 && bytesAt bs 224 32 == 0 &&
  ks.all (fun k => decide (base k < 2 ^ 20) && decide (1 ≤ size k) && decide (base k + size k ≤ 2 ^ 20)) &&
  (List.range 16).all (fun k => k < n || base k == 0) &&
  ks.all (fun k => ks.all fun j => j == k || decide (base j + size j ≤ base k) || decide (base k + size k ≤ base j)) &&
  bytesAt bs 12 4 == 557312 + 8 * size 0 + 8 * 2 ^ bytesAt bs 20 1 + bytesAt bs 24 4

/-- A merge table's header and LENGTH (R230). -/
def State.mergeOk (s : State) (bed : Nat) (bs : List Byte) : Bool :=
  let lg := bytesAt bs 5 1
  decide (10 ≤ lg) && decide (lg ≤ 22) && (s.table? bed 1 (bytesAt bs 16 2)).isSome && bytesAt bs 18 2 == 0 &&
  decide (bytesAt bs 20 4 ≤ min 1048576 (2 ^ (lg - 1))) && bytesAt bs 24 40 == 0 &&
  bytesAt bs 12 4 == 64 + 16 * 2 ^ lg

/-- A normalisation table's header and LENGTH (R231). -/
def normOk (bs : List Byte) : Bool :=
  let f := bytesAt bs 5 1
  let blocks := bytesAt bs 20 4
  let lg := bytesAt bs 28 1
  (f == 1 || f == 2) && bytesAt bs 19 1 == 0 && decide (1 ≤ blocks) && decide (blocks ≤ 4352) && decide (10 ≤ lg) &&
  decide (lg ≤ 16) && bytesAt bs 29 35 == 0 &&
  (List.range 4352).all (fun i => decide (bytesAt bs (64 + 2 * i) 2 < blocks)) &&
  bytesAt bs 12 4 == 8768 + 2048 * blocks + 4 * bytesAt bs 24 4 + 16 * 2 ^ lg

/-- A Talpol table's header and LENGTH (R256). -/
def State.talpolOk (s : State) (bed : Nat) (bs : List Byte) : Bool :=
  let depth := bytesAt bs 5 1
  let states := bytesAt bs 20 4
  let lg := bytesAt bs 36 1
  decide (1 ≤ depth) && decide (depth ≤ 64) && (s.table? bed 1 (bytesAt bs 16 2)).isSome && bytesAt bs 18 2 == 0 &&
  decide (1 ≤ states) && decide (states ≤ 65536) && decide (bytesAt bs 24 4 < states) && decide (10 ≤ lg) &&
  decide (lg ≤ 24) && bytesAt bs 37 27 == 0 &&
  bytesAt bs 12 4 == 64 + 16 * states + 8 * bytesAt bs 28 4 + 4 * bytesAt bs 32 4 + 16 * 2 ^ lg

/-- The header and LENGTH of a table of a kind; the buffer holds exactly the table (log entry 22). -/
def State.tableOk (s : State) (bed kind : Nat) (bs : List Byte) : Bool :=
  headOk bs && bytesAt bs 12 4 == bs.length &&
  (match kind with
   | 1 => vocabOk bs
   | 2 => s.mergeOk bed bs
   | 3 => normOk bs
   | _ => s.talpolOk bed bs)

/-- What a new version must keep (R243). -/
def keepsShape (kind : Nat) (old new : List Byte) : Bool :=
  match kind with
  | 1 => bytesAt old 5 1 == bytesAt new 5 1 && bytesAt old 64 128 == bytesAt new 64 128 && bytesAt old 16 4 == bytesAt new 16 4
  | 2 => bytesAt old 16 2 == bytesAt new 16 2
  | _ => true

/-! ## Loading (R243, R244) -/

/-- What a load comes to. -/
inductive LoadVerdict where
  | refuse (st : Nat)
  | same
  | accept
  deriving DecidableEq, Repr

/-- The limits on tables of a kind (R243, R259): current tables for kinds 1 to 3, versions for grammars. -/
def State.tableLimit (s : State) (bed kind : Nat) (replaces : Bool) : Bool :=
  let ts := s.intake.tables.filter fun t => t.kind == kind
  if kind = 4 then
    decide ((ts.filter fun t => t.bed == bed).length < 64) && decide (ts.length < 1024)
  else
    replaces || (decide ((ts.filter fun t => t.bed == bed && t.current).length < 8) &&
      decide ((ts.filter fun t => t.current).length < 64))

/-- The checks of a load, in their order (R243). -/
def State.loadVerdict (s : State) (bed kind : Nat) (bs : List Byte) : LoadVerdict :=
  if !s.tableOk bed kind bs then .refuse St.tableVersion else
  let cur := s.table? bed kind (tableId bs)
  if !(cur.all fun t => keepsShape kind t.bytes bs) then .refuse St.tableVersion else
  match cur with
  | some t =>
    if t.version = tableVersion bs then (if t.bytes = bs then .same else .refuse St.conflict)
    else if (tableVersion bs).toNat < t.version.toNat then .refuse St.versionRefused
    else if !s.tableLimit bed kind true then .refuse St.noResource
    else if (s.takeObject bed bs.length (s.bedOrder bed)).isNone then .refuse (s.roomRefusal bed bs.length)
    else .accept
  | none =>
    if !s.tableLimit bed kind false then .refuse St.noResource
    else if (s.takeObject bed bs.length (s.bedOrder bed)).isNone then .refuse (s.roomRefusal bed bs.length)
    else .accept

/-- The journal entry of a table's load or unload (R244). -/
def State.tableEntry (s : State) (d : Desc) (bed kind op id : Nat) (v : W32) (old new : W128) (refused : Bool) : JEntry :=
  s.jCmd d 0x0004 bed (op + kind * 256) (id + v.toNat * 2 ^ 32) old new refused

/-- The digest of the current version of a table, zero when there is none. -/
def State.tableDigest (s : State) (bed kind id : Nat) : W128 :=
  match s.table? bed kind id with | some t => digest128 t.bytes | none => 0

/-- RESULT of a load (R248, R274). -/
def loadResult (kind : Nat) (bs : List Byte) : Nat :=
  tableId bs + (if kind = 4 then 0 else kind * 2 ^ 16) + (tableVersion bs).toNat * 2 ^ 32

/-- A table load of the kinds `kinds`: a MAGIC of another kind completes with TABLE_VERSION and is not journalled. -/
def State.tableLoad (s : State) (d : Desc) (kinds : List Nat) : State :=
  let bed := (dBed d).getD 0
  let bs := s.buf0 d
  let kind := tableKind bs
  if !kinds.contains kind then s.complete d St.tableVersion else
  let e := s.tableEntry d bed kind 0 (tableId bs) (tableVersion bs) (s.tableDigest bed kind (tableId bs)) (digest128 bs)
  match s.loadVerdict bed kind bs with
  | .refuse st => s.submitCmd d [e true] [] (.complete d st 0)
  | .same => s.complete d St.ok (loadResult kind bs)
  | .accept => s.submitLoad d (e false) bs (s.takeWhole bed bs.length)

/-- A table load once durable: the new version becomes current; one without a binding that it replaces is freed (R245). -/
def State.tableLoadDone (s : State) (d : Desc) (bs : List Byte) (near : List Nat) : State :=
  let bed := (dBed d).getD 0
  let kind := tableKind bs
  let old := updAll (fun (t : Table) => t.bed == bed && t.kind == kind && t.id == tableId bs)
    (fun t => { t with current := false }) s.intake.tables
  let t : Table := { bed := bed, kind := kind, id := tableId bs, version := tableVersion bs, bytes := bs, near := near }
  let s := { s with intake := { s.intake with tables := t :: old } }
  (s.sweepTables bed).complete d St.ok (loadResult kind bs)

/-! ## Unloading (R246, R274) -/

/-- A session of a Bed names a grammar, in its context or in the values kept for its revival (R251, R274). -/
def State.grammarNamed (s : State) (bed id : Nat) : Bool :=
  ((s.ctxsOf bed).any fun c => c.ctl.grammar == some id || c.next.grammar == some id) ||
  s.smp.saved.any fun x => x.ctl.grammar == some id && (s.owner? x.sid).any fun e => e.bed == bed

/-- A profile, a merge table or a session of the Bed names the table (R246, R274). -/
def State.tableNamed (s : State) (bed kind id : Nat) : Bool :=
  match kind with
  | 1 => ((s.profilesOf bed).any fun p => p.vocabId == id) ||
         (s.intake.tables.any fun t => t.bed == bed && t.kind == 2 && t.at 16 2 == id)
  | 2 => (s.profilesOf bed).any fun p => p.mergeId == id
  | 3 => (s.profilesOf bed).any fun p => p.normId == id
  | _ => ((s.profilesOf bed).any fun p => p.field 188 2 == id) || s.grammarNamed bed id

/-- An unload of kind `kind`, which completes with `busy` while the table is named. -/
def State.tableUnload (s : State) (d : Desc) (kind id busy : Nat) : State :=
  let bed := (dBed d).getD 0
  match s.table? bed kind id with
  | none => s.complete d St.notFound
  | some t =>
    if s.tableNamed bed kind id then s.complete d busy
    else s.submitCmd d [s.tableEntry d bed kind 1 id t.version (digest128 t.bytes) 0 false] [] (.cmd d [] kind)

/-- An unload once durable. -/
def State.tableUnloadDone (s : State) (d : Desc) (kind id : Nat) : State :=
  let bed := (dBed d).getD 0
  match s.table? bed kind id with
  | none => s.complete d St.notFound
  | some t =>
    let ts := updAll (fun (t : Table) => t.bed == bed && t.kind == kind && t.id == id)
      (fun t => { t with current := false }) s.intake.tables
    (({ s with intake := { s.intake with tables := ts } }).sweepTables bed).complete d St.ok t.version.toNat

/-- IN_TABLE_UNLOAD (R246). -/
def State.inTableUnload (s : State) (d : Desc) : State :=
  if [1, 2, 3].contains (dArg d 48 1) then s.tableUnload d (dArg d 48 1) (dArg d 50 2) tableInUse
  else s.complete d St.notFound

/-! ## IN_TOKENIZE (R248) -/

/-- Text tokenized on one of the four dies, which one being free: what it counts there (R250, log entry 23). -/
def State.tokAnywhere (s : State) (e : TokEnv) (bed bytes : Nat) (n : TokCount) : State :=
  let (die, s) := s.draw 23
  (List.range 4).foldl (fun s q =>
    s.tokWork q e bed 0 { looks := if die.toNat % 4 = q then n.looks else [] }) (s.tokCounts bed bytes n)

/-- IN_TOKENIZE: the text as one record with END, under the profile's tables. A profile the Bed does not hold is NOT_FOUND. -/
def State.inTokenize (s : State) (d : Desc) : State :=
  let bed := (dBed d).getD 0
  match s.profile? bed (dArg d 48 2) with
  | none => s.complete d St.notFound
  | some p =>
    match s.tokEnv p (s.tablesNow p) with
    | none => s.complete d St.notFound
    | some env =>
      let bs := s.buf0 d
      let t := (({} : TokSt).text env bs).flush env
      let s := s.tokAnywhere env bed bs.length t.n
      let s := s.writeAddr d d.addr1 (List.flatten ((t.out.take (dLen1 d / 4)).map fun k => leBytes 4 k.toNat))
      s.complete d St.ok (min (dLen1 d / 4) t.out.length + t.out.length * 2 ^ 32)

/-! ## IN_SUBMIT (R234 to R240) -/

/-- The stream of a submission: its own, or a new one bound to the current tables (R245). -/
def State.openStream (s : State) (u : Submit) (p : Profile) (die : Nat) : Stream :=
  u.stream.getD { bed := p.bed, sid := u.sid, die := die, bound := s.tablesNow p }

/-- Flush the working stream of a submission (R235, R236). -/
def State.flushSubmit (s : State) (u : Submit) (p : Profile) : State × Submit :=
  match u.stream with
  | none => (s, u)
  | some x =>
    match s.tokEnv p x.bound with
    | none => (s, { u with stream := none })
    | some env =>
      let t := (streamSt x).flush env
      (s.tokWork x.die env p.bed 0 t.n,
       { u with stream := none, toks := u.toks ++ t.out, nText := u.nText + t.out.length, ill := u.ill + t.n.ill })

/-- Tokenize text of a submission; `last` flushes the stream after it. -/
def State.textSubmit (s : State) (u : Submit) (p : Profile) (die : Nat) (bs : List Byte) (last : Bool) : State × Submit :=
  let x := s.openStream u p die
  match s.tokEnv p x.bound with
  | none => (s, u)
  | some env =>
    let t := (streamSt x).text env bs
    let s := s.tokWork die env p.bed bs.length t.n
    let u := { u with stream := some (streamKeep x t), toks := u.toks ++ t.out, nText := u.nText + t.out.length
                      ill := u.ill + t.n.ill }
    if last then s.flushSubmit u p else (s, u)

/-- A text record has passed: what it leaves as carry takes an intake context (R237). -/
def Submit.hold (u : Submit) : Submit :=
  match u.stream with
  | some x => if x.carries then { u with took := true, stream := some { x with ctx := true } } else u
  | none => u

/-- The token IDs of an audio or token-ID record (R234). -/
def recordToks (vocab : Option Table) (p : Profile) (kind : Nat) (bs : List Byte) : List W32 :=
  (List.range (bs.length / 4)).map fun i =>
    let v := bytesAt bs (4 * i) 4 % 2 ^ 20
    let base := if kind = 1 then
        (match vocab with | some t => t.nsBase (i % max 1 p.codebooks + 1) | none => 0) else 0
    BitVec.ofNat 32 ((base + v) % 2 ^ 20)

/-- Process the records of a submission up to the next text; `n` bounds the records. A record that breaks R234 is unchecked
input (R84): what follows it is dropped. -/
def State.submitRecords (p : Profile) : Nat → State → Submit → State × Submit
  | 0, s, u => (s, { u with records := [] })
  | n + 1, s, u =>
    if u.text.isSome || u.records.length < 16 then (s, if u.text.isSome then u else { u with records := [] }) else
      let kind := bytesAt u.records 0 1
      let flags := bytesAt u.records 1 1
      let len := bytesAt u.records 4 4
      let body := (u.records.drop 16).take len
      if 2 < kind || body.length < len then (s, { u with records := [] }) else
        let last := flags % 4 != 0
        let u := { u with records := u.records.drop (16 + (len + 15) / 16 * 16), final := u.final || bitSet flags 1 }
        if kind = 0 then (s, { u with text := some (body, last) })
        else
          let r := s.flushSubmit u p
          let toks := recordToks (s.table? p.bed 1 p.vocabId) p kind body
          let u := r.2
          let u := if kind = 1 then { u with nAudio := u.nAudio + toks.length } else { u with nPass := u.nPass + toks.length }
          State.submitRecords p n r.1 { u with toks := u.toks ++ toks }

/-- The positions of a finished submission are appended, whole or not at all (R239, R237). -/
def State.endSubmit (s : State) (u : Submit) (e : Entry) (p : Profile) : State :=
  let die : Nat := match s.seq? u.sid with | some q => dieOf q.region | none => 0
  let us := s.intake.submits.filter fun x => x.d != u.d || x.sid != u.sid
  let s : State := { s with intake := { s.intake with submits := us } }
  let old := (s.stream? u.sid).any fun x => x.ctx
  let needs : Bool := u.took && !old && decide (4096 ≤ s.ctxUsed die)
  let recompute := match s.seq? u.sid with | some q => q.recompute.length | none => 0
  let waiting := match s.seat? u.sid with | some t => t.pend.length | none => 0
  if p.maxContext < e.position + waiting + recompute + u.toks.length then
    ((s.setStatus F.IN_STATUS_CONTEXT_FULL e.bed).sweepTables e.bed).complete u.d contextFull
  else if needs then
    ((s.setStatus F.IN_STATUS_NO_CONTEXT e.bed).sweepTables e.bed).complete u.d St.noResource
  else
    let keep := s.intake.streams.filter fun x => x.sid != u.sid
    let s := { s with intake := { s.intake with streams := keep ++ u.stream.toList } }
    let s := (s.recomputeIn u.sid).addPending e u.toks false u.final
    let s := s.bump64 .IN_TOKENS_LO .IN_TOKENS_HI e.bed u.nText
    let s := s.bump64 .IN_AUDIO_LO .IN_AUDIO_HI e.bed u.nAudio
    let s := s.bump64 .IN_PASSED_LO .IN_PASSED_HI e.bed u.nPass
    let carried := match u.stream with | some x => carryBytes x.prefix8 x.segment x.piece | none => 0
    ((s.prefixLookup u.sid).sweepTables e.bed).complete u.d St.ok
      (u.toks.length % 2 ^ 32 + (carried % 2 ^ 16) * 2 ^ 32 + min u.ill 0xFFFF * 2 ^ 48)

/-- A chunk of text comes into the tokenizer queue of its die (R136, R241). -/
def State.queueChunk (s : State) (u : Submit) : State × Submit :=
  ({ s with intake := { s.intake with turns := s.intake.turns + 1 } }, { u with turn := s.intake.turns })

/-- A chunk has been taken by one of the four engines of its die (R136, R26): of the chunks of its Bed that came into the queue before
it, fewer than four are not yet done. -/
def State.engineTurn (s : State) (q : Nat) (bed : Nat) (u : Submit) : Bool :=
  decide ((s.intake.submits.filter fun x => x.begun && x.text.isSome && decide (x.turn < u.turn) &&
    (s.seq? x.sid).any fun y => y.bed == bed && dieOf y.region == q).length < 4)

/-- The oldest submission of a session goes on: it starts if it has not, passes its records up to the next text, and ends when
none are left. The answer says whether it ended. -/
def State.pumpOnce (s : State) (sid : W64) (e : Entry) (p : Profile) : State × Bool :=
  match s.intake.submits.find? fun u => u.sid == sid with
  | none => (s, false)
  | some u =>
    let u := if u.begun then u else { u with begun := true, stream := s.stream? sid }
    let r := State.submitRecords p (u.records.length / 16 + 1) s u
    if r.2.text.isNone && r.2.records.isEmpty then
      let s := r.1
      (s.endSubmit r.2 e p, true)
    else
      let r := if u.text.isNone && r.2.text.isSome then r.1.queueChunk r.2 else r
      let us := updFirst (fun (x : Submit) => x.sid == sid) (fun _ => r.2) r.1.intake.submits
      let s := r.1
      ({ s with intake := { s.intake with submits := us } }, false)

/-- Submissions of a session go on until one waits for a chunk; `n` bounds their number. -/
def State.pumpLoop (e : Entry) (p : Profile) : Nat → State → State
  | 0, s => s
  | n + 1, s =>
    let r := s.pumpOnce e.sid e p
    if r.2 then State.pumpLoop e p n r.1 else r.1

/-- The waiting submissions of a session go on, if it is LIVE or PAUSED with its region (R240). -/
def State.pumpIntake (s : State) (sid : W64) : State :=
  match s.owner? sid, s.seq? sid with
  | some e, some _ =>
    if e.state == .live || e.state == .paused then
      match s.profile? e.bed e.profile with
      | some p => State.pumpLoop e p (s.intake.submits.length + 1) s
      | none => s
    else s
  | _, _ => s

/-- IN_SUBMIT (R235, R240): input wakes a session that is not LIVE (R98), and is tokenized once the session has its
region. -/
def State.inSubmit (s : State) (d : Desc) : State :=
  match s.targetSid d with
  | none => s.complete d St.notOwner
  | some sid =>
    match s.heldEntry d sid with
    | .error st => s.complete d st
    | .ok e =>
      let u : Submit := { d := d, sid := sid, records := s.buf0 d }
      let add : State → State := fun s => { s with intake := { s.intake with submits := s.intake.submits ++ [u] } }
      match e.state with
      | .live => (add s).pumpIntake sid
      | .closed => s.complete d St.notOwner
      | _ =>
        match (add s).wakeByInput e with
        | .ok s => s.pumpIntake sid
        | .error st =>
          let s := if st == St.notFound || st == St.tableVersion then s.setStatus F.SES_STATUS_REVIVE_REFUSED e.bed else s
          (s.noRegion e.bed st).complete d st

/-- The next chunk of a submission is done: its text is tokenized, and what is left waits for a further turn. -/
def State.chunkDoneOf (s : State) (q : Nat) (u : Submit) (p : Profile) (bs : List Byte) (last : Bool) : State :=
  let rest := bs.drop 4096
  let r := s.textSubmit u p q (bs.take 4096) (last && rest.isEmpty)
  let r := if rest.isEmpty then (r.1, ({ r.2 with text := none } : Submit).hold)
    else r.1.queueChunk { r.2 with text := some (rest, last) }
  let us := updFirst (fun (x : Submit) => x.sid == u.sid) (fun _ => r.2) r.1.intake.submits
  let s := r.1
  let s := { s with intake := { s.intake with submits := us } }
  (s.countFree (16 + q) 0x20 0 (some p.bed)).pumpIntake u.sid

/-- TOKENIZE_CHUNK (R241, R242): an engine of die `q` completes the next 4 KiB of a session's text; nothing happens while no engine
has taken it. -/
def State.tokenizeChunk (s : State) (q : Nat) (sid : W64) : State :=
  match s.owner? sid, s.seq? sid, s.intake.submits.find? fun u => u.sid == sid with
  | some e, some sq, some u =>
    match s.profile? e.bed e.profile, u.text with
    | some p, some (bs, last) =>
      if dieOf sq.region != q || !u.begun || !s.engineTurn q e.bed u then s else s.chunkDoneOf q u p bs last
    | _, _ => s
  | _, _, _ => s

end Sys2Proof.Machine
end

