-- ==== Sys2Proof/Machine/SmpOps.lean ====
section
/-! DEFINITION. The sampler and the Sieve (R254 to R259), the detokenizer and the stop matcher (R264, R265), what a token
writes to the Furrow (R267 to R269, R515), the opening and the end of a turn (R262, R263) and the cut (R114, R270). -/

namespace Sys2Proof.Machine

/-! ## The Sieve (R256 to R259) -/

/-- The offsets of a Talpol table's pools. -/
def Table.rangeOff (t : Table) : Nat := 64 + 16 * t.at 20 4
def Table.guardOff (t : Table) : Nat := t.rangeOff + 8 * t.at 28 4
def Table.transOff (t : Table) : Nat := t.guardOff + 4 * t.at 32 4

/-- A transition: next state, OP and SYMBOL (R257). -/
structure Trans where
  next : Nat
  op : Nat := 0
  symbol : Nat := 0
  deriving DecidableEq, Repr

/-- The transition of a state and a token (R257). -/
def Table.trans (t : Table) (st tok : Nat) : Trans :=
  let lg := t.at 36 1
  let at_ := fun (i : Nat) => t.transOff + 16 * i
  match probe (2 ^ lg) (fun i => bitSet (t.at (at_ i) 4) 31)
      (fun i => t.at (at_ i) 2 == st && t.at (at_ i + 4) 4 % 2 ^ 20 == tok) (2 ^ lg) (hashSlot lg (pairHash st tok)) with
  | some i => { next := t.at (at_ i + 8) 2, op := t.at (at_ i + 10) 1 % 4, symbol := t.at (at_ i + 12) 2 }
  | none => { next := t.at (64 + 16 * st + 12) 2 }

/-- A token lies in a range of a state (R257). -/
def Table.inRange (t : Table) (st tok : Nat) : Bool :=
  let first := t.at (64 + 16 * st) 4
  (List.range (t.at (64 + 16 * st + 4) 2)).any fun k =>
    let o := t.rangeOff + 8 * (first + k)
    decide (t.at o 4 % 2 ^ 20 ≤ tok) && decide (tok ≤ t.at (o + 4) 4 % 2 ^ 20)

/-- A Sieve: the grammar bound, its state and its stack, top first; none is unconstrained (R258). -/
abbrev Sieve := Option (Table × Nat × List Nat)

/-- A text token is allowed (R259). -/
def sieveAllows (v : Sieve) (endTok : Option Nat) (tok : Nat) : Bool :=
  match v with
  | none => true
  | some (t, st, stack) =>
    let x := t.trans st tok
    (t.inRange st tok || (endTok == some tok && t.at (64 + 16 * st + 14) 1 % 2 == 1)) &&
    (x.op != 1 || stack.length != t.at 5 1) && (x.op != 2 || stack.head? == some x.symbol)

/-- Accept a text token (R259). -/
def sieveStep (v : Sieve) (tok : Nat) : Sieve :=
  v.map fun x =>
    let r := x.1.trans x.2.1 tok
    (x.1, r.next, match r.op with | 1 => r.symbol :: x.2.2 | 2 => x.2.2.drop 1 | _ => x.2.2)

/-- The Sieve of an output context. -/
def State.sieve (s : State) (c : OutCtx) : Sieve :=
  match c.bound with
  | some (id, v) => (s.tableV? c.bed 4 id v).map fun t => (t, c.state, c.stack)
  | none => none

/-- Put a Sieve's state back into an output context. -/
def setSieve (c : OutCtx) (v : Sieve) : OutCtx :=
  match v with
  | some (_, st, stack) => { c with state := st, stack := stack }
  | none => c

/-! ## The draw (R254, R255) -/

/-- The uniform number of R255, in units of 2^-25: an odd number. -/
def uniform25 (seed : W64) (turnSeq x : Nat) : Nat :=
  let c : W64 := BitVec.ofNat 64 (turnSeq * 2 ^ 23 + x)
  let z := seed + (c + 1) * 0x9E3779B97F4A7C15#64
  let z := (z ^^^ (z >>> 30)) * 0xBF58476D1CE4E5B9#64
  let z := (z ^^^ (z >>> 27)) * 0x94D049BB133111EB#64
  let z := z ^^^ (z >>> 31)
  2 * (z >>> 40).toNat + 1

/-- A token of a record with its logit and p. -/
structure Cand where
  tok : Nat
  logit : W32
  p : W32
  deriving DecidableEq, Repr

/-- The tokens and logits of a record (R178). -/
def recordLogits (vocab : Option Table) (r : LogitRec) : List (Nat × W32) :=
  if r.mode = 1 then r.pairs.map fun x => (x.1.toNat % 2 ^ 20, x.2)
  else
    let base := match vocab with | some t => t.nsBase r.ns | none => 0
    r.full.zipIdx.map fun x => (base + x.2, bf16To32 x.1)

/-- exp of a difference; the difference of an infinite logit and a finite one is taken as R153 takes it. -/
def expDiff (a b : W32) : W32 := f32Exp (f32Sub a b)

/-- ln of the sum of exp over logits, formed over differences to the largest (log entry 24). -/
def lseOf (ls : List W32) : W32 :=
  match ls with
  | [] => 0
  | a :: r =>
    let m := r.foldl f32Max2 a
    f32Add m (f32Ln (f32Sum (ls.map fun l => expDiff l m)))

/-- The allowed tokens of a record in rank order, and whether a NaN was removed (R254). -/
def ranked (vocab : Option Table) (v : Sieve) (endTok : Option Nat) (r : LogitRec) : List Cand × Bool :=
  let all := recordLogits vocab r
  let clean := (all.filter fun x => !f32IsNan x.2).map fun x => (x.1, if x.2 = f32Inf then f32Max else x.2)
  let a := if r.ns = 0 then all.filter fun x => sieveAllows v endTok x.1 else all
  let nan := a.any fun x => f32IsNan x.2
  let a := (a.filter fun x => !f32IsNan x.2).map fun x => (x.1, if x.2 = f32Inf then f32Max else x.2)
  let lse := if r.mode = 1 then r.lse else lseOf (clean.map fun x => x.2)
  let cs := a.map fun x => ({ tok := x.1, logit := x.2, p := expDiff x.2 lse } : Cand)
  (sortBy (fun (x y : Cand) => f32Lt y.p x.p || (!f32Lt x.p y.p && decide (x.tok < y.tok))) cs, nan)

/-- The length of the shortest leading run whose sum of p reaches `t`; the whole when none does. -/
def topRun (cs : List Cand) (t : W32) : Nat :=
  match (List.range cs.length).find? fun k => f32Le t (f32Sum ((cs.take (k + 1)).map fun c => c.p)) with
  | some k => k + 1
  | none => cs.length

/-- Which ranked token is drawn where R254 states none: with logits of minus infinity only, or when rounding leaves no running sum
above the threshold. Which one is free (log entry 24). -/
def openPick (cs : List Cand) (ctl : Controls) (u25 : Nat) : Option Nat :=
  cs[Config.openDraw (cs.map fun c => (c.tok, c.logit)) ctl.temperature u25 % cs.length]?.map fun c => c.tok

/-- One draw among ranked tokens (R254). -/
def pick (cs : List Cand) (ctl : Controls) (u25 : Nat) : Option Nat :=
  let cs := if ctl.topK = 0 then cs else cs.take ctl.topK
  let cs := cs.take (topRun cs (if ctl.topP &&& 0x7FFFFFFF#32 = 0 then f32One else ctl.topP))
  match cs with
  | [] => none
  | c0 :: _ =>
    let cs := cs.filter fun c => !f32Lt c.p (f32Mul ctl.minP c0.p)
    if ctl.temperature &&& 0x7FFFFFFF#32 = 0 then some c0.tok
    else if !f32IsFinite c0.logit then openPick cs ctl u25
    else
      let ws := cs.map fun c => f32Exp (f32Div (f32Sub c.logit c0.logit) ctl.temperature)
      let thr := f32OfFx (fxMul (.fin u25 (-25)) (f32Val (f32Sum ws)))
      match (List.range cs.length).find? fun k => f32Lt thr (f32Sum (ws.take (k + 1))) with
      | some k => (cs.getD k c0).tok
      | none => openPick cs ctl u25

/-! ## Detokenizing and stop strings (R264, R265) -/

/-- The replacement character. -/
def fffd : List Byte := [0xEF#8, 0xBF#8, 0xBD#8]

/-- A byte of the detokenizer's stream: the characters it releases. A maximal subpart that is broken is one U+FFFD. -/
def detokByte (held : Utf8) (b : Byte) : Utf8 × List (List Byte) :=
  let r := utf8Step held b
  let broke := held.need != 0 && !(decide (held.lo ≤ b.toNat) && decide (b.toNat ≤ held.hi))
  let own := if broke then (utf8First b).2 else r.2
  let chars := own.map fun u => match u with | .cp c => utf8Encode c | .bad _ => fffd
  (r.1, if broke then fffd :: chars else chars)

/-- The decoder of held bytes. -/
def heldUtf8 (held : List Byte) : Utf8 := held.foldl (fun u b => (utf8Step u b).1) {}

/-- The characters that a token's string releases, and the bytes then held; SPACE_MAP becomes U+0020 again. -/
def detok (held bs : List Byte) (spaceMap : Nat) : List (List Byte) × List Byte :=
  let r := bs.foldl (fun (a : Utf8 × List (List Byte)) b => let x := detokByte a.1 b; (x.1, a.2 ++ x.2)) (heldUtf8 held, [])
  let back := fun (c : List Byte) => if spaceMap != 0 && c == utf8Encode spaceMap then [0x20#8] else c
  (r.2.map back, r.1.acc)

/-- A byte list ends with another. -/
def endsWith (a b : List Byte) : Bool := decide (b.length ≤ a.length) && a.drop (a.length - b.length) == b

/-- The bytes of characters. -/
def charBytes (l : List (List Byte × Nat)) : List Byte := List.flatten (l.map fun x => x.1)

/-- The longest trailing run of characters that is a proper prefix of a stop string. -/
def holdBack (stops : List (List Byte)) (l : List (List Byte × Nat)) : Nat :=
  ((List.range (l.length + 1)).reverse.find? fun k =>
    let t := charBytes (l.drop (l.length - k))
    k == 0 || stops.any fun p => decide (t.length < p.length) && p.take t.length == t).getD 0

/-- Characters without as many at the end as cover `n` bytes. -/
def dropBytes (n : Nat) (l : List (List Byte × Nat)) : List (List Byte × Nat) :=
  (List.range (l.length + 1)).foldl (fun best k =>
    if n ≤ (charBytes (l.drop k)).length then l.take k else best) []

/-- The stop matcher over released characters: what passes, what is held back, and the string that completed. -/
def matchStops (stops : List (List Byte)) : List (List Byte × Nat) → List (List Byte × Nat) →
    List (List Byte × Nat) × List (List Byte × Nat) × Option Nat
  | held, [] => ([], held, none)
  | held, c :: r =>
    let l := held ++ [c]
    match (List.range stops.length).find? fun i =>
        !(stops.getD i []).isEmpty && endsWith (charBytes l) (stops.getD i []) with
    | some i => (dropBytes (stops.getD i []).length l, [], some i)
    | none =>
      let k := holdBack stops l
      let x := matchStops stops (l.drop (l.length - k)) r
      (l.take (l.length - k) ++ x.1, x.2.1, x.2.2)

/-- Whole characters of one token into chunks of at most 40 bytes (R515). -/
def chunk40 : List (List Byte) → List Byte → List (List Byte)
  | [], cur => if cur.isEmpty then [] else [cur]
  | c :: r, cur => if cur.length + c.length ≤ 40 then chunk40 r (cur ++ c) else cur :: chunk40 r c

/-- Characters grouped by the position of their token. -/
def runsByPos : List (List Byte × Nat) → List (Nat × List (List Byte))
  | [] => []
  | c :: r =>
    match runsByPos r with
    | (p, cs) :: t => if p = c.2 then (p, c.1 :: cs) :: t else (c.2, [c.1]) :: (p, cs) :: t
    | [] => [(c.2, [c.1])]

/-- The TEXT entries of characters (R267, R515): CONT on every entry of a token but its last. -/
def textEntries (sid ft : W64) (l : List (List Byte × Nat)) : List FurEntry :=
  List.flatten ((runsByPos l).map fun x =>
    let chunks := chunk40 x.2 []
    chunks.zipIdx.map fun (y : List Byte × Nat) =>
      { typ := 0x01, cont := y.2 + 1 != chunks.length, count := y.1.length, position := x.1, sid := sid, ft := ft
        payload := y.1 })

/-- The position of the token that released the last characters. -/
def lastPos (l : List (List Byte × Nat)) : Option Nat := l.getLast?.map fun x => x.2

/-- What of the characters passed on is written now, and what waits: while a token may still get more characters, those of its last
entry wait, so that R515 fills it and sets CONT as it says (log entry 108). `more` is the position of the token that may. -/
def splitText (more : Option Nat) (l : List (List Byte × Nat)) : List (List Byte × Nat) × List (List Byte × Nat) :=
  if l.isEmpty || more != lastPos l then (l, []) else
    let own := (l.filter fun x => some x.2 == more).map fun x => x.1
    let tail := ((chunk40 own []).getLast?.getD []).length
    let k := (List.range (l.length + 1)).findIdx fun k => decide ((charBytes (l.drop k)).length ≤ tail)
    (l.take k, l.drop k)

/-- The TEXT entries of characters of which `waiting` come later: the last entry written of their token has CONT set. -/
def textBefore (sid ft : W64) (l waiting : List (List Byte × Nat)) : List FurEntry :=
  let es := textEntries sid ft l
  match waiting with
  | [] => es
  | x :: _ => es.map fun e => if e.position = x.2 then { e with cont := true } else e

/-! ## Audio (R269) -/

/-- The payload of an AUDIO entry. -/
def audioBytes (toks : List W32) : List Byte :=
  leBytes 40 (toks.zipIdx.foldl (fun a x => a + (x.1.toNat % 2 ^ 20) * 2 ^ (20 * x.2)) 0)

/-- The play log with a frame added (R269): a frame that follows on joins the newest segment. The answer says whether the
oldest of 256 segments was overwritten. -/
def logFrame (log : List (Nat × W64 × Nat)) (codebooks : Nat) (step : W64) (pos : Nat) (start : W64) :
    List (Nat × W64 × Nat) × Bool :=
  match log with
  | (p, t, n) :: r =>
    if p + n * codebooks = pos && t + BitVec.ofNat 64 n * step == start then ((p, t, n + 1) :: r, false)
    else ((pos, start, 1) :: log.take 255, decide (256 ≤ log.length))
  | [] => ([(pos, start, 1)], false)

/-- Write the frame gathered (R269). -/
def State.writeFrame (s : State) (e : Entry) (p : Profile) : State :=
  match s.ctx? e.sid, s.seat? e.sid with
  | some c, some t =>
    let toks := c.frame.map fun x => x.2
    match c.frame.head?.map fun x => x.1 with
    | none => s
    | some pos =>
      let now := s.sesFt e.sid
      let late := !ftReached t.playEnd now
      let start := if late then now else t.playEnd
      let step : W64 := BitVec.ofNat 64 (p.frameFt * ftUnit)
      let s := if late then
          let gap := ((now - t.playEnd).toNat / ftUnit) % 2 ^ 32
          let s := s.event e.sid 0x13 pos 0 (leBytes 8 t.playEnd.toNat ++ leBytes 4 gap)
          (s.bump .SMP_UNDERRUNS e.bed).setStatus F.SMP_STATUS_UNDERRUN e.bed
        else s
      let s := s.updSeat e.sid fun t => { t with playEnd := start + step }
      let lg := logFrame c.playLog p.codebooks step pos start
      let s := if lg.2 then s.setStatus F.SMP_STATUS_PLAYLOG_WRAP e.bed else s
      let s := s.updCtx e.sid fun c => { c with playLog := lg.1, frame := [], turnAudio := true }
      s.furPut e.sid { typ := 0x02, count := toks.length, position := pos, sid := e.sid, ft := start
                       payload := audioBytes toks }
  | _, _ => s

/-- The position at which a mode-1 cut meets playback time `t` (R114, R269): the first frame of the log, oldest segment
first, whose play start is not earlier. -/
def playCut (log : List (Nat × W64 × Nat)) (p : Profile) (t : W64) : Option Nat :=
  let step : W64 := BitVec.ofNat 64 (p.frameFt * ftUnit)
  let frames := List.flatten (log.reverse.map fun x =>
    (List.range x.2.2).map fun k => (x.1 + k * p.codebooks, x.2.1 + BitVec.ofNat 64 k * step))
  (frames.find? fun x => ftReached x.2 t).map fun x => x.1

/-! ## A token leaves (R264 to R269) -/

/-- A drawn or accepted token passes the detokenizer, the matcher and the Furrow writer; the answer is the stop string that
completed. The Sieve has advanced over it. -/
def State.emitToken (s : State) (e : Entry) (p : Profile) (pos ns tok : Nat) : State × Option Nat :=
  match s.ctx? e.sid with
  | none => (s, none)
  | some c =>
    let s := s.updCtx e.sid fun c => { c with turnTokens := c.turnTokens + 1 }
    if ns != 0 then
      if p.codebooks = 0 then (s, none) else
        let s := s.updCtx e.sid fun c => { c with frame := c.frame ++ [(pos, BitVec.ofNat 32 tok)] }
        (if p.codebooks ≤ c.frame.length + 1 then s.writeFrame e p else s, none)
    else
      match s.table? e.bed 1 p.vocabId with
      | none => (s, none)
      | some v =>
        if v.special tok then
          (s.furPut e.sid { typ := 0x03, count := 1, position := pos, sid := e.sid, ft := s.sesFt e.sid
                            payload := leBytes 4 (tok % 2 ^ 20) }, none)
        else
          let x := detok c.held (v.string tok) p.spaceMap
          let m := matchStops c.stops c.matched (x.1.map fun b => (b, pos))
          let held := if m.2.2.isSome then [] else x.2
          let more := match m.2.1 with
            | y :: _ => some y.2
            | [] => if held.isEmpty then none else some pos
          let t := splitText more (c.wait ++ m.1)
          let s := s.updCtx e.sid fun c => { c with
            held := held, matched := m.2.1, wait := t.2, turnToks := c.turnToks ++ [(pos, BitVec.ofNat 32 tok)] }
          (s.furPuts e.sid (textBefore e.sid (s.sesFt e.sid) t.1 t.2), m.2.2)

/-! ## Turns (R262, R263) -/

/-- A turn opens (R263): TURN_SEQ, the grammar and the stop strings are bound, everything the turn gathers starts empty. -/
def State.openTurn (s : State) (e : Entry) (p : Profile) : State :=
  let play := ftOfSample p.nextB
  let s := s.updCtx e.sid fun c =>
    let c := { c with ctl := { c.ctl with grammar := c.next.grammar } }
    let g := c.ctl.grammar.bind fun id => s.table? c.bed 4 id
    { c with turnSeq := c.turnSeq + 1, bound := g.map fun t => (t.id, t.version)
             state := (match g with | some t => t.at 24 4 | none => 0), stack := [], stops := c.nextStops, held := []
             matched := [], wait := [], frame := [], playLog := [], turnTokens := 0, turnToks := [], turnAudio := false
             drafts := [], group := [] }
  let s := s.updSeat e.sid fun t => { t with turn := true, playEnd := play }
  let s := s.updEntry e.sid fun x => { x with turnStart := e.position }
  s.event e.sid 0x10 e.position 0 (leBytes 8 play.toNat)

/-- A turn ends (R262): what is held back is written, TURN_END follows, and the group drawn goes ahead of other input. A stop
string that completed has discarded what was held. -/
def State.endTurn (s : State) (e : Entry) (p : Profile) (reason pos stop : Nat) (group : List W32) : State :=
  match s.ctx? e.sid with
  | none => s
  | some c =>
    let ending := if pos = 0 then 0 else pos - 1
    let rest := c.wait ++ c.matched ++ (if c.held.isEmpty then [] else [(fffd, ending)])
    let s := if reason = 1 then s else s.furPuts e.sid (textEntries e.sid (s.sesFt e.sid) rest)
    let s := s.writeFrame e p
    let s := s.updCtx e.sid fun c => { c with
      held := [], matched := [], wait := [], bound := none, drafts := [], group := [], frame := [], stack := [] }
    let s := s.updSeat e.sid fun t => { t with turn := false }
    let s := s.event e.sid 0x11 pos reason (leBytes 4 stop ++ leBytes 4 c.turnTokens)
    let s := if reason = 1 then s.bump .SMP_STOPS e.bed else s
    let s := if reason = 3 then s.setStatus F.SMP_STATUS_MASK_EMPTY e.bed else s
    ((s.addPending e group true false).sweepTables e.bed)

/-! ## The cut (R114, R270) -/

/-- The entries of a session in its Furrow, between head and tail, at `pos` or above become WITHDRAWN. -/
def State.withdrawRing (s : State) (f : Furrow) (sid : W64) (pos : Nat) : State :=
  (List.range f.used).foldl (fun s k =>
    let a := f.base + BitVec.ofNat 64 (64 * ((f.head + k) % furSize f))
    let bs := s.readFn (fnOf f.bed) a 64
    if bytesAt bs 8 8 == sid.toNat && decide (pos ≤ bytesAt bs 4 4 % 2 ^ 23) then s.writeFn (fnOf f.bed) a [0x1F#8] else s) s

/-- Every entry of a session at `pos` or above, written or waiting, becomes WITHDRAWN (R270, log entry 25). -/
def State.withdraw (s : State) (sid : W64) (pos : Nat) : State :=
  let s := match s.furrowOf sid with | some f => s.withdrawRing f sid pos | none => s
  let w := updAll (fun (x : FurEntry) => decide (pos ≤ x.position)) (fun x => { x with typ := 0x1F })
  s.updCtx sid fun c => { c with backlog := w c.backlog, paused := w c.paused, ice := w c.ice }

/-- The bytes held of a turn's text tokens below `pos` (R114, R264). -/
def heldAt (v : Option Table) (spaceMap : Nat) (toks : List (Nat × W32)) (pos : Nat) : List Byte :=
  match v with
  | none => []
  | some t => (toks.filter fun x => decide (x.1 < pos)).foldl (fun held x => (detok held (t.string x.2.toNat) spaceMap).2) []

/-- What a cut below POSITION takes away (R114): KV positions, transcript, recompute positions, Furrow entries and output state at
`pos` and above. -/
def State.cutAway (s : State) (e : Entry) (p : Profile) (pos : Nat) : State :=
  let s := (s.rollback e.sid p pos).truncateTrx e.sid pos
  let s := s.updSeq e.sid fun q => { q with recompute := [] }
  let s := s.updSeat e.sid fun t => { t with pend := t.pend.drop t.known, known := 0 }
  let s := s.withdraw e.sid pos
  s.updCtx e.sid fun c => { c with
    matched := c.matched.filter fun x => decide (x.2 < pos)
    wait := c.wait.filter fun x => decide (x.2 < pos)
    held := heldAt (s.table? e.bed 1 p.vocabId) p.spaceMap c.turnToks pos
    frame := c.frame.filter fun x => decide (x.1 < pos)
    turnToks := c.turnToks.filter fun x => decide (x.1 < pos), group := [], drafts := [] }

/-- A cut of a session to `pos` (R114): what lies at `pos` and above goes, unless that is POSITION and nothing is removed; CUT is
written and the turn ends. The tokens drawn for the next group lie at POSITION and above: they go where anything goes, and else
enter PENDING (R262, log entry 106). -/
def State.applyCut (s : State) (e : Entry) (pos : Nat) : State :=
  match s.profile? e.bed e.profile with
  | none => s
  | some p =>
    let s := if pos < e.position then s.cutAway e p pos else s
    let s := s.event e.sid 0x12 pos 0 (leBytes 4 (e.position - pos))
    let group := match s.ctx? e.sid with | some c => c.group | none => []
    if (s.seat? e.sid).any fun t => t.turn then s.endTurn e p 4 pos 0 group else s

end Sys2Proof.Machine
end

