-- ==== Sys2Proof/Machine/Attention.lean ====
section
/-! DEFINITION. Attention arithmetic: the narrow formats and block scales (R145 to R149), the page layout (R196), Grafts
(R183), the rotary encoding (R184), append and page summaries (R158, R198, R207), compaction (R210), and attention with
bounded page skipping (R150 to R164). -/

namespace Sys2Proof.Machine

/-! ## Narrow formats (R145 to R148) -/

/-- A small floating-point format: mantissa bits, bias, the largest finite code (without its sign), the largest exponent. -/
structure Small where
  bits : Nat
  mant : Nat
  bias : Int
  maxCode : Nat
  emax : Int
  nan : Bool := false
  deriving DecidableEq, Repr

def e4m3 : Small := { bits := 8, mant := 3, bias := 7, maxCode := 0x7E, emax := 8, nan := true }
def e3m2 : Small := { bits := 6, mant := 2, bias := 3, maxCode := 31, emax := 4 }
def e2m3 : Small := { bits := 6, mant := 3, bias := 1, maxCode := 31, emax := 2 }
def e2m1 : Small := { bits := 4, mant := 1, bias := 1, maxCode := 7, emax := 2 }

/-- The value of a code (R145). -/
def Small.val (f : Small) (code : Nat) : Fx :=
  let top := 2 ^ (f.bits - 1)
  let mag := code % top
  if f.nan && mag == top - 1 then .nan else
    let ex := mag / 2 ^ f.mant
    let mn := mag % 2 ^ f.mant
    let m : Int := if ex = 0 then mn else mn + 2 ^ f.mant
    .fin (if code / top % 2 = 1 then -m else m) ((if ex = 0 then (1 : Int) else (ex : Int)) - f.bias - f.mant)

/-- How a magnitude is rounded. -/
inductive Rnd where
  | near | up | down
  deriving DecidableEq, Repr

/-- The code of the magnitude a × 2^e, without a bound (R147). -/
def Small.mag (f : Small) (rnd : Rnd) (a : Nat) (e : Int) : Nat :=
  if a = 0 then 0 else
    let qmin := 1 - f.bias - f.mant
    let qe := max (e + (Nat.log2 a : Int) - f.mant) qmin
    let sh := qe - e
    let q := if sh ≤ 0 then a * 2 ^ (-sh).toNat else
      let d := 2 ^ sh.toNat
      let r := a % d
      a / d + (match rnd with
        | .near => if d < 2 * r || (d = 2 * r && a / d % 2 = 1) then 1 else 0
        | .up => if r = 0 then 0 else 1
        | .down => 0)
    (qe - qmin).toNat * 2 ^ f.mant + q

/-- Convert a value to a code: to nearest even, saturating; a NaN becomes the format's NaN, or zero where it has none
(R147). -/
def Small.enc (f : Small) (x : Fx) : Nat :=
  match x with
  | .nan => if f.nan then 2 ^ (f.bits - 1) - 1 else 0
  | .inf n => f.maxCode + if n then 2 ^ (f.bits - 1) else 0
  | .fin m e => min (f.mag .near m.natAbs e) f.maxCode + if m < 0 then 2 ^ (f.bits - 1) else 0

/-- A value times a power of two. -/
def fxScale (x : Fx) (k : Int) : Fx := match x with | .fin m e => .fin m (e + k) | y => y

/-- A value is NaN. -/
def fxNan (x : Fx) : Bool := x == .nan

/-- floor(log2) of a value's magnitude; none for zero and NaN. An infinity counts as the largest FP32 (R147, log entry 26). -/
def fxLog2 (x : Fx) : Option Int :=
  match x with
  | .nan => none
  | .inf _ => some 127
  | .fin m e => if m = 0 then none else some ((Nat.log2 m.natAbs : Int) + e)

/-- The E8M0 code of a block for an element format (R148). -/
def blockScale (f : Small) (xs : List Fx) : Nat :=
  match xs.foldl (fun (a : Option Int) x => match a, fxLog2 x with
      | none, b => b
      | some p, some q => some (max p q)
      | some p, none => some p) none with
  | none => 0
  | some l => (max 0 (min 254 (l - f.emax + 127))).toNat

/-- The power of two of an E8M0 code. -/
def scaleExp (s : Nat) : Int := (s : Int) - 127

/-- A block converted under R148: scale and codes. In an element format without NaN, a NaN makes the scale 0xFF. -/
def blockEnc (f : Small) (xs : List Fx) : Nat × List Nat :=
  let s := blockScale f xs
  let codes := xs.map fun x => f.enc (fxScale x (-(scaleExp s)))
  (if !f.nan && xs.any fxNan then 0xFF else s, codes)

/-- The values of a block (R146). -/
def blockVal (f : Small) (s : Nat) (codes : List Nat) : List Fx :=
  if s = 0xFF then codes.map fun _ => .nan else codes.map fun c => fxScale (f.val c) (scaleExp s)

/-- A list in pieces of `n`; `k` bounds their number. -/
def chunks {α : Type} (n : Nat) : Nat → List α → List (List α)
  | 0, _ => []
  | k + 1, l => if l.isEmpty then [] else l.take n :: chunks n k (l.drop n)

/-- Values converted to block-scaled FP8 and read back (R148). -/
def viaFp8 (xs : List Fx) : List Fx :=
  List.flatten ((chunks 32 xs.length xs).map fun b => let r := blockEnc e4m3 b; blockVal e4m3 r.1 r.2)

/-- BF16 as a small format: its subnormals are kept, and a value beyond its range saturates (R145, R147). -/
def bf16Small : Small := { bits := 16, mant := 7, bias := 127, maxCode := 0x7F7F, emax := 127, nan := true }

/-- A value converted to BF16 and read back (R147, R149). -/
def viaBf16 (x : Fx) : Fx := bf16Small.val (bf16Small.enc x)

/-! ## Stored vectors (R146, R196) -/

/-- Codes packed `w` bits each, from bit 0. -/
def packBits (w : Nat) (cs : List Nat) : List Byte :=
  leBytes (cs.length * w / 8) (cs.zipIdx.foldl (fun a x => a + x.1 * 2 ^ (w * x.2)) 0)

/-- The element format of a KV format. -/
def kvSmall (fmt : Nat) : Small := match fmt with | 0 => e4m3 | 1 => e2m1 | 2 => e3m2 | _ => e2m3

/-- A head vector as it is stored: element bytes and scale bytes (R148, R196). -/
def vecStore (fmt : Nat) (xs : List Fx) : List Byte × List Byte :=
  let f := kvSmall fmt
  if fmt = 0 then (packBits 8 (xs.map f.enc), []) else
    let bs := (chunks 32 xs.length xs).map fun b => blockEnc f b
    (packBits f.bits (List.flatten (bs.map fun b => b.2)), bs.map fun b => BitVec.ofNat 8 b.1)

/-- The values of a stored head vector. -/
def vecLoad (fmt d : Nat) (elems scales : List Byte) : List Fx :=
  let f := kvSmall fmt
  let v := leNat elems
  let codes := (List.range d).map fun i => v >>> (f.bits * i) % 2 ^ f.bits
  if fmt = 0 then codes.map f.val else
    List.flatten (((chunks 32 d codes).zip scales).map fun b => blockVal f b.2.toNat b.1)

/-- Bytes of a head's elements, without scales (R196). -/
def Profile.elemBytes (p : Profile) : Nat := if p.kvFormat = 0 then p.headDim else p.vecBytes - p.headDim / 32

/-- Scale bytes of a head vector. -/
def Profile.scaleBytes (p : Profile) : Nat := if p.kvFormat = 0 then 0 else p.headDim / 32

/-- Where slot `t` of head `h` lies in a frame: keys, or values (R196): offsets of its elements and of its scales. -/
def Profile.vecAt (p : Profile) (h t : Nat) (value : Bool) : Nat × Nat :=
  let base := h * 32 * p.vecBytes + if value then 16 * p.vecBytes else 0
  (base + t * p.elemBytes, base + 16 * p.elemBytes + t * p.scaleBytes)

/-- Where the summary of head `h` lies: MAX elements, MAX scales, MIN elements, MIN scales (R196). -/
def Profile.sumAt (p : Profile) (h : Nat) : Nat × Nat × Nat × Nat :=
  let d := p.headDim
  let b := 32 * p.kvheads * p.vecBytes + h * 2 * (d + d / 32)
  (b, b + d, b + d + d / 32, b + 2 * d + d / 32)

/-- Read one stored vector of a frame. -/
def State.readVec (s : State) (p : Profile) (frame h t : Nat) (value : Bool) : List Fx :=
  let a := p.vecAt h t value
  vecLoad p.kvFormat p.headDim (s.nearRead (frame + a.1) p.elemBytes) (s.nearRead (frame + a.2) p.scaleBytes)

/-- Write one vector into a frame. -/
def State.writeVec (s : State) (p : Profile) (frame h t : Nat) (value : Bool) (xs : List Fx) : State :=
  let a := p.vecAt h t value
  let b := vecStore p.kvFormat xs
  (s.nearWrite (frame + a.1) b.1).nearWrite (frame + a.2) b.2

/-! ## Summaries (R157, R158, R198) -/

/-- A block of a summary: codes rounded outward, the scale raised by one where an element would pass 448. -/
def sumBlock (max_ : Bool) (xs : List Fx) : Nat × List Nat :=
  let enc := fun (s : Nat) => xs.map fun x =>
    match fxScale x (-(scaleExp s)) with
    | .fin m e =>
      let away := if max_ then decide (0 < m) else decide (m < 0)
      e4m3.mag (if away then .up else .down) m.natAbs e + if m < 0 then 128 else 0
    | y => e4m3.enc y
  let s := blockScale e4m3 xs
  let above := ((enc s).zip xs).any fun c => !fxNan c.2 && decide (0x7E < c.1 % 128)
  let s := if above then min 254 (s + 1) else s
  (s, (enc s).zip xs |>.map fun c => if fxNan c.2 then 0x7F else min (c.1 % 128) 0x7E + c.1 / 128 * 128)

/-- A summary vector as it is stored. -/
def sumStore (max_ : Bool) (xs : List Fx) : List Byte × List Byte :=
  let bs := (chunks 32 xs.length xs).map fun b => sumBlock max_ b
  ((List.flatten (bs.map fun b => b.2)).map fun c => BitVec.ofNat 8 c, bs.map fun b => BitVec.ofNat 8 b.1)

/-- A stored summary vector. -/
def sumLoad (d : Nat) (elems scales : List Byte) : List Fx :=
  List.flatten (((chunks 32 d (elems.map fun b => b.toNat)).zip scales).map fun b => blockVal e4m3 b.2.toNat b.1)

/-- The larger, or the smaller, of two values; NaN if either is. -/
def fxPick (max_ : Bool) (a b : Fx) : Fx :=
  if fxNan a || fxNan b then .nan else if fxLt a b == max_ then b else a

/-- Read MAX, or MIN, of a head's summary. -/
def State.readSum (s : State) (p : Profile) (frame h : Nat) (max_ : Bool) : List Fx :=
  let a := p.sumAt h
  let e := if max_ then a.1 else a.2.2.1
  let c := if max_ then a.2.1 else a.2.2.2
  sumLoad p.headDim (s.nearRead (frame + e) p.headDim) (s.nearRead (frame + c) (p.headDim / 32))

/-- Fold a key into a head's summary, or begin it (R158, R198). -/
def State.foldSum (s : State) (p : Profile) (frame h : Nat) (valid max_ : Bool) (key : List Fx) : State :=
  let xs := if valid then ((s.readSum p frame h max_).zip key).map fun x => fxPick max_ x.1 x.2 else key
  let a := p.sumAt h
  let b := sumStore max_ xs
  if max_ then (s.nearWrite (frame + a.1) b.1).nearWrite (frame + a.2.1) b.2
  else (s.nearWrite (frame + a.2.2.1) b.1).nearWrite (frame + a.2.2.2) b.2

/-! ## Append (R207) -/

/-- A frame that the entry may write for page `page` of a layer: allocated if the page is not present, copied if its leaf has
COW (R207, R220). `none` when no frame can be had. -/
def State.pageFrame (s : State) (sid : W64) (p : Profile) (layer page : Nat) : Option (Nat × Bool × State) :=
  match s.seq? sid with
  | none => none
  | some q =>
    match q.leaf? layer page with
    | some l =>
      if l.cow || l.shared then
        (s.privateCopy q p l).bind fun s =>
          (s.seq? sid).bind fun q => (q.leaf? layer page).map fun l => (l.frame, l.sv, s)
      else some (l.frame, l.sv, s)
    | none =>
      let l : Leaf := { layer := layer, page := page, frame := 0 }
      match s.growTables q (tablesFor [l]) with
      | none => none
      | some s =>
        match s.seq? sid with
        | none => none
        | some q =>
          (s.takeFrame q p).map fun x => (x.1, false, x.2.putLeaf sid { l with frame := x.1, dirty := true })

/-- Append the key and value of one position in one layer (R172, step 3): `ks` and `vs` per KV head. -/
def State.appendPos (s : State) (sid : W64) (p : Profile) (layer pos : Nat) (ks vs : List (List Fx)) : Option State :=
  (s.pageFrame sid p layer (pos / 16)).map fun x =>
    let frame := x.1
    let sv := x.2.1
    let s := (List.range p.kvheads).foldl (fun s h =>
      let s := s.writeVec p frame h (pos % 16) false (ks.getD h [])
      let s := s.writeVec p frame h (pos % 16) true (vs.getD h [])
      if p.noSummary then s else
        let key := s.readVec p frame h (pos % 16) false
        (s.foldSum p frame h sv true key).foldSum p frame h sv false key) x.2.2
    s.updSeq sid fun q => { q with
      leaves := updAll (fun l => l.layer == layer && l.page == pos / 16)
        (fun l => { l with dirty := true, sv := !p.noSummary }) q.leaves }

/-- Move one position's stored vectors to another in every layer and head (R210); a key that comes to another page widens that page's
summary (R157, R158). -/
def State.movePos (s : State) (sid : W64) (p : Profile) (src dst : Nat) : State :=
  (List.range p.layers).foldl (fun s layer =>
    match s.seq? sid with
    | none => s
    | some q =>
      match q.leaf? layer (src / 16), q.leaf? layer (dst / 16) with
      | some a, some b =>
        let s := (List.range p.kvheads).foldl (fun s h =>
          [false, true].foldl (fun s value =>
            let x := p.vecAt h (src % 16) value
            let y := p.vecAt h (dst % 16) value
            (s.nearWrite (b.frame + y.1) (s.nearRead (a.frame + x.1) p.elemBytes)).nearWrite (b.frame + y.2)
              (s.nearRead (a.frame + x.2) p.scaleBytes)) s) s
        let s := if src / 16 = dst / 16 || !b.sv then s else (List.range p.kvheads).foldl (fun s h =>
          let key := s.readVec p b.frame h (dst % 16) false
          (s.foldSum p b.frame h true true key).foldSum p b.frame h true false key) s
        s.putLeaf sid { b with dirty := true }
      | _, _ => s) s

/-- Compaction (R210): the k-th kept slot moves to N + k. -/
def State.compact (s : State) (sid : W64) (p : Profile) (base : Nat) (kept : List Nat) : State :=
  kept.zipIdx.foldl (fun s x => if x.1 = x.2 then s else s.movePos sid p (base + x.1) (base + x.2)) s

/-! ## Grafts (R180, R183) -/

/-- A row of a Graft matrix of `c` columns and the bytes it takes. -/
def graftRowBytes (elem c : Nat) : Nat :=
  if elem = 1 then 2 * c else (c + 31) / 32 * 32 + (c + 31) / 32

/-- The values of a row at an offset of a Graft's table. -/
def graftRow (t : List Byte) (elem off c : Nat) : List Fx :=
  if elem = 1 then (List.range c).map fun i => f32Val (BitVec.ofNat 32 (bytesAt t (off + 2 * i) 2 * 65536))
  else
    let cp := (c + 31) / 32 * 32
    (sumLoad cp ((t.drop off).take cp) ((t.drop (off + cp)).take (cp / 32))).take c

/-- Input columns and output rows of a target: 0 q, 1 k, 2 v, 3 o (R180). -/
def graftShape (p : Profile) (target : Nat) : Nat × Nat :=
  match target with
  | 0 => (p.hidden, p.qheads * p.headDim)
  | 1 | 2 => (p.hidden, p.kvheads * p.headDim)
  | _ => (p.qheads * p.headDim, p.hidden)

/-- The bytes of one target's matrices, and of one layer. -/
def graftTargetBytes (p : Profile) (elem rank target : Nat) : Nat :=
  rank * graftRowBytes elem (graftShape p target).1 + (graftShape p target).2 * graftRowBytes elem rank
def graftLayerBytes (p : Profile) (elem rank targets : Nat) : Nat :=
  (((List.range 4).filter fun t => bitSet targets t).map fun t => graftTargetBytes p elem rank t).sum

/-- The delta of a target in a layer: SCALE × (B × (A × input)), zero where the target is absent (R183). -/
def graftDelta (p : Profile) (t : List Byte) (layer target : Nat) (input : List Fx) : List W32 :=
  let elem := bytesAt t 5 1
  let rank := bytesAt t 6 1
  let targets := bytesAt t 7 1
  let c := (graftShape p target).1
  let rows := (graftShape p target).2
  if !bitSet targets target then List.replicate rows 0 else
    let before := (((List.range target).filter fun k => bitSet targets k).map fun k => graftTargetBytes p elem rank k).sum
    let off := 64 + layer * graftLayerBytes p elem rank targets + before
    let narrow := fun (xs : List Fx) => if elem = 0 then viaFp8 xs else xs.map viaBf16
    let x := narrow input
    let h := (List.range rank).map fun i => f32Val (fxDot (graftRow t elem (off + i * graftRowBytes elem c) c) x)
    let h := narrow h
    let offB := off + rank * graftRowBytes elem c
    let scale := BitVec.ofNat 32 (bytesAt t 16 4)
    (List.range rows).map fun i => f32Mul scale (fxDot (graftRow t elem (offB + i * graftRowBytes elem rank) rank) h)

/-! ## Rotary encoding (R184) -/

/-- depth(j) over a list of parents. -/
def depthOf (recs : List PosRec) : Nat → Nat → Nat
  | 0, _ => 0
  | n + 1, j =>
    match (recs.getD j { token := 0 }).parent with
    | none => 0
    | some k => depthOf recs n k + 1

/-- The rotary encoding of one head vector at position `pos`. -/
def rotary (p : Profile) (pos : Nat) (xs : List W32) : List W32 :=
  if !p.rotary then xs else
    let r := p.ropeDims
    let half := r / 2
    (List.range xs.length).map fun i =>
      let at_ := fun (k : Nat) => xs.getD k 0
      if i < half then
        let cs := ropeCosSin p.ropeTheta r i pos
        f32Sub (f32Mul (at_ i) cs.1) (f32Mul (at_ (i + half)) cs.2)
      else if i < r then
        let cs := ropeCosSin p.ropeTheta r (i - half) pos
        f32Add (f32Mul (at_ (i - half)) cs.2) (f32Mul (at_ i) cs.1)
      else at_ i

/-- A vector of heads cut into heads. -/
def heads (d : Nat) (xs : List W32) : List (List W32) := chunks d xs.length xs

/-! ## Attention (R150 to R164) -/

/-- One row of a unit: its query as stored, its entry position, and its running state (R151). -/
structure Row where
  q : List Fx
  j : Nat
  m : W32 := 0xFF800000#32
  l : W32 := 0
  a : List W32
  nan : Bool := false
  seen : Bool := false
  deriving DecidableEq, Repr

/-- What attention counts in a region's registers (R167). -/
structure AttCount where
  tested : Nat := 0
  skipped : Nat := 0
  fetched : Nat := 0
  summary : Nat := 0
  poison : Bool := false
  sumPoison : Nat := 0
  deriving DecidableEq, Repr

/-- The entry index i is j or an ancestor of j (R155); `n` bounds the walk. -/
def isAncestor (recs : List PosRec) : Nat → Nat → Nat → Bool
  | 0, i, j => i == j
  | n + 1, i, j =>
    i == j || (match (recs.getD j { token := 0 }).parent with
      | none => false
      | some k => isAncestor recs n i k)

/-- A key at KV position `pos` is visible to a row at entry position `j` of an entry at `base` (R155). -/
def keyVisible (base : Nat) (recs : List PosRec) (pos j : Nat) : Bool :=
  if pos < base then true else isAncestor recs recs.length (pos - base) j

/-- A score (R150). -/
def scoreOf (scale : W32) (q k : List Fx) : W32 := f32Mul scale (fxDot q k)

/-- The score scale of a profile; 0 stands for 1/sqrt(HEAD_DIM) rounded to FP32 (R150, R165). -/
def Profile.scoreScale (p : Profile) : W32 :=
  if p.field 64 4 != 0 then BitVec.ofNat 32 (p.field 64 4)
  else match p.headDim with
    | 64 => 0x3E000000#32
    | 128 => 0x3DB504F3#32
    | _ => 0x3D800000#32

/-- One page for one row (R151): `keys` and `vals` are the visible keys and values of the page. The probabilities narrowed together
are those of the page, at most 16: R148's blocks of 32 consecutive keys end at a page, since p_j is formed page by page (log entry
110). -/
def rowPage (p : Profile) (keys vals : List (List Fx)) (r : Row) : Row :=
  if keys.isEmpty then r else
    let ss := keys.map fun k => scoreOf p.scoreScale r.q k
    let mNew := ss.foldl f32Max2 r.m
    let c := if r.seen then f32Exp (f32Sub r.m mNew) else 0
    let ps := ss.map fun x => f32Exp (f32Sub x mNew)
    let pn := if p.field 72 1 = 1 then ps.map fun x => viaBf16 (f32Val x) else viaFp8 (ps.map f32Val)
    let a := (List.range p.headDim).map fun d =>
      f32Add (f32Mul (r.a.getD d 0) c) (fxDot pn (vals.map fun v => v.getD d .nan))
    { r with m := mNew, l := f32Add (f32Mul r.l c) (f32Sum ps), a := a, seen := true
             nan := r.nan || keys.any (fun k => k.any fxNan) || vals.any (fun v => v.any fxNan) || f32IsNan mNew }

/-- The vectors of a page of head `h` that a row sees. -/
def State.pageVecs (s : State) (p : Profile) (w : Work) (frame page h j : Nat) (value : Bool) : List (List Fx) :=
  let ts := (List.range 16).filter fun t =>
    let pos := 16 * page + t
    decide (pos < w.base + w.toks.length) && keyVisible w.base w.toks pos j
  ts.map fun t =>
    let xs := s.readVec p frame h t value
    if p.field 72 1 = 1 then xs.map viaBf16 else xs

/-- Process a fetched page for every row. -/
def State.fetchPage (s : State) (p : Profile) (w : Work) (q : Seq) (layer h page : Nat) (x : List Row × AttCount) :
    List Row × AttCount :=
  match q.leaf? layer page with
  | none => x
  | some l =>
    (x.1.map fun r => rowPage p (s.pageVecs p w l.frame page h r.j false) (s.pageVecs p w l.frame page h r.j true) r,
     { x.2 with fetched := x.2.fetched + 1
                poison := x.2.poison || s.nearPoison (l.frame + h * 32 * p.vecBytes) (32 * p.vecBytes) ||
                  s.flt.regions.contains (paRegion l.frame) })

/-- ln(n) rounded toward +infinity, for the 1 to 16 positions of a page (R160). -/
def lnUp (n : Nat) : W32 :=
  [0, 0, 0x3F317218#32, 0x3F8C9F54#32, 0x3FB17218#32, 0x3FCE0210#32, 0x3FE55860#32, 0x3FF91396#32, 0x40051592#32,
   0x400C9F54#32, 0x40135D8E#32, 0x4019771E#32, 0x401F08B6#32, 0x40242822#32, 0x4028E651#32, 0x402D50B2#32,
   0x40317218#32].getD n 0x40317218#32

/-- SKIP_MARGIN in FP32 (R165). -/
def Profile.margin (p : Profile) : W32 :=
  let v := if p.field 68 2 = 0 then 0x1000 else p.field 68 2
  f32Round v (-8)

/-- A sum rounded up, or down: the exact sum of products, rounded toward an infinity (R161); what would fall below the smallest normal
on the way out becomes that normal, and on the way in zero (R147). -/
def dirDot (up : Bool) (a b : List Fx) : W32 :=
  let x := (a.zip b).foldl (fun acc p => fxAdd acc (fxMul p.1 p.2)) (.fin 0 0)
  let w := f32OfFx x
  let y := f32Val w
  let least : W32 := if up then 0x00800000#32 else 0x80800000#32
  let away := if up then w.toNat < 2147483648 else 2147483648 ≤ w.toNat
  if !(if up then fxLt y x else fxLt x y) then w
  else if w.toNat % 2147483648 = 0 then least
  else if away then w + 1
  else if (w - 1).toNat % 2147483648 < 8388608 then w &&& 0x80000000#32 else w - 1

/-- The bound U of a row against a page's summary (R161); none when a NaN makes the test fail. -/
def boundOf (p : Profile) (q mx mn : List Fx) : Option W32 :=
  if q.any fxNan || mx.any fxNan || mn.any fxNan then none else
    let pos := q.map fun x => if fxLt (.fin 0 0) x then x else .fin 0 0
    let neg := q.map fun x => if fxLt x (.fin 0 0) then fxNeg x else .fin 0 0
    let a := dirDot true pos mx
    let b := dirDot false neg mn
    let d := fxAdd (f32Val a) (fxNeg (f32Val b))
    some (dirDot true [f32Val p.scoreScale] [d])

/-- The test of R160 for one row, of the exact sum and difference, so that no rounding weakens R162. -/
def skipRow (p : Profile) (mx mn : List Fx) (n : Nat) (r : Row) : Bool :=
  match boundOf p r.q mx mn with
  | none => false
  | some u => !f32IsNan u && !f32IsNan r.m &&
      !fxLt (fxAdd (f32Val r.m) (fxNeg (f32Val p.margin))) (fxAdd (f32Val u) (f32Val (lnUp n)))

/-- Positions of a page that hold meaning. -/
def pageFill (w : Work) (page : Nat) : Nat := min 16 (w.base + w.toks.length - 16 * page)

/-- The bytes of one head's summary (R157). -/
def Profile.sumBytes (p : Profile) : Nat := 2 * (p.headDim + p.headDim / 32)

/-- The unit reads the summary of a page for a head: no other test of R159 keeps the page from being a candidate. -/
def State.readsSum (s : State) (p : Profile) (w : Work) (q : Seq) (layer page : Nat) : Bool :=
  !p.noSummary && s.fget F.RGN_ATT_CTRL_FORCE_DENSE q.region == 0 && decide (p.field 70 1 ≤ page) &&
  decide (page + p.field 71 1 < w.base / 16) && decide (16 * page + 16 ≤ w.base) &&
  (q.leaf? layer page).any fun l => l.sv

/-- The summary of a page for a head carries poison (R164). -/
def State.sumBad (s : State) (p : Profile) (q : Seq) (layer h page : Nat) : Bool :=
  (q.leaf? layer page).any fun l => s.nearPoison (l.frame + (p.sumAt h).1) p.sumBytes

/-- A page is a skip candidate for a head (R159). -/
def State.candidate (s : State) (p : Profile) (w : Work) (q : Seq) (layer h page : Nat) : Bool :=
  s.readsSum p w q layer page && !s.sumBad p q layer h page

/-- One window of candidates, tested with the maxima of the windows before (R160). -/
def State.window (s : State) (p : Profile) (w : Work) (q : Seq) (layer h : Nat) (pages : List Nat)
    (x : List Row × AttCount) : List Row × AttCount :=
  let keep := pages.filter fun g =>
    match q.leaf? layer g with
    | none => false
    | some l =>
      let mx := s.readSum p l.frame h true
      let mn := s.readSum p l.frame h false
      !(x.1.all fun r => skipRow p mx mn (pageFill w g) r)
  let c := { x.2 with tested := x.2.tested + pages.length, skipped := x.2.skipped + (pages.length - keep.length)
                      summary := x.2.summary + pages.length * p.sumBytes }
  keep.foldl (fun x g => s.fetchPage p w q layer h g x) (x.1, c)

/-- One unit's span of pages for its rows (R142, R160). -/
def State.unitSpan (s : State) (p : Profile) (w : Work) (q : Seq) (layer h : Nat) (pages : List Nat)
    (x : List Row × AttCount) : List Row × AttCount :=
  let cand := pages.filter fun g => s.candidate p w q layer h g
  let rest := pages.filter fun g => !s.candidate p w q layer h g
  let bad := (rest.filter fun g => s.readsSum p w q layer g).length
  let x := rest.foldl (fun x g => s.fetchPage p w q layer h g x)
    (x.1, { x.2 with sumPoison := x.2.sumPoison + bad, summary := x.2.summary + bad * p.sumBytes })
  (chunks 32 (cand.length + 1) cand.reverse).foldl (fun x ps => s.window p w q layer h ps x) x

/-- Merge two partial results of a row (R152). -/
def mergeRow (p : Profile) (a b : Row) : Row :=
  if !a.seen then { b with nan := a.nan || b.nan } else if !b.seen then { a with nan := a.nan || b.nan } else
    let m := f32Max2 a.m b.m
    let ca := f32Exp (f32Sub a.m m)
    let cb := f32Exp (f32Sub b.m m)
    { a with m := m, l := f32Add (f32Mul a.l ca) (f32Mul b.l cb), nan := a.nan || b.nan
             a := (List.range p.headDim).map fun d => f32Add (f32Mul (a.a.getD d 0) ca) (f32Mul (b.a.getD d 0) cb) }

/-- Contiguous spans of pages whose lengths differ by at most one, the longer first (R142, log entry 26). -/
def spansOf (n units : Nat) : List (List Nat) :=
  (List.range units).map fun u =>
    let len := n / units + if u < n % units then 1 else 0
    let start := u * (n / units) + min u (n % units)
    (List.range len).map fun i => start + i

/-- A magnitude. -/
def fxAbs : Fx → Fx
  | .fin m e => .fin m.natAbs e
  | .inf _ => .inf false
  | .nan => .nan

/-- A quotient within one unit in the last place (R151): of the two FP32 numbers between which the exact quotient lies, which one is
free; an exact one is taken. -/
def ulpDiv (a b : W32) : W32 :=
  let r := f32Div a b
  if !f32IsFinite r || r.toNat % 2147483648 = 0 || Config.ulp32 a b % 2 = 0 then r else
    let back := fxMul (fxAbs (f32Val r)) (fxAbs (f32Val b))
    if fxLt back (fxAbs (f32Val a)) then (if f32IsFinite (r + 1) then r + 1 else r)
    else if fxLt (fxAbs (f32Val a)) back then (if (r - 1).toNat % 2147483648 < 8388608 then r else r - 1)
    else r

/-- The context of a row (R151, R154): all NaN when a NaN or poison reached it. -/
def rowContext (p : Profile) (bad : Bool) (r : Row) : List W32 :=
  if bad || r.nan then List.replicate p.headDim f32Nan
  else
    let c := r.a.map fun x => ulpDiv x r.l
    if c.any f32IsNan then List.replicate p.headDim f32Nan else c

/-- The stored query of a row: block-scaled FP8, or BF16 (R148, R149). -/
def queryStore (p : Profile) (q : List W32) : List Fx :=
  let xs := q.map f32Val
  if p.field 72 1 = 1 then xs.map viaBf16 else viaFp8 xs

/-- Attention of one KV head for the positions `js` of an entry (one command): a context per query head and position,
indexed by (query head, position), and the counts. -/
def State.headAttention (s : State) (p : Profile) (w : Work) (q : Seq) (layer h : Nat) (qs : List (Nat × List (List W32))) :
    List (Nat × Nat × List W32 × Bool) × AttCount :=
  let g := p.qheads / max 1 p.kvheads
  let rows := List.flatten (qs.map fun x => (List.range g).map fun k =>
    ({ q := queryStore p (x.2.getD (h * g + k) []), j := x.1, a := List.replicate p.headDim 0
       nan := (x.2.getD (h * g + k) []).any f32IsNan } : Row))
  let jmax := (qs.map fun x => x.1).foldl max 0
  let pages := (w.base + jmax) / 16 + 1
  let units := if p.kvheads < 8 then (8 - h + p.kvheads - 1) / p.kvheads else 1
  let parts := (spansOf pages units).map fun sp => s.unitSpan p w q layer h sp (rows, {})
  let merged := match parts with
    | [] => rows
    | x :: r => r.foldl (fun (acc : List Row) (y : List Row × AttCount) =>
        (acc.zip y.1).map fun (z : Row × Row) => mergeRow p z.1 z.2) x.1
  let count := parts.foldl (fun (c : AttCount) x =>
    { tested := c.tested + x.2.tested, skipped := c.skipped + x.2.skipped, fetched := c.fetched + x.2.fetched
      summary := c.summary + x.2.summary, poison := c.poison || x.2.poison, sumPoison := c.sumPoison + x.2.sumPoison }) {}
  let out := merged.zipIdx.map fun (z : Row × Nat) =>
    let ctx := rowContext p count.poison z.1
    (h * g + z.2 % max 1 g, z.1.j, ctx, !count.poison && ctx.any f32IsNan)
  (out, count)

/-- SCH_SLICE as R140 reads it. -/
def State.slice (s : State) (bed : Nat) : Nat := min 256 (max 16 (s.fget F.SCH_SLICE_POSITIONS bed / 16 * 16))

/-- The commands of a part (R136): one for a decode entry, slices for a prefill chunk. -/
def State.commands (s : State) (w : Work) (js : List Nat) : List (List Nat) :=
  if w.kind == .decode then [js] else chunks (s.slice w.bed) (js.length + 1) js

/-- The counts of a command in the region's registers (R154, R167). -/
def State.attCounts (s : State) (region : Nat) (c : AttCount) (rows nan : Nat) : State :=
  let s := s.bump64 .RGN_ATT_TESTED_LO .RGN_ATT_TESTED_HI region c.tested
  let s := s.bump64 .RGN_ATT_SKIPPED_LO .RGN_ATT_SKIPPED_HI region c.skipped
  let s := s.bump64 .RGN_ATT_FETCHED_LO .RGN_ATT_FETCHED_HI region c.fetched
  let s := s.bump64 .RGN_ATT_SUMMARY_BYTES_LO .RGN_ATT_SUMMARY_BYTES_HI region c.summary
  let s := s.bump64 .RGN_ATT_ROWS_LO .RGN_ATT_ROWS_HI region rows
  let s := s.bump .RGN_ATT_NONFINITE_ROWS region nan
  (s.setTimes F.RGN_ATT_STATUS_NONFINITE region nan).setTimes F.RGN_ATT_STATUS_SUMMARY_POISON region c.sumPoison

/-- Attention of the positions of a part in one layer (R172, step 4): the context of each position, head-major, the state
with its counts, and whether a fetched page carried poison. -/
def State.attend (s : State) (p : Profile) (w : Work) (q : Seq) (layer : Nat) (qs : List (Nat × List (List W32))) :
    List (List W32) × State × Bool :=
  let cmds := s.commands w (qs.map fun x => x.1)
  let runs := List.flatten (cmds.map fun js => (List.range p.kvheads).map fun h =>
    s.headAttention p w q layer h (qs.filter fun x => js.contains x.1))
  let all := List.flatten (runs.map fun r => r.1)
  let ctxs := qs.map fun x => List.flatten ((List.range p.qheads).map fun h =>
    match all.find? fun r => r.1 == h && r.2.1 == x.1 with | some r => r.2.2.1 | none => [])
  let s := runs.foldl (fun s r => s.attCounts q.region r.2 r.1.length (r.1.filter fun x => x.2.2.2).length) s
  (ctxs, s, runs.any fun r => r.2.poison)

end Sys2Proof.Machine
end

