-- ==== Sys2Proof/Machine/Tiers.lean ====
section
/-! DEFINITION. The memory tiers: moves (R290 to R293), quotas, hints and queries (R299 to R301), and the copy passes of
R219. -/

namespace Sys2Proof.Machine

/-! ## Pieces (R290 to R292) -/

/-- Image bytes of a block that lie in `[lo, hi)`. -/
def blockPart (lo hi b : Nat) : Nat := min hi ((b + 1) * imgBlock) - max lo (b * imgBlock)

/-- The bytes that image range `[lo, hi)` of a striped set moves on a port, with its side bytes (R285, R286). -/
def portBytes (t : TensorSet) (lo hi port : Nat) : Nat :=
  let ports := t.runs.map fun r => r.1
  ((List.range (ceilDiv hi imgBlock - lo / imgBlock)).map fun i =>
    let b := lo / imgBlock + i
    if ports.getD (b % max 1 ports.length) 4 = port then blockPart lo hi b + blockPart lo hi b / 8 else 0).sum

/-- Count the traffic of a piece on the CXL ports (R303) or in the flash stacks (R330). -/
def State.countPorts (s : State) (t : TensorSet) (lo hi : Nat) (write : Bool) : State :=
  if t.tier = 2 then (if write then s.writeMulch t.mulch t.length hi else s.readMulch t.mulch lo hi)
  else if t.tier != 1 then s else
    (List.range 4).foldl (fun s p =>
      let n := portBytes t lo hi p
      if write then (s.bump64 .CXL_WR_BYTES_LO .CXL_WR_BYTES_HI p n).count (28 + p) 0x35 0 (some t.bed) (n / 64)
      else (s.bump64 .CXL_RD_BYTES_LO .CXL_RD_BYTES_HI p n).count (28 + p) 0x34 0 (some t.bed) (n / 64)) s

/-- The image range of a piece (R289, R290): the first carries the header and the output context too. -/
def pieceRange (p : Profile) (position layer : Nat) : Nat × Nat :=
  let per := capacityOf position * p.pageBytes
  (if layer = 0 then 0 else 20480 + layer * per, 20480 + (layer + 1) * per)

/-- Count the traffic of pages of a session image, and of its header and output context where `head` says so, at their places. -/
def State.countPages (s : State) (p : Profile) (position : Nat) (dst : Nat) (head : Bool)
    (pages : List (Nat × Nat × Bool × List Byte)) : State :=
  match s.setIx? dst with
  | none => s
  | some t =>
    let s := if head then s.countPorts t 0 20480 true else s
    pages.foldl (fun s x => let r := pageSpan p position x.1 x.2.1; s.countPorts t r.1 r.2 true) s

/-- A piece of a downward move of a session (R291, R293). -/
def State.downPiece (s : State) (m : Move) (e : Entry) (p : Profile) (q : Seq) (dst : Nat) : State :=
  let layer := m.doneP
  if s.layerPoison p q layer then (s.failMove m St.poisoned).lostTensors e.sid else
    let pages := s.layerPages p q layer fun l => !m.writeBack || l.dirty
    let bytes := if m.writeBack then (pages.length * p.pageBytes + if layer = 0 then 20480 else 0)
      else (pieceRange p e.position layer).2 - (pieceRange p e.position layer).1
    let ctx := s.ctx? e.sid
    let s := s.updSet dst fun t => { t with
      seq := if layer = 0 then some q else t.seq
      ctx := if layer = 0 then ctx else t.ctx
      position := e.position
      pages := (if m.writeBack then t.pages.filter fun x =>
          !(x.1 == layer && pages.any fun y => y.2.1 == x.2.1) else t.pages) ++ pages }
    let s := if m.writeBack then s.countPages p e.position dst (layer == 0) pages
      else match s.setIx? dst with
        | some t => s.countPorts t (pieceRange p e.position layer).1 (pieceRange p e.position layer).2 true
        | none => s
    let s := (s.cleanLayer e.sid layer).bump64 .TIER_MOVED_LO .TIER_MOVED_HI e.bed bytes
    s.updMove m.ix fun m => { m with doneP := m.doneP + 1, admitted := m.admitted - 1 }

/-- Put one page of an image into near memory. -/
def State.placePage (s : State) (sid : W64) (p : Profile) (dirty : Bool) (x : Nat × Nat × Bool × List Byte) :
    Option State :=
  match s.seq? sid with
  | none => none
  | some q =>
    let l : Leaf := { layer := x.1, page := x.2.1, frame := 0, dirty := dirty, sv := x.2.2.1 }
    match s.growTables q (tablesFor [l]) with
    | none => none
    | some s =>
      match s.seq? sid with
      | none => none
      | some q => (s.takeFrame q p).map fun f =>
          (f.2.nearWrite f.1 x.2.2.2).putLeaf sid { l with frame := f.1 }

/-- Put pages into near memory, all of them or none. -/
def State.placePages (s : State) (sid : W64) (p : Profile) (dirty : Bool) :
    List (Nat × Nat × Bool × List Byte) → Option State
  | [] => some s
  | x :: r =>
    match s.placePage sid p dirty x with
    | some s => s.placePages sid p dirty r
    | none => none

/-- An upward move of a session image keeps the CXL set as backing (R293), unless an orderly release takes it (R296). -/
def State.keepsBacking (s : State) (m : Move) : Bool :=
  m.fromTier == 1 && s.fget F.TIER_CTRL_KEEP_BACKING m.bed == 1 && !(m.src.bind s.setIx?).any fun t => t.drain

/-- A piece of an upward move of a session (R292). -/
def State.upPiece (s : State) (m : Move) (sid : W64) (p : Profile) (t : TensorSet) : State :=
  let pages := t.pages.filter fun x => x.1 == m.doneP
  match s.placePages sid p (!s.keepsBacking m) pages with
  | none => ((s.unmet m.bed m.region).updMove m.ix fun m => { m with waiting := true }).setStatus F.TIER_STATUS_NO_ROOM m.bed
  | some s =>
    let r := pieceRange p t.position m.doneP
    let s := (s.countPorts t r.1 r.2 false).bump64 .TIER_MOVED_LO .TIER_MOVED_HI m.bed (r.2 - r.1)
    s.updMove m.ix fun m => { m with doneP := m.doneP + 1, admitted := m.admitted - 1, waiting := false }

/-- A write of image range `[lo, hi)` of a set waits for a Compost copy (R319). -/
def State.writeWaits (s : State) (t : Option TensorSet) (lo hi : Nat) : Bool :=
  t.any fun t => t.tier == 2 && s.mulchBusy t.mulch lo hi

/-- A piece of a move between the lower tiers, or of a Graft version. -/
def State.plainPiece (s : State) (m : Move) : State :=
  let src := m.src.bind s.setIx?
  let dst := m.dst.bind s.setIx?
  let r := match src.or dst with | some t => pieceSpan t m.pieces m.doneP | none => (0, 0)
  if s.writeWaits dst r.1 r.2 then s else
  let s := s.bump64 .TIER_MOVED_LO .TIER_MOVED_HI m.bed (r.2 - r.1)
  let s := match src with | some t => s.countPorts t r.1 r.2 false | none => s
  let s := match dst with | some t => s.countPorts t r.1 r.2 true | none => s
  s.updMove m.ix fun m => { m with doneP := m.doneP + 1, admitted := m.admitted - 1 }

/-- A piece of a Graft version that is brought back waits for near memory, or is written (R292). -/
def State.graftPiece (s : State) (m : Move) (g : Graft) : State :=
  if m.toTier != 0 then s.plainPiece m else
    match s.graftNear g m.region with
    | (none, s) => s.updMove m.ix fun m => { m with waiting := true }
    | (some l, s) => (s.updGraft g.bed g.id g.version fun g => { g with near := l }).plainPiece m

/-- A layer of a session is still being pulled in (R423). -/
def State.pulling (s : State) (sid : W64) (layer : Nat) : Bool :=
  ((s.seq? sid).bind fun q => q.pull).any fun n => decide (n ≤ layer)

/-- A piece written to the Mulch waits (R315, R319): for a Compost copy, and, as its pages are written once, until the session is
not IN_FLIGHT, so that no later pass finds one DIRTY: DEDUCED (log entry 13). -/
def State.imageWaits (s : State) (m : Move) (e : Entry) (p : Profile) (dst : Nat) : Bool :=
  let r := pieceRange p e.position m.doneP
  m.toTier == 2 && ((s.sch.work.any fun w => w.sid == e.sid) || s.writeWaits (s.setIx? dst) r.1 r.2)

/-- MOVE_PIECE (R290 to R292): an admitted piece completes its copy. A session that a fence or a reset took away, or a
profile that is gone, fails the move. A piece of a handoff is what R379 sends. -/
def State.movePiece (s : State) (ix : Nat) : State :=
  match s.move? ix with
  | none => s
  | some m =>
    if m.admitted = 0 || m.waiting || m.pieces ≤ m.doneP || m.failed then s else
    match m.what with
    | .session sid =>
      match s.owner? sid with
      | none => s.failMove m St.noResource
      | some e =>
        match s.profile? e.bed e.profile with
        | none => s.failMove m St.noResource
        | some p =>
          if m.toTier = 0 then
            match m.src.bind s.setIx? with
            | some t => s.upPiece m sid p t
            | none => s.failMove m St.noResource
          else if m.fromTier = 0 then
            match s.seq? sid, m.dst with
            | some q, some dst =>
              if s.pulling sid m.doneP || s.imageWaits m e p dst then s else s.downPiece m e p q dst
            | _, _ => s.failMove m St.noResource
          else s.plainPiece m
    | .graft bed id v =>
      match s.graftV? bed id v with
      | some g => s.graftPiece m g
      | none => s.failMove m St.notFound
    | .relocate _ => s.plainPiece m
    | .handoff sid _ =>
      if s.pulling sid m.doneP then s
      else s.updMove ix fun m => { m with doneP := m.doneP + 1, admitted := m.admitted - 1 }

/-! ## Copy passes (R219) -/

/-- A later pass of a downward move: every DIRTY page is written, unless one carries poison, which fails the move (R219, R291). -/
def State.passPages (s : State) (m : Move) (e : Entry) (p : Profile) (q : Seq) (dst : Nat) : State :=
  let dirty := q.leaves.filter fun l => l.dirty
  if dirty.any fun l => s.nearPoison l.frame p.pageBytes || s.flt.regions.contains (paRegion l.frame) then
    (s.failMove m St.poisoned).lostTensors e.sid
  else
    let pages := dirty.map fun l => (l.layer, l.page, l.sv, s.nearRead l.frame p.pageBytes)
    let s := s.updSet dst fun t => { t with pages :=
      (t.pages.filter fun x => !pages.any fun y => y.1 == x.1 && y.2.1 == x.2.1) ++ pages }
    let s := (s.countPages p e.position dst false pages).bump64 .TIER_MOVED_LO .TIER_MOVED_HI e.bed (pages.length * p.pageBytes)
    let s := s.updMove m.ix fun m => { m with pass := false }
    s.updSeq e.sid fun q => { q with
      copy := some { passes := (q.copy.getD {}).passes + 1 }
      leaves := q.leaves.map fun l => { l with dirty := false } }

/-- KV_COPY_PASS: a later pass of a downward move, once it is admitted (R291); a pass that finds no DIRTY page while the sequence
is not IN_FLIGHT reports complete (R219). -/
def State.copyPass (s : State) (sid : W64) : State :=
  match s.seq? sid, s.owner? sid, s.moveOf (.session sid) with
  | some q, some e, some m =>
    if (s.sch.work.any fun w => w.sid == sid) || q.copy.isNone || m.doneP < m.pieces then s else
    match s.profile? e.bed e.profile, m.dst with
    | some p, some dst =>
      if (q.leaves.filter fun l => l.dirty).isEmpty then
        s.updSeq sid fun q => { q with copy := some { passes := (q.copy.getD {}).passes + 1, complete := true } }
      else if m.pass then s.passPages m e p q dst
      else s
    | _, _ => s
  | _, _, _ => s

/-! ## Completion of a move (R291, R293) -/

/-- A set took part in an orderly release: count it (R296, R301). -/
def State.countRelocated (s : State) (t : TensorSet) : State :=
  let es := updAll (fun (x : Extent) => x.state == .draining && t.runs.any fun r => runIn x r)
    (fun x => { x with relocated := x.relocated + 1 }) s.tiers.extents
  { s with tiers := { s.tiers with extents := es } }

/-- The source set of a completed move is released; a set that was draining is counted. -/
def State.releaseSource (s : State) (src : Option Nat) : State :=
  match src.bind s.setIx? with
  | some t => (s.countRelocated t).releaseSet t.ix
  | none => s

/-- The image of a completed copy is that of the sequence at the moment of completion (R219, R289): its position, its output
context, and the pages it holds. -/
def State.sealImage (s : State) (e : Entry) (dst : Nat) : State :=
  match s.seq? e.sid with
  | none => s
  | some q =>
    let ctx := s.ctx? e.sid
    s.updSet dst fun t => { t with
      seq := some q, ctx := ctx, position := e.position
      pages := t.pages.filter fun x => (q.leaf? x.1 x.2.1).isSome }

/-- A downward move of a session completes: PARKED in the tier it reached. -/
def State.finishDown (s : State) (m : Move) (e : Entry) (dst : Nat) : State :=
  let s := s.updSet dst fun t => { t with state := .complete }
  let s := if m.fromTier = 0 then s.sealImage e dst else s
  let h := match s.setIx? dst with | some t => setHandle t | none => 0
  let s := if m.fromTier = 0 then (s.freeSeq e.sid).freeCtx e.sid else s.releaseSource m.src
  let s := s.updEntry e.sid fun e => { e with
    state := .parked, tier := tierOf m.toTier, kvHandle := h, pauseReason := 0
    expiry := s.expiryAfter (s.tierTtl e.bed m.toTier) }
  s.complete? m.d St.ok

/-- An upward move of a session completes: its KV is in near memory and it asks for a slot. Without a backing every page is DIRTY
(R292). -/
def State.finishUp (s : State) (m : Move) (e : Entry) : State :=
  let base := match s.seq? e.sid with | some q => rangeBase q.range | none => 0
  let s := match m.src with
    | some x =>
      if s.keepsBacking m then
        s.updSet x fun t => { t with state := .backing, expiry := s.expiryAfter (s.rdN .SES_TTL_CXL m.bed) }
      else
        let soil : Seq → Seq := fun q => { q with leaves := q.leaves.map fun (l : Leaf) => { l with dirty := true } }
        (s.updSeq e.sid soil).releaseSource (some x)
    | none => s
  let s := s.updEntry e.sid fun e => { e with tier := .near, kvHandle := base }
  (s.askLive e.sid).complete? m.d St.ok

/-- MOVE_COMPLETE (R291). A move that is not done changes nothing. -/
def State.moveComplete (s : State) (ix : Nat) : State :=
  match s.move? ix with
  | none => s
  | some m =>
    if m.failed then s.failMove m St.noResource
    else if m.doneP < m.pieces then s
    else match m.what with
      | .session sid =>
        match s.owner? sid with
        | none => s.failMove m St.noResource
        | some e =>
          if m.toTier = 0 then (s.dropMove ix).finishUp m e
          else match m.dst with
            | none => s
            | some dst =>
              if m.fromTier = 0 && !((s.seq? sid).any fun q => q.copy.any fun c => c.complete) then s
              else
                let s := match m.fromTier, m.src.bind s.setIx? with
                  | 0, _ => s
                  | _, some t => s.updSet dst fun x => { x with seq := t.seq, ctx := t.ctx, pages := t.pages }
                  | _, none => s
                (s.dropMove ix).finishDown m e dst
      | .graft bed id v =>
        match s.graftV? bed id v with
        | none => s.failMove m St.noResource
        | some g =>
          let s := s.dropMove ix
          let s := if m.toTier = 0 then
              (s.updGraft bed id v fun g => { g with
                tier := 0, moving := false, set := none, resident := graftLayers g }).releaseSource m.src
            else
              let s := match m.dst with
                | some dst => s.updSet dst fun t => { t with state := .complete, bytes := g.table }
                | none => s
              let s := (s.giveBackAll g.near).releaseSource m.src
              s.updGraft bed id v fun g => { g with
                tier := m.toTier, moving := false, set := m.dst, near := [], resident := 0 }
          s.complete? m.d St.ok
      | .relocate set =>
        match m.dst with
        | none => s
        | some dst =>
          let s := match s.setIx? set with
            | some t => s.updSet dst fun x => { x with
                state := .complete, seq := t.seq, ctx := t.ctx, pages := t.pages, bytes := t.bytes }
            | none => s
          let gs := updAll (fun (g : Graft) => g.set == some set) (fun g => { g with set := some dst, tier := m.toTier })
            s.grafts
          let xs := updAll (fun (x : CkStored) => x.set == some set) (fun x => { x with set := some dst }) s.ck.stored
          let s := { s with grafts := gs, ck := { s.ck with stored := xs } }
          ((s.dropMove ix).releaseSource (some set)).complete? m.d St.ok
      | .handoff _ _ => (s.dropMove ix).complete? m.d St.ok

/-- BACKING_EXPIRY (R293). -/
def State.backingExpiry (s : State) (ix : Nat) : State :=
  match s.setIx? ix with
  | some t =>
    if t.state == .backing && t.expiry != 0 && ftReached s.now (ftExtend40 t.expiry) then s.releaseSet ix else s
  | none => s

/-! ## Commands (R301) -/

/-- The register of a tier quota. -/
def tierQuotaReg (kind : Nat) : RN :=
  match kind with | 0 => .TIER_QUOTA_NEAR | 1 => .TIER_QUOTA_CXL | _ => .TIER_QUOTA_MULCH

/-- TIER_QUOTA (R301, R512). -/
def State.tierQuota (s : State) (d : Desc) : State :=
  let kind := dArg d 48 1
  let bed := dArg d 50 1
  let v := dArg d 52 4
  if !s.bedConfigured bed then s.complete d St.bedAbsent else
    let old := s.rdN (tierQuotaReg kind) bed
    s.submitCmd d [s.jCmd d 0x0003 bed (0x20 + kind) bed (dig32 old) (dig32 v)] [] (.cmd d [] old)

/-- TIER_QUOTA once its entry is durable. -/
def State.tierQuotaDone (s : State) (d : Desc) : State :=
  let r := tierQuotaReg (dArg d 48 1)
  let old := s.rdN r (dArg d 50 1)
  (s.wrN r (dArg d 52 4) (dArg d 50 1)).complete d St.ok old

/-- TIER_HINT (R300, R301): the context holds the hint, in near memory or in the image of a parked session. -/
def State.tierHint (s : State) (d : Desc) : State :=
  match s.targetSid d with
  | none => s.complete d St.notFound
  | some sid =>
    match s.heldEntry d sid with
    | .error st => s.complete d st
    | .ok e =>
      let set := fun (c : OutCtx) => { c with hint := dArg d 48 1, parkOrder := dArg d 49 1 }
      match s.ctx? sid with
      | some c => (s.updCtx sid set).complete d St.ok (c.hint + 256 * c.parkOrder)
      | none =>
        match s.setOf e.kvHandle with
        | some t => match t.ctx with
          | some c => (s.updSet t.ix fun t => { t with ctx := some (set c) }).complete d St.ok (c.hint + 256 * c.parkOrder)
          | none => s.complete d St.notFound
        | none => s.complete d St.notFound

/-- TIER_SET_QUERY (R288, R301). -/
def State.tierSetQuery (s : State) (d : Desc) : State :=
  let h := BitVec.ofNat 64 (dArg d 56 8)
  match (s.setOf h).filter fun t => match dBed d with | some b => t.bed == b | none => true with
  | none => s.complete d St.notFound
  | some t =>
    let bs := setBytes t
    (s.writeAddr d d.addr0 bs).complete d St.ok (bs.getD 0 0).toNat

end Sys2Proof.Machine
end

