-- ==== Sys2Proof/Machine/Flash.lean ====
section
/-! DEFINITION. The flash parking tier (R305 to R330): the block maps and their keep-store records, transcript pages and the
append logs, Compost, the flash Rake, retirement, secure discard, and what the keep store restores. -/

namespace Sys2Proof.Machine

/-! ## Keep-store records of a stack (R324) -/

/-- The pool record of a stack: its spare list, then its retired list, 4 bytes a block (R324; the order is a DESIGN
CHOICE, log entry 13). -/
def State.poolRecord (s : State) (i : Nat) : KeepWrite :=
  let f := s.flashCtl i
  let bs := (List.flatten ((f.spares.map fun x => leBytes 4 (x.1 + x.2 * 2 ^ 24)) ++
    (f.retired.map fun p => leBytes 4 p))).take 4096
  { typ := 0x0005, key := BitVec.ofNat 64 i, payload := bs ++ List.replicate (4096 - bs.length) 0 }

/-- The intent record of a copy (R324). -/
def intentRecord (i : Nat) (c : FlashCopy) (st : Nat) (wseq : W64) : KeepWrite :=
  let op := match c.op with | .merge => 1 | .wear => 2 | .refresh => 3 | .discard => 4
  let opt := fun (x : Option Nat) => leBytes 4 (x.getD 0xFFFFFFFF)
  { typ := 0x0003, key := BitVec.ofNat 64 (i + 256 * (c.lb / 8))
    payload := [BitVec.ofNat 8 op, BitVec.ofNat 8 st, 0, 0] ++ leBytes 4 c.move ++ leBytes 4 c.dest ++ opt c.oldData ++
      opt c.oldLog ++ leBytes 4 c.pages ++ leBytes 8 wseq.toNat }

/-! ## Releases and their erases (R318, R322) -/

/-- A release has a block left, in some stack. -/
def State.releaseOpen (s : State) (ix : Nat) : Bool :=
  s.flash.ctl.any fun f => f.releases.any fun r => r.ix == ix

/-- A zeroisation ends once its releases are erased (R445). -/
def State.endZeroize (s : State) : State :=
  match s.sec.zeroizing with
  | none => s
  | some (d, ixs) =>
    if ixs.any fun ix => s.releaseOpen ix then s else
      let sec := { s.sec with zeroizing := none, trans := none, answer := if d.isNone then [0] else s.sec.answer }
      let s := State.fset { s with sec := sec } F.SEC_STATE_SEQ 4 0
      (s.setStatus F.SEC_STATUS_ZEROIZED 0).complete? d St.ok

/-- The FL_DISCARD_SYNC commands whose releases are all complete end (R322, R329). -/
def State.endSyncs (s : State) : State :=
  let live := fun (y : DiscardSync) => y.waitsFor.any fun x => s.releaseOpen x.2
  let ends := s.flash.syncs.filter fun y => !live y
  let s := { s with flash := { s.flash with syncs := s.flash.syncs.filter live } }
  State.endZeroize (ends.foldl (fun s y => s.complete y.d St.ok (y.erased % 2 ^ 32)) s)

/-- An erased block leaves the releases that wait for it (R322). -/
def State.discardErased (s : State) (i phys : Nat) : State :=
  let hit := (s.flashCtl i).releases.filter fun r => r.left.contains phys
  let ixs := hit.map fun r => r.ix
  let s := s.updFlash i fun f =>
    let rs := updAll (fun (r : Release) => r.left.contains phys)
      (fun r => { r with left := r.left.filter fun p => p != phys, erased := r.erased + 1 }) f.releases
    { f with releases := rs.filter fun r => !r.left.isEmpty }
  let ys := s.flash.syncs.map fun y =>
    { y with erased := y.erased + (ixs.filter fun n => y.waitsFor.any fun x => x.2 == n).length }
  State.endSyncs { s with flash := { s.flash with syncs := ys } }

/-! ## Transcript pages (R315, R316) -/

/-- Token IDs of a transcript page. -/
def pageTokens : Nat := 4080

/-- A transcript page's header and token IDs (R316). -/
def trxPageBytes (sid : W64) (head : Bool) (p : TrxPage) : List Byte :=
  leBytes 4 0x4E535254 ++ [if head then 1 else 0, 0, 0, 0] ++ leBytes 8 sid.toNat ++ leBytes 4 (p.first % 2 ^ 23) ++
  leBytes 4 p.toks.length ++ leBytes 8 p.next.toNat ++ leBytes 8 p.tail.toNat ++ leBytes 8 p.applied.toNat ++
  List.replicate 16 0 ++ List.flatten (p.toks.map fun w => leBytes 4 (w.toNat % 2 ^ 20))

/-- The metadata of page `k` of a run (R314). -/
def pageMeta (r : PageRun) (k : Nat) : List Byte :=
  leBytes 4 (r.lblock % 2 ^ 17) ++ leBytes 2 (r.lpage + k) ++ [BitVec.ofNat 8 r.kind, 0] ++
  leBytes 8 (r.wseq + BitVec.ofNat 64 k).toNat ++ leBytes 4 r.move ++ List.replicate 44 0

/-- FILL as the metadata gives it: the end of the pages programmed in a data block (R315). -/
def Flash.fillOf (f : Flash) (phys : Nat) : Nat :=
  ((f.prog.filter fun r => r.phys == phys).map fun r => r.page + r.count).foldl max 0

/-- The log page map as the metadata gives it: the logical page in each page of a log block (R314). -/
def Flash.logMapOf (f : Flash) (phys : Nat) : List Nat :=
  List.flatten ((sortBy (fun a b => decide (a.page ≤ b.page)) (f.prog.filter fun r => r.phys == phys)).map fun r =>
    (List.range r.count).map fun k => r.lpage + k)

/-- The Mulch address of a page. -/
def pageAddr (p : Nat) : W64 := BitVec.ofNat 64 (p / 1536 * lbBytes + p % 1536 * 16384)

/-- The TRANSCRIPT field of a home record: the address of the head page (R316). -/
def State.headAddr (s : State) (sid : W64) : W64 :=
  match s.ses.transcripts.find? fun t => t.sid == sid with
  | some t => match t.pages with | p :: _ => pageAddr p.place | [] => 0
  | none => 0

/-- Show the head page's address in the home record. -/
def State.showHead (s : State) (sid : W64) : State :=
  let a := s.headAddr sid
  s.updEntry sid fun e => if e.isHome then { e with transcript := a } else e

/-- Change a transcript copy. -/
def State.updTrx (s : State) (sid : W64) (f : Transcript → Transcript) : State :=
  { s with ses := { s.ses with transcripts := updFirst (fun t => t.sid == sid) f s.ses.transcripts } }

/-- The next page of a RECORD block is written for the first time, to its data block (R315). -/
def State.firstWrite (s : State) (b : LBlock) : State :=
  (s.updLb b.lb fun b => { b with fill := b.fill + 1 }).flashProgram (b.lb % 8)
    { phys := b.phys, page := b.fill, lblock := b.lb / 8, lpage := b.fill, kind := 2 } true

/-- Program the next page of a RECORD block of a stack, mapping a new block where none has room: the page (R315). -/
def State.newPage (s : State) (i : Nat) : Option (Nat × State) :=
  let f := s.flashCtl i
  if s.flt.flashOff.contains i then none else
  match f.map.find? fun b => b.kind == BlockKind.record && decide (b.fill < 1536) && f.copy.all fun c => c.lb != b.lb with
  | some b => some (b.lb * 1536 + b.fill, s.firstWrite b)
  | none =>
    if !s.keep.ready || decide (73472 < s.lbMapped i + 1 + f.lostLogical) then none else
      match firstFrom 0 (fun k => s.lbFree (8 * k + i)) 131072 with
      | none => none
      | some k =>
        let s := (s.mapBlock .record (8 * k + i) 0).saveMap (8 * k + i)
        (s.lb? (8 * k + i)).map fun b => (b.lb * 1536, s.firstWrite b)

/-- Free log blocks of a stack (R318, R330). -/
def Flash.logFree (f : Flash) : Nat := (f.freeList 1).length

/-- FL_LOG_WATER.LOW and HIGH as they behave (R330). -/
def State.logLow (s : State) (i : Nat) : Nat := min 2048 (s.fget F.FL_LOG_WATER_LOW i)
def State.logHigh (s : State) (i : Nat) : Nat := max (s.logLow i + 1) (s.fget F.FL_LOG_WATER_HIGH i)

/-- Write a page again: to the log block, taken at its first use (R315). `none` while a copy runs or the log block is full
(R318, R319). -/
def State.logWrite (s : State) (p : Nat) : Option State :=
  let lb := p / 1536
  let f := s.flashCtl (lb % 8)
  match s.lb? lb with
  | none => none
  | some b =>
    if f.copy.any fun c => c.lb == lb then none else
    let write := fun (s : State) (g page : Nat) =>
      (s.updLb lb fun b => { b with logMap := b.logMap ++ [p % 1536], logFt := s.now }).flashProgram (lb % 8)
        { phys := g, page := page, lblock := lb / 8, lpage := p % 1536, kind := 2 } true
    match b.log with
    | some g => if b.logMap.length < 512 then some (write s g b.logMap.length) else none
    | none =>
      if !s.keep.ready then none else
      (f.leastWorn 1).map fun g =>
        let was := f.logFree
        let s := (s.updLb lb fun b => { b with log := some g, logMap := [] }).saveMap lb
        let s := if s.logLow (lb % 8) ≤ was && was - 1 < s.logLow (lb % 8)
          then s.setStatus F.FL_STATUS_LOG_LOW (lb % 8) else s
        write s g 0

/-- Write pages again, all of them. -/
def State.logWrites (s : State) : List Nat → Option State
  | [] => some s
  | p :: r => match s.logWrite p with | some s => s.logWrites r | none => none

/-- Take `n` new pages, from the stack of the head page first. -/
def State.newPages (s : State) (home : Nat) : Nat → Option (List Nat × State)
  | 0 => some ([], s)
  | n + 1 =>
    match (home :: List.range 8).findSome? fun i => s.newPage i with
    | none => none
    | some (p, s) => (s.newPages home n).map fun x => (p :: x.1, x.2)

/-- The logical block of each page, once. -/
def pageBlocks (ps : List Nat) : List Nat := (ps.map fun p => p / 1536).eraseDups

/-- Pages leave their logical blocks (R322): a block that holds no other transcript's page is unmapped and its physical
blocks wait for their erase; another one must first be moved. The release is `ix`. -/
def State.freePages (s : State) (ps : List Nat) (bed : Option Nat) (ix : Nat) : State :=
  (pageBlocks ps).foldl (fun s lb =>
    match s.lb? lb with
    | none => s
    | some b =>
      let phys := b.phys :: b.log.toList
      let r : Release := { bed := bed, left := phys, ix := ix, started := s.now }
      let used := s.ses.transcripts.any fun t => t.pages.any fun p => p.place / 1536 == lb
      let s := s.updFlash (lb % 8) fun f =>
        if used then { f with moveOut := if f.moveOut.contains lb then f.moveOut else f.moveOut ++ [lb]
                              releases := f.releases ++ [r] }
        else { f with map := f.map.filter fun b => b.lb != lb, stale := f.stale ++ phys
                      moveOut := f.moveOut.filter fun x => x != lb, refresh := f.refresh.filter fun x => x != lb
                      releases := f.releases ++ [r] }
      if used then s else s.saveMap lb) s

/-- The next release number. -/
def State.nextRelease (s : State) : Nat × State :=
  (s.flash.nextRelease, { s with flash := { s.flash with nextRelease := s.flash.nextRelease + 1 } })

/-- The stack that holds a transcript's head page. -/
def Transcript.stack (t : Transcript) : Nat := match t.pages with | p :: _ => p.place / 1536 % 8 | [] => 0

/-- WSEQ of the last append record applied to the tail page (R316). -/
def Transcript.applied (t : Transcript) : W64 := match t.pages.getLast? with | some p => p.applied | none => 0

/-- The append records of a transcript that are not applied, in WSEQ order (R317). -/
def State.unapplied (s : State) (t : Transcript) : List AppRec :=
  (s.flashCtl t.stack).appLog.filter fun r => r.msg.sid == t.sid && decide (t.applied.toNat < r.wseq.toNat)

/-- A record changes a page: it has tokens there, or it is one that the tail page must carry (R316). -/
def touches (r : AppRec) (k tail : Nat) : Bool :=
  k == tail || (decide (r.msg.position < pageTokens * (k + 1)) &&
    decide (pageTokens * k < r.msg.position + r.msg.tokens.length))

/-- The pages of a transcript once its records are applied, at the places given (R316). -/
def Transcript.laid (t : Transcript) (rs : List AppRec) (places : List Nat) : List TrxPage :=
  let tail := places.length - 1
  places.mapIdx fun k a =>
    { place := a, first := pageTokens * k, toks := (t.tokens.drop (pageTokens * k)).take pageTokens
      next := match places[k + 1]? with | some b => pageAddr b | none => 0
      tail := if k = 0 then pageAddr (places.getD tail 0) else 0
      applied := match (rs.filter fun r => touches r k tail).getLast?, t.pages[k]? with
        | some r, _ => r.wseq
        | none, some p => p.applied
        | none, none => t.applied }

/-- Apply the append records of a transcript to its pages (R316, R317): changed pages are written again, new ones programmed,
the pages of a truncation released. What cannot be written yet stays due. -/
def State.applyTrx (s : State) (sid : W64) : State :=
  match s.ses.transcripts.find? fun t => t.sid == sid with
  | none => s
  | some t =>
    let need := max 1 (ceilDiv t.tokens.length pageTokens)
    let kept := t.pages.take need
    let done := (s.newPages t.stack (need - kept.length)).bind fun x =>
      let laid := t.laid (s.unapplied t) ((kept.map fun p => p.place) ++ x.1)
      let changed := (kept.zip laid).filter fun y => y.1 != y.2
      (x.2.logWrites (changed.map fun y => y.2.place)).map fun s => (laid, s)
    match done with
    | none => s.updTrx sid fun t => { t with due := true }
    | some (laid, s) =>
      let s := s.updTrx sid fun t => { t with pages := laid, due := false }
      let s := s.showHead sid
      if (t.pages.drop need).isEmpty then s else
        let r := s.nextRelease
        r.2.freePages ((t.pages.drop need).map fun p => p.place) none r.1

/-- Apply what is due and can be written now. -/
def State.applyDue (s : State) (lb : Nat) : State :=
  (s.ses.transcripts.filter fun t => t.due && t.pages.any fun p => p.place / 1536 == lb).foldl (fun s t => s.applyTrx t.sid) s

/-- The records of a transcript are applied: its home record turned CLOSED or DROPPED, or the append log goes on (R317). -/
def State.settleTrx (s : State) (sid : W64) : State :=
  if s.ses.transcripts.any fun t => t.sid == sid && !(s.unapplied t).isEmpty then s.applyTrx sid else s

/-! ## The append log (R317) -/

/-- Bytes of an append record. -/
def appendSize (a : AppendRec) : Nat := 16 + 4 * a.msg.tokens.length

/-- The leading records that fit one page. -/
def appendFit : Nat → List AppendRec → List AppendRec
  | _, [] => []
  | room, a :: r => if appendSize a ≤ room then a :: appendFit (room - appendSize a) r else []

/-- The stack that holds a session's head page. -/
def State.trxStack (s : State) (sid : W64) : Option Nat :=
  match s.ses.transcripts.find? fun t => t.sid == sid with
  | some t => if t.pages.isEmpty then none else some t.stack
  | none => none

/-- A transcript copy with a head page, made at its first record. -/
def State.openTrx (s : State) (sid : W64) : Option (Nat × State) :=
  match s.trxStack sid with
  | some i => some (i, s)
  | none =>
    match (List.range 8).findSome? fun i => s.newPage i with
    | none => none
    | some (p, s) =>
      let s := if s.ses.transcripts.any fun t => t.sid == sid then s
        else { s with ses := { s.ses with transcripts := s.ses.transcripts ++ [{ sid := sid }] } }
      some (p / 1536 % 8, (s.updTrx sid fun t => { t with pages := [{ place := p, tail := pageAddr p }] }).showHead sid)

/-- An accepted TRX_APPEND goes to the append log of the stack that holds the head page (R317); without room for a head page
it is refused with NO_RESOURCE, which the spec does not state: DEDUCED (log entry 13). -/
def State.logAppend (s : State) (m : OwnMsg) : State :=
  match s.openTrx m.sid with
  | some (i, s) => s.updFlash i fun f => { f with append := f.append ++ [{ msg := m, at_ := s.now }] }
  | none => s.replyOwn m .refuse { code := 5 }

/-- The bytes of an append record (R317). -/
def appendBytes (m : OwnMsg) : List Byte :=
  leBytes 8 m.sid.toNat ++ leBytes 4 (m.position % 2 ^ 31 + if m.flagTruncate then 2 ^ 31 else 0) ++
  leBytes 2 m.tokens.length ++ [0, 0] ++ List.flatten (m.tokens.map fun w => leBytes 4 (w.toNat % 2 ^ 20))

/-- What a record makes of a transcript (R109, R317): TRUNCATE gives its new length, other tokens stand from POSITION on. Tokens that
would leave a gap are not taken: DEDUCED (log entry 97). -/
def trxTake (toks : List W32) (m : OwnMsg) : List W32 :=
  if toks.length < m.position then toks
  else if m.flagTruncate then toks.take m.position ++ m.tokens
  else toks.take m.position ++ m.tokens ++ toks.drop (m.position + m.tokens.length)

/-- One record is durable: the transcript takes it, and TRX_ACK answers (R109, R317). Records that fill the tail page are
applied. -/
def State.appendDone (s : State) (a : AppendRec) : State :=
  let sid := a.msg.sid
  let s := s.updTrx sid fun t => { t with tokens := trxTake t.tokens a.msg, lastAck := s.now }
  match s.ses.transcripts.find? fun t => t.sid == sid with
  | none => s
  | some t =>
    let n := t.tokens.length
    let s := s.updEntry sid fun e => if e.isHome && !e.isOwner then { e with confirmed := n } else e
    let s := s.replyOwn a.msg .trxAck { position := n }
    if pageTokens * t.pages.length ≤ n then s.applyTrx sid else s

/-- The physical block of append-log block `k`: the system blocks that are not the keep store's (R308; their place is a
DESIGN CHOICE, log entry 13), or the spare that took its role. -/
def Flash.appendPhys (f : Flash) (k : Nat) : Nat := f.sysPhys (64 * (4 + k / 16) + k % 16)

/-- Program records as the next page of the head block of an append log. -/
def State.appendPut (s : State) (i : Nat) (request : Bool) (rs : List AppendRec) : State :=
  let f := s.flashCtl i
  (s.updFlash i fun f => { f with
    appLog := f.appLog ++ rs.map fun a => { block := f.appHead.1, wseq := f.wseq, msg := a.msg }
    appHead := (f.appHead.1, f.appHead.2 + 1) }).flashProgram i
    { phys := f.appendPhys f.appHead.1, page := f.appHead.2, kind := 4 } request

/-- Records packed into pages (R317). -/
def appendPack : Nat → List AppendRec → List (List AppendRec)
  | 0, _ => []
  | _, [] => []
  | fuel + 1, rs =>
    let n := max 1 (appendFit 16384 rs).length
    rs.take n :: appendPack fuel (rs.drop n)

/-- The live records that must leave append-log block `k` (R317, R322): those not applied, and, so that WSEQ keeps their order, the
later ones of the same sessions in other blocks: DEDUCED (log entry 13). -/
def State.liveAppend (s : State) (i k : Nat) : List AppendRec :=
  let live := List.flatten ((s.ses.transcripts.filter fun t => t.stack == i).map fun t =>
    let rs := s.unapplied t
    if rs.any fun r => r.block == k then rs else [])
  (sortBy (fun a b => decide (a.wseq.toNat ≤ b.wseq.toNat)) live).map fun r => { msg := r.msg, at_ := s.now }

/-- An append-log block is erased, if it was programmed; the records it held are gone. -/
def State.appendErase (s : State) (i k : Nat) : State :=
  let phys := (s.flashCtl i).appendPhys k
  let s := s.updFlash i fun f => { f with appLog := f.appLog.filter fun r => r.block != k }
  if (s.flashCtl i).prog.any fun r => r.phys == phys then (s.eraseBlock i phys).discardErased i phys else s

/-- The append log goes on to its next block (R317): the records in it are applied first; one that cannot be applied yet moves to the
new head. -/
def State.appendNext (s : State) (i : Nat) : State :=
  let k := ((s.flashCtl i).appHead.1 + 1) % 64
  let sids := (((s.flashCtl i).appLog.filter fun r => r.block == k).map fun r => r.msg.sid).eraseDups
  let s := sids.foldl (fun s sid => s.settleTrx sid) s
  let live := s.liveAppend i k
  let s := (s.appendErase i k).updFlash i fun f => { f with appHead := (k, 0) }
  (appendPack live.length live).foldl (fun s rs => s.appendPut i false rs) s

/-- Program one page of an append log. -/
def State.appendPage (s : State) (i : Nat) (request : Bool) (rs : List AppendRec) : State :=
  (if 512 ≤ (s.flashCtl i).appHead.2 then s.appendNext i else s).appendPut i request rs

/-- APPEND_LOG_PROGRAM (R317): the page is full, or 1 ft has passed since its first record. -/
def State.appendLogProgram (s : State) (i : Nat) : State :=
  let rs := (s.flashCtl i).append
  let fit := appendFit 16384 rs
  match rs with
  | [] => s
  | a :: _ =>
    if fit.length < rs.length || 16384 ≤ (fit.map appendSize).sum || ftReached s.now (ftAdd a.at_ 1) then
      let s := s.updFlash i fun f => { f with append := f.append.drop fit.length }
      let s := s.appendPage i true fit
      fit.foldl (fun s a => s.appendDone a) s
    else s

/-- A transcript is discarded (R312, R322): its pages, and its append records, with those not yet programmed. -/
def State.discardTranscript (s : State) (sid : W64) : State :=
  match s.ses.transcripts.find? fun t => t.sid == sid with
  | none => s
  | some t =>
    let s := { s with ses := { s.ses with transcripts := s.ses.transcripts.filter fun t => t.sid != sid } }
    let bed := (s.owner? sid).map fun e => e.bed
    let r := s.nextRelease
    let s := r.2.freePages (t.pages.map fun p => p.place) bed r.1
    (List.range 8).foldl (fun s i =>
      let f := s.flashCtl i
      let ks := ((f.appLog.filter fun x => x.msg.sid == sid).map fun x => f.appendPhys x.block).eraseDups
      s.updFlash i fun f =>
        let rel : Release := { bed := bed, left := ks, ix := r.1, started := s.now }
        { f with append := f.append.filter fun a => a.msg.sid != sid
                 stale := f.stale ++ ks.filter fun p => !f.stale.contains p
                 releases := if ks.isEmpty then f.releases else f.releases ++ [rel] }) s

/-- A home record whose transcript is lost becomes CLOSED, with what the session holds where this node is its owner too (R97), and a
revival that needs the transcript completes with POISONED (R321). -/
def State.transcriptLost (s : State) (sid : W64) : State :=
  let ex := ftSample (ftAdd s.now (match s.ses.map with | some m => m.tombstone | none => 0))
  let s := match s.owner? sid with
    | some e => if e.isHome && e.state != SesState.closed then s.closeSession sid else s
    | none => s
  let s := s.updEntry sid fun e => if e.isHome then { e with state := .closed, expiry := ex } else e
  let s := if s.ses.waits.any fun w => w.sid == sid && w.why == SesWhy.revive then
      (s.finishWaits sid (fun w => w == SesWhy.revive || w == SesWhy.resume) St.poisoned).endInput sid St.poisoned else s
  s.discardTranscript sid

/-- A fenced stack takes the transcripts with pages in it (R461). -/
def State.transcriptsLost (s : State) (i : Nat) : State :=
  (s.ses.transcripts.filter fun t => t.pages.any fun p => p.place / 1536 % 8 == i).foldl (fun s t => s.transcriptLost t.sid) s

/-! ## Compost (R318 to R321) -/

/-- The logical pages of a block that hold current data, ascending. -/
def State.current (s : State) (b : LBlock) : List Nat :=
  match b.kind with
  | .record => sortBy (fun a b => decide (a ≤ b)) (List.flatten (s.ses.transcripts.map fun t =>
      (t.pages.filter fun p => p.place / 1536 == b.lb).map fun p => p.place % 1536))
  | _ => List.range b.fill

/-- How many those are (R318 V). -/
def State.curPages (s : State) (b : LBlock) : Nat := (s.current b).length

/-- The mean erase count of the data pool (R318 MEAN). -/
def Flash.meanErases (f : Flash) : Nat :=
  ((f.erases.filter fun x => poolOf x.1 == 0).map fun x => x.2).sum / 73728

/-- The score of a victim (R318). -/
def State.score (s : State) (i : Nat) (b : LBlock) : Nat :=
  let a := (ftSample s.now + 2 ^ 40 - ftSample b.logFt) % 2 ^ 40 / 48000
  let f := s.flashCtl i
  (1536 - s.curPages b) * (64 + min a 4095) / 64 +
    s.fget F.FL_CTRL_WEAR_WEIGHT i * (f.meanErases - f.erasesOf b.phys)

/-- The victim with the highest score; the lower logical block on a tie (R318). -/
def State.victim (s : State) (i : Nat) : Option LBlock :=
  ((s.flashCtl i).map.filter fun b => b.log.isSome).foldl (fun best b =>
    match best with
    | none => some b
    | some o =>
      if s.score i o < s.score i b || (s.score i b = s.score i o && b.lb < o.lb) then some b else some o) none

/-- Erase counts of mapped data blocks, least and largest (R320, R330). -/
def Flash.eraseMin (f : Flash) : Nat := (minNat? (f.map.map fun b => f.erasesOf b.phys)).getD 0
def Flash.eraseMax (f : Flash) : Nat := (f.map.map fun b => f.erasesOf b.phys).foldl max 0

/-- FL_READ_LIMIT as it behaves (R330). -/
def State.readLimit (s : State) (i : Nat) : Nat := max 1 (s.rdN .FL_READ_LIMIT i)

/-- The free data block with the largest erase count (R320). -/
def Flash.mostWorn (f : Flash) : Option Nat :=
  (f.freeList 0).foldl (fun best p =>
    match best with
    | none => some p
    | some b => if f.erasesOf b < f.erasesOf p then some p else some b) none

/-- The copy that the controller starts next (R318 to R322): a forced merge, then, unless the stack has too few free data
blocks, what must move, merges for free log blocks, and a wear move. No merge runs before released blocks are erased. -/
def State.nextCopy (s : State) (i : Nat) : Option (LBlock × CopyOp) :=
  let f := s.flashCtl i
  let forced := f.map.find? fun b => b.log.isSome && decide (512 ≤ b.logMap.length)
  let refresh := f.map.find? fun b => f.refresh.contains b.lb || decide (s.readLimit i ≤ f.readsOf b.phys) ||
    b.log.any fun g => decide (s.readLimit i ≤ f.readsOf g)
  let moveOut := f.map.find? fun b => f.moveOut.contains b.lb
  let merge := if f.merging && f.stale.isEmpty then s.victim i else none
  let wear := if s.fget F.FL_CTRL_WEAR_ENABLE i = 1 && s.fget F.FL_CTRL_WEAR_GAP i < f.eraseMax - f.eraseMin
    then f.map.find? fun b => f.erasesOf b.phys == f.eraseMin else none
  match forced with
  | some b => if f.stale.isEmpty then some (b, .merge) else none
  | none =>
    if f.tight then none else
    match refresh, moveOut, merge, wear with
    | some b, _, _, _ => some (b, .refresh)
    | none, some b, _, _ => some (b, .discard)
    | none, none, some b, _ => some (b, .merge)
    | none, none, none, some b => some (b, .wear)
    | none, none, none, none => none

/-- The two thresholds of R318 with their hysteresis. -/
def State.compostMode (s : State) (i : Nat) : State :=
  s.updFlash i fun f =>
    let log := f.logFree
    let data := (f.freeList 0).length
    { f with merging := if log < s.logLow i then true else if s.logHigh i ≤ log then false else f.merging
             tight := if data < 64 then true else if 256 ≤ data then false else f.tight }

/-- The copy of a block to D. A wear move and a refresh have no G (R319): a block with a log block is merged instead, DEDUCED (log
entry 13). -/
def State.copyOf (s : State) (i : Nat) (b : LBlock) (op : CopyOp) (d : Nat) : FlashCopy :=
  { lb := b.lb, op := if b.log.isSome && (op == .wear || op == .refresh) then .merge else op
    move := (s.flashCtl i).nextMove, dest := d, oldData := some b.phys, oldLog := b.log, pages := s.curPages b }

/-- COMPOST_COPY (R318, R319 step 1). One copy runs at a time in a stack. -/
def State.compostCopy (s : State) (i : Nat) : State :=
  let s := s.compostMode i
  let f := s.flashCtl i
  if f.copy.isSome || s.flt.flashOff.contains i then s else
  match s.nextCopy i with
  | none => s
  | some (b, op) =>
    match (if op = .wear then f.mostWorn else f.leastWorn 0) with
    | none => s
    | some d =>
      let c := s.copyOf i b op d
      s.updFlash i fun f => { f with copy := some c, nextMove := (f.nextMove + 1) % 2 ^ 32 }

/-- The map after a copy: D, without a log block (R319 step 5). -/
def State.mapMoved (s : State) (c : FlashCopy) : State :=
  let fill := (s.flashCtl (c.lb % 8)).fillOf c.dest
  let s := s.updLb c.lb fun b => { b with phys := c.dest, log := none, logMap := [], fill := fill }
  s.updFlash (c.lb % 8) fun f => { f with
    refresh := f.refresh.filter fun x => x != c.lb, moveOut := f.moveOut.filter fun x => x != c.lb }

/-- The old blocks of a copy are erased (R319 step 4). -/
def State.eraseOld (s : State) (c : FlashCopy) : State :=
  (c.oldData.toList ++ c.oldLog.toList).foldl (fun s p => (s.eraseBlock (c.lb % 8) p).discardErased (c.lb % 8) p) s

/-- Ascending numbers as runs: first and length. -/
def runsOf (ps : List Nat) : List (Nat × Nat) :=
  (ps.foldl (fun acc p =>
    match acc with
    | (a, n) :: r => if a + n = p then (a, n + 1) :: r else (p, 1) :: (a, n) :: r
    | [] => [(p, 1)]) []).reverse

/-- Every current page is copied to D in logical page order (R319 step 2): each stands in D at its own page, a DESIGN CHOICE (log entry
13). The pages in the log block are read there, the others in the data block. -/
def State.copyPages (s : State) (i : Nat) (c : FlashCopy) : State :=
  match s.lb? c.lb with
  | none => s
  | some b =>
    let ps := s.current b
    let inLog := (ps.filter fun p => b.logMap.contains p).length
    let s := s.flashRead i b.phys (ps.length - inLog)
    let s := match b.log with | some g => s.flashRead i g inLog | none => s
    (runsOf ps).foldl (fun s r => s.flashProgram i { phys := c.dest, page := r.1, count := r.2, lblock := c.lb / 8
                                                     lpage := r.1, kind := blockCode b.kind, move := c.move } false) s

/-- A copy runs to its end (R319 steps 2 to 6). -/
def State.finishCopy (s : State) (i : Nat) (c : FlashCopy) : State :=
  let s := s.copyPages i c
  let w : W64 := (s.flashCtl i).wseq - 1
  let s := s.keepSave (intentRecord i c 1 w)
  let s := (s.mapMoved c).eraseOld c
  let s := (s.keepSave (s.mapSegment i (c.lb / 8 / 1024))).keepSave (intentRecord i c 2 w)
  if c.op = .merge then s.bump .FL_MERGES i else s.bump .FL_MOVES i

/-- COMPOST_COPY_COMPLETE (R319): then what waited for the block is written. -/
def State.compostComplete (s : State) (i : Nat) : State :=
  match (s.flashCtl i).copy with
  | none => s
  | some c =>
    if s.flt.flashOff.contains i then s else
      let s := (s.updFlash i fun f => { f with copy := none }).finishCopy i c
      s.applyDue c.lb

/-! ## Commands (R322, R329) -/

/-- FL_DISCARD_SYNC. -/
def State.flDiscardSync (s : State) (d : Desc) : State :=
  let mine := fun (r : Release) => match dBed d with | some b => r.bed == some b | none => true
  let rs := List.flatten ((List.range 8).map fun i => ((s.flashCtl i).releases.filter mine).map fun r => (i, r.ix, r.erased))
  if rs.isEmpty then s.complete d St.ok 0 else
    let y : DiscardSync := { d := d, waitsFor := rs.map fun x => (x.1, x.2.1), erased := (rs.map fun x => x.2.2).sum }
    { s with flash := { s.flash with syncs := s.flash.syncs ++ [y] } }

/-- FL_KEEP_READ: the current record, header included; not those of the security types. -/
def State.flKeepRead (s : State) (d : Desc) : State :=
  let typ := dArg d 48 2
  if 0x0010 ≤ typ && typ ≤ 0x001F then s.complete d St.notFound else
    match s.keepCur typ (BitVec.ofNat 64 (dArg d 56 8)) with
    | none => s.complete d St.notFound
    | some r =>
      (s.writeAddr d d.addr0 (keepImage r)).complete d St.ok (r.payload.length % 2 ^ 16 + r.seq.toNat % 2 ^ 48 * 2 ^ 16)

/-! ## What a reset leaves (R312, R326 to R328) -/

/-- One COPIED intent is resolved (R327): the map is set to D, S and G are erased, DONE is written. -/
def State.resolveIntent (s : State) (r : KeepRec) : State :=
  let i := r.key.toNat % 256
  let opt := fun (n : Nat) => if n = 0xFFFFFFFF then none else some n
  let c : FlashCopy :=
    { lb := 8 * (r.key.toNat / 256) + i, move := bytesAt r.payload 4 4, dest := bytesAt r.payload 8 4
      op := match bytesAt r.payload 0 1 with | 1 => .merge | 2 => .wear | 3 => .refresh | _ => .discard
      oldData := opt (bytesAt r.payload 12 4), oldLog := opt (bytesAt r.payload 16 4), pages := bytesAt r.payload 20 4 }
  let s := (s.mapMoved c).eraseOld c
  let s := s.keepPuts [s.mapSegment i (c.lb / 8 / 1024),
    intentRecord i c 2 (BitVec.ofNat 64 (bytesAt r.payload 24 8))]
  s.setStatus F.FL_STATUS_RECOVERED i

/-- The erase counts that the wear segments of a stack hold (R320). -/
def State.loadWear (s : State) (i : Nat) : State :=
  let xs := List.flatten (((s.keepAll 0x0004).filter fun r => r.key.toNat % 256 == i).map fun r =>
    ((List.range 1024).map fun k => (1024 * (r.key.toNat / 256) + k, bytesAt r.payload (4 * k) 3)).filter fun x => x.2 != 0)
  s.updFlash i fun f => { f with erases := xs }

/-- A block map entry read back (R313). -/
def lbParse (lb e : Nat) : Option LBlock :=
  let g := if e / 2 ^ 31 % 2 = 1 then some (e / 2 ^ 32 % 2 ^ 17) else none
  let b := fun (k : BlockKind) => { lb := lb, kind := k, fill := e / 2 ^ 20 % 2 ^ 11, phys := e % 2 ^ 17, log := g : LBlock }
  match e / 2 ^ 17 % 8 with
  | 1 => some (b .image)
  | 2 => some (b .record)
  | 3 => some (b .kept)
  | _ => none

/-- The block map that the map segments of a stack hold (R315, R326). -/
def State.loadMap (s : State) (i : Nat) : State :=
  let bs := List.flatten (((s.keepAll 0x0002).filter fun r => r.key.toNat % 256 == i).map fun r =>
    (List.range 1024).filterMap fun k =>
      lbParse (8 * (1024 * (r.key.toNat / 256) + k) + i) (bytesAt r.payload (8 * k) 8))
  s.updFlash i fun f => { f with map := bs }

/-- FILL and the log page maps are rebuilt from the page metadata (R314, R315). -/
def State.loadPages (s : State) (i : Nat) : State :=
  s.updFlash i fun f => { f with map := f.map.map fun b => { b with
    fill := f.fillOf b.phys, logMap := match b.log with | some g => f.logMapOf g | none => [] } }

/-- What was in the SRAM of a controller starts anew (R312, R326): IMAGE blocks are released, then every programmed data or log block
that no map names, and every block that waited for an erase, is erased. -/
def State.loadStack (s : State) (i : Nat) : State :=
  let gone := ((s.flashCtl i).map.filter fun b => b.kind == BlockKind.image).map fun b => b.lb
  let s := s.updFlash i fun f => { f with
    map := f.map.filter fun b => b.kind != BlockKind.image, append := [], releases := [], copy := none
    reads := [], unc := [], merging := false, tight := false, refresh := [], moveOut := [], rake := 0 }
  let f := s.flashCtl i
  let named := fun (p : Nat) => f.map.any fun b => b.phys == p || b.log == some p
  let loose := (f.prog.map fun r => r.phys).filter fun p => f.roleOf p ≤ 1 && !named p && !f.retired.contains p
  (f.stale ++ loose).eraseDups.foldl (fun s p => s.eraseBlock i p) ((s.loadPages i).saveMaps gone)

/-- The tokens of a transcript as the flash holds them: those of its pages, and the append records whose WSEQ exceeds the tail page's
APPLIED, in WSEQ order (R317). -/
def State.trxBack (s : State) (t : Transcript) : List W32 :=
  (s.unapplied t).foldl (fun toks r => trxTake toks r.msg) (List.flatten (t.pages.map fun p => p.toks))

/-- What a reset leaves of a transcript copy: what the flash holds. -/
def Transcript.kept (t : Transcript) : Transcript := { t with tokens := [], due := false }

/-- The flash part of KEEP_STORE_LOAD (R326): maps and wear segments with the intents resolved in them, then the erases, then the append
logs. The counts are loaded first, so that the erases of an intent are added to them. -/
def State.loadFlash (s : State) : State :=
  let s := { s with flash := { s.flash with syncs := [] } }
  let s := (List.range 8).foldl (fun s i => (s.loadWear i).loadMap i) s
  let xs := (s.keepAll 0x0003).filter fun r => bytesAt r.payload 1 1 == 1
  let s := xs.foldl (fun s r => s.resolveIntent r) s
  let s := (List.range 8).foldl (fun s i => s.loadStack i) s
  let ts := s.ses.transcripts.map fun (t : Transcript) => { t with tokens := s.trxBack t }
  let s : State := { s with ses := { s.ses with transcripts := ts } }
  s.ses.transcripts.foldl (fun s t => s.settleTrx t.sid) s

end Sys2Proof.Machine
end

