-- ==== Sys2Proof/Machine/PlwOps.lean ====
section
/-! DEFINITION. Messages and ports of Plowald Link, as far as several families use them (R356 to R371, R378, R383). -/

namespace Sys2Proof.Machine

/-! ## Messages (R357, R358) -/

/-- The TYPE of an ownership message (R102). -/
def ownCode : OwnType → Nat
  | .offer => 0x10 | .claim => 0x11 | .confirm => 0x12 | .refuse => 0x13 | .query => 0x14 | .answer => 0x15
  | .renew => 0x16 | .renewAck => 0x17 | .trxAppend => 0x18 | .trxAck => 0x19 | .dropNote => 0x1A | .closeNote => 0x1B
  | .homeXfer => 0x1C | .homeXferEnd => 0x1D | .trxFetch => 0x1E | .trxData => 0x1F

/-- The TYPE of a memory message (R387). -/
def mrCode : MrType → Nat
  | .read => 0x50 | .write => 0x51 | .acquire => 0x52 | .writeback => 0x53 | .op => 0x54 | .publish => 0x55
  | .pubRead => 0x56 | .recall => 0x57 | .resp => 0x60 | .recallData => 0x61

/-- The TYPE of a checkpoint message (R407). -/
def ckCode : CkType → Nat
  | .notice => 0x70 | .prepare => 0x71 | .ready => 0x72 | .abort => 0x73 | .done => 0x74 | .commit => 0x75
  | .fetch => 0x76 | .data => 0x78 | .dataAck => 0x79 | .dataEnd => 0x7A

/-- TYPE of a message. -/
def msgType : Msg → Nat
  | .time t _ => t
  | .own t _ => ownCode t
  | .lxStep .. => 0x30
  | .lxLayer .. => 0x31
  | .lxReturn .. => 0x32
  | .lxLogits .. => 0x33
  | .lxTokens .. => 0x34
  | .lxReject .. => 0x35
  | .imgData _ => 0x20
  | .imgAck _ => 0x21
  | .vsReq _ => 0x40
  | .vsResp _ => 0x41
  | .mr t _ => mrCode t
  | .ck t _ => ckCode t

/-- Bytes of a message with its header (R46, R102, R169, R379). -/
def msgBytes : Msg → Nat
  | .time _ _ => 32
  | .own _ m => 48 + 4 * m.tokens.length + (if m.entry.isSome then 64 else 0)
  | .lxStep h _ _ _ _ => 32 + h.length
  | .lxLayer h _ => 32 + h.length
  | .lxReturn h _ _ _ => 32 + h.length
  | .lxLogits h _ => 32 + h.length
  | .lxTokens h _ => 32 + h.length
  | .lxReject _ => 32
  | .imgData m => 32 + m.len
  | .imgAck _ => 32
  | .vsReq m => 16 + m.payload.length
  | .vsResp m => 16 + m.payload.length
  | .mr _ m => 48 + m.data.length
  | .ck _ m => 48 + m.payload.length
  --MSGBYTES

/-- The SID that a message names (R359); none where it names no session. -/
def msgSid : Msg → Option W64
  | .time _ _ => none
  | .own t m => match t with | .renew | .renewAck | .homeXferEnd => none | _ => some m.sid
  | .lxStep h _ _ _ _ => some h.sid
  | .lxLayer h _ => some h.sid
  | .lxReturn h _ _ _ => some h.sid
  | .lxLogits h _ => some h.sid
  | .lxTokens h _ => some h.sid
  | .lxReject h => some h.sid
  | .imgData m => some m.sid
  | .imgAck m => some m.sid
  | .vsReq _ => none
  | .vsResp _ => none
  | .mr _ _ => none
  | .ck _ _ => none
  --MSGSID

/-- The virtual channel of a TYPE; none for one that is unassigned (R357). -/
def vcOf (typ : Nat) : Option Nat :=
  if 0x01 ≤ typ && typ ≤ 0x03 then some 0
  else if 0x10 ≤ typ && typ ≤ 0x1F then some 1
  else if typ = 0x20 || typ = 0x21 then some 6
  else if typ = 0x30 || typ = 0x34 || typ = 0x35 then some 1
  else if 0x31 ≤ typ && typ ≤ 0x33 then some 2
  else if typ = 0x40 || typ = 0x41 then some 3
  else if 0x50 ≤ typ && typ ≤ 0x5F then some 4
  else if 0x60 ≤ typ && typ ≤ 0x6F then some 5
  else if 0x70 ≤ typ && typ ≤ 0x77 then some 1
  else if 0x78 ≤ typ && typ ≤ 0x7F then some 6
  else none

/-- Messages of a TYPE belong to a Bed; the others to the device (R357). -/
def bedOwned (typ : Nat) : Bool :=
  typ = 0x20 || typ = 0x21 || (0x30 ≤ typ && typ ≤ 0x35) || typ = 0x40 || typ = 0x41 || (0x50 ≤ typ && typ ≤ 0x6F) ||
  (0x78 ≤ typ && typ ≤ 0x7F)

/-! ## Ports -/

/-! The states of a port (R381). -/
namespace Pst
def disabled : Nat := 0
def optical : Nat := 1
def negotiate : Nat := 2
def active : Nat := 3
def retrain : Nat := 4
def down : Nat := 5
end Pst

/-- A port. -/
def State.port (s : State) (p : Nat) : Port := s.plw.ports.getD p {}

/-- Change a port. -/
def State.updPort (s : State) (p : Nat) (f : Port → Port) : State :=
  { s with plw := { s.plw with ports := s.plw.ports.modify p f } }

/-- STATE of a port. -/
def State.portState (s : State) (p : Nat) : Nat := s.fget F.PLW_STATE_STATE p

/-- The major version of a port's link. -/
def State.portMajor (s : State) (p : Nat) : Nat := s.fget F.PLW_STATE_VERSION p / 16

/-- A frame or message is discarded (R378). -/
def State.plwDrop (s : State) (p reason : Nat) : State := (s.bump .PLW_DROP p 1 reason).setStatus F.PLW_STATUS_DROP p

/-! The reasons of R378. -/
namespace Dr
def misdirected : Nat := 0
def badType : Nat := 1
def noContext : Nat := 2
def segment : Nat := 3
def unknownKey : Nat := 4
def authFail : Nat := 5
def replay : Nat := 6
def clearRefused : Nat := 7
def policed : Nat := 8
def creditOverrun : Nat := 9
def noRoute : Nat := 10
def linkLost : Nat := 11
def keyExhausted : Nat := 12
end Dr

/-- Every message with a frame in the replay buffer or the egress queues of a port, once each: a MSG_ID names it only under
its key (R371). -/
def portMsgs (q : Port) : List (Option W32 × W32) :=
  ((q.replay.map fun f => (f.key, f.msgId)) ++ (q.queues.flatten.map fun m => (m.key, m.msgId))).eraseDups

/-- The frames of a port that leaves service are dropped with LINK_LOST (R367). One drop is counted for each message: DEDUCED
(log entry 35). A message being received keeps its context: it times out under R358. -/
def State.linkLost (s : State) (p : Nat) : State :=
  let n := (portMsgs (s.port p)).length
  let s := (List.range n).foldl (fun s _ => s.plwDrop p Dr.linkLost) s
  s.updPort p fun q => { q with
    queues := List.replicate 8 [], replay := [], replayAt := none, replays := 0, nakDue := false, ctlDue := false }

/-- A port enters a state. -/
def State.portGo (s : State) (p st : Nat) : State :=
  (s.fset F.PLW_STATE_STATE st p).updPort p fun q => { q with since := s.now }

/-- A port goes DOWN (R360, R367). -/
def State.portDown (s : State) (p : Nat) : State :=
  let s := (s.linkLost p).portGo p Pst.down
  (s.fset F.PLW_STATE_WIDTH 0 p).setStatus F.PLW_STATUS_LINK_DOWN p

/-- A port goes to DISABLED: its lasers are off (R360, R367). -/
def State.plwOff (s : State) (p : Nat) : State :=
  if s.portState p = Pst.disabled then s
  else ((s.linkLost p).portGo p Pst.disabled).fset F.PLW_STATE_WIDTH 0 p

/-- A fenced port goes to DISABLED (R461). -/
def State.plwFence (s : State) (p : Nat) : State := s.plwOff p

/-! ## Key slots (R370, R383) -/

/-- The slot that holds a KEY_ID. -/
def State.keySlot? (s : State) (k : W32) : Option KeySlot := s.plw.slots.find? fun x => x.keyId == k

/-- Change a key slot. -/
def State.updKey (s : State) (k : W32) (f : KeySlot → KeySlot) : State :=
  { s with plw := { s.plw with slots := updFirst (fun x => x.keyId == k) f s.plw.slots } }

/-- Show the slots in use (R382). -/
def State.showKeys (s : State) : State := s.fset F.PLW_KEYS_USED s.plw.slots.length 0

/-- Erase the slots of an owner, as a partition reset does: messages bound to them and not yet sent whole are dropped
with KEY_EXHAUSTED (R383). -/
def State.dropKeys (s : State) (owner : Option Nat) : State :=
  let ks := (s.plw.slots.filter fun x => x.owner == owner).map fun x => x.keyId
  let hit := fun (m : EgMsg) => m.key.any fun k => ks.contains k
  let s := (List.range 8).foldl (fun s p =>
    let n := ((s.port p).queues.flatten.filter hit).length
    let s := (List.range n).foldl (fun s _ => s.plwDrop p Dr.keyExhausted) s
    s.updPort p fun q => { q with queues := q.queues.map fun l => l.filter fun m => !hit m }) s
  State.showKeys { s with plw := { s.plw with slots := s.plw.slots.filter fun x => x.owner != owner } }

end Sys2Proof.Machine
end

