-- ==== Sys2Proof/Machine/Search.lean ====
section
/-! DEFINITION. Agent memory search (R331 to R350): snapshots, deletions, the greedy walk, and shards on other nodes. -/

namespace Sys2Proof.Machine

/-- The command status of R348. -/
def dimMismatch : Nat := 0x80

/-! ## The snapshot table (R333 to R335, R509) -/

def vtElem (t : List Byte) : Nat := bytesAt t 5 1
def vtMetric (t : List Byte) : Nat := bytesAt t 6 1
def vtEntries (t : List Byte) : Nat := bytesAt t 7 1
def vtId (t : List Byte) : Nat := bytesAt t 8 2
def vtDim (t : List Byte) : Nat := bytesAt t 10 2
def vtVersion (t : List Byte) : W32 := BitVec.ofNat 32 (bytesAt t 12 4)
def vtItems (t : List Byte) : Nat := bytesAt t 16 4
def vtDegree (t : List Byte) : Nat := bytesAt t 20 1
def vtBuilt (t : List Byte) : Nat := bytesAt t 24 4
def vtShard (t : List Byte) : W32 := BitVec.ofNat 32 (bytesAt t 28 4)

/-- r64 of R335. -/
def r64 (x : Nat) : Nat := (x + 63) / 64 * 64

/-- VBYTES, VSTRIDE, VEC_OFF and ADJ_OFF (R335). -/
def vtBytes (t : List Byte) : Nat :=
  match vtElem t with
  | 0 => vtDim t + vtDim t / 32
  | 1 => vtDim t / 2 + vtDim t / 32
  | _ => 2 * vtDim t
def vtStride (t : List Byte) : Nat := r64 (vtBytes t)
def vtVecOff (t : List Byte) : Nat := r64 (320 + 16 * vtItems t)
def vtAdjOff (t : List Byte) : Nat := vtVecOff t + vtItems t * vtStride t

/-- The header lies in its ranges. -/
def vtHeadOk (t : List Byte) : Bool :=
  decide (64 ≤ t.length) && bytesAt t 0 4 == 0x58444E49 && bytesAt t 4 1 == 1 && decide (vtElem t ≤ 2) &&
  decide (vtMetric t ≤ 1) && decide (1 ≤ vtEntries t) && decide (vtEntries t ≤ 64) && vtId t != 0xFFFF &&
  decide (32 ≤ vtDim t) && decide (vtDim t ≤ 4096) && vtDim t % 32 == 0 && vtVersion t != 0 &&
  decide (1 ≤ vtItems t) && decide (vtItems t ≤ 16777216) && decide (8 ≤ vtDegree t) && decide (vtDegree t ≤ 64) &&
  vtDegree t % 8 == 0 && bytesAt t 21 3 == 0 && bytesAt t 40 24 == 0

/-- LENGTH against the layout; the buffer holds exactly the table (log entry 22). -/
def vtLenOk (t : List Byte) : Bool :=
  bytesAt t 32 8 == t.length && t.length == vtAdjOff t + r64 (4 * vtDegree t * vtItems t)

/-! ## Indexes and versions (R331, R332, R337, R340) -/

/-- The current version of an index. -/
def State.vsCurrent (s : State) (bed id : Nat) : Option VsVersion :=
  s.vs.versions.find? fun v => v.bed == bed && v.id == id && v.current

/-- An index that is held: it has a version. -/
def State.vsIndex? (s : State) (bed id : Nat) : Option VsIndex := s.vs.indexes.find? fun x => x.bed == bed && x.id == id

/-- Change an index. -/
def State.updVsIndex (s : State) (bed id : Nat) (f : VsIndex → VsIndex) : State :=
  let l := updFirst (fun (x : VsIndex) => x.bed == bed && x.id == id) f s.vs.indexes
  { s with vs := { s.vs with indexes := l } }

/-- A query binds a version. -/
def State.vsBound (s : State) (v : VsVersion) : Bool :=
  s.vs.queries.any fun q => q.bed == v.bed && q.id == v.id && q.num == v.num

/-- A publish of an index that is held waits for its journal entry: it takes no area for the deletion set, so the index stays. -/
def State.vsComing (s : State) (bed id : Nat) : Bool :=
  s.keep.queue.any fun i => match i.eff with
    | .load d bs _ none => d.opcode == 0x0900 && dBed d == some bed && vtId bs == id
    | _ => false

/-- The versions of an index that are neither current nor bound are freed; with the last version go the deletion set and
DSEQ (R332, R337). -/
def State.vsSweep (s : State) (bed id : Nat) : State :=
  let dead := s.vs.versions.filter fun v => v.bed == bed && v.id == id && !v.current && !s.vsBound v
  let s := { s with vs := { s.vs with versions := s.vs.versions.filter fun v => !dead.contains v } }
  let s := dead.foldl (fun s v => s.giveBackAll v.near) s
  if (s.vs.versions.any fun v => v.bed == bed && v.id == id) || s.vsComing bed id then s else
  match s.vsIndex? bed id with
  | none => s
  | some x =>
    let s := s.giveBack x.area
    { s with vs := { s.vs with indexes := s.vs.indexes.filter fun y => !(y.bed == bed && y.id == id) } }

/-- DELETION_SET_TRIM (R340). -/
def State.vsTrim (s : State) (bed id : Nat) : State :=
  match s.vsCurrent bed id with
  | none => s
  | some c =>
    let built := vtBuilt c.table
    let lower := s.vs.versions.any fun v => v.bed == bed && v.id == id && s.vsBound v && decide (vtBuilt v.table < built)
    if lower then s else s.updVsIndex bed id fun x => { x with dels := x.dels.filter fun e => decide (built < e.2.toNat) }

/-- Take `n` plots over regions in turn: each plot in the first region of the turn that has room (R336). -/
def State.takeTurn (s : State) (bed : Nat) (regs : List Nat) : Nat → Option (List Nat × State)
  | 0 => some ([], s)
  | n + 1 =>
    match s.takeAlong bed .object plotBytes regs with
    | none => none
    | some x =>
      let r := paRegion x.1
      let next := regs.filter (fun y => decide (r < y)) ++ regs.filter (fun y => decide (y ≤ r))
      let sorted := sortBy (fun a b => decide (a < b)) next
      let turn := sorted.filter (fun y => decide (r < y)) ++ sorted.filter (fun y => decide (y ≤ r))
      match x.2.takeTurn bed turn n with
      | none => none
      | some y => some (x.1 :: y.1, y.2)

/-- The near memory of a publish: the plots of the table, and of a first publish the area of the deletion set (R336). -/
def State.vsTake (s : State) (bed len : Nat) (first : Bool) : Option (List Nat × Option Nat × State) :=
  match s.takeTurn bed (s.regionsOf bed) (ceilDiv len plotBytes) with
  | none => none
  | some x =>
    if first then
      (x.2.takeAlong bed .object 1048576 (x.2.regionsOf bed)).map fun y => (x.1, some y.1, y.2)
    else some (x.1, none, x.2)

/-! ## VS_PUBLISH, VS_UNLOAD -/

/-- The limits and the room of a publish (R333, R336). -/
def State.vsRoom (s : State) (bed len : Nat) (isNew first : Bool) : Option Nat :=
  let cur := s.vs.versions.filter fun v => v.current
  let plots := ceilDiv len plotBytes + (if first then 1 else 0)
  if isNew && (decide (512 ≤ cur.length) || decide (64 ≤ (cur.filter fun v => v.bed == bed).length)) then some St.noResource
  else if (s.vsTake bed len first).isSome then none
  else if s.nearQuotaOk bed plots then some St.noResource
  else some St.overQuota

/-- What a publish comes to: none for an equal version with the same content (R331); a status, and whether the refusal is
journalled, or acceptance. -/
inductive VsVerdict where
  | refuse (st : Nat)
  | same
  | accept
  deriving DecidableEq, Repr

/-- The checks of a publish (R331, R334, R336, R340). -/
def State.vsVerdict (s : State) (bed : Nat) (t : List Byte) : VsVerdict :=
  if !vtHeadOk t then .refuse St.tableVersion
  else if !vtLenOk t then .refuse St.tableVersion
  else
    let ix := s.vsIndex? bed (vtId t)
    let dseq := match ix with | some x => x.dseq.toNat | none => 0
    if dseq < vtBuilt t then .refuse St.tableVersion else
    let cur := s.vsCurrent bed (vtId t)
    let room := match s.vsRoom bed t.length cur.isNone ix.isNone with | some st => VsVerdict.refuse st | none => .accept
    match cur with
    | none => room
    | some v =>
      if v.version = vtVersion t then (if v.table = t then .same else .refuse St.conflict)
      else if (vtVersion t).toNat < v.version.toNat then .refuse St.versionRefused
      else room

/-- The journal entry of a publish (0) or an unload (1): table kind 5 (R244, R331). -/
def State.vsEntry (s : State) (d : Desc) (bed op id : Nat) (v : W32) (old new : W128) (refused : Bool) : JEntry :=
  s.jCmd d 0x0004 bed (op + 5 * 256) (id + v.toNat * 2 ^ 32) old new refused

/-- RESULT of VS_PUBLISH. -/
def vsResult (t : List Byte) : Nat := vtId t + (vtVersion t).toNat * 2 ^ 32

/-- VS_PUBLISH. -/
def State.vsPublish (s : State) (d : Desc) : State :=
  let bed := (dBed d).getD 0
  let t := s.buf0 d
  let old := match s.vsCurrent bed (vtId t) with | some v => digest128 v.table | none => 0
  let e := s.vsEntry d bed 0 (vtId t) (vtVersion t) old (digest128 t)
  match s.vsVerdict bed t with
  | .refuse st => s.submitCmd d [e true] [] (.complete d st 0)
  | .same => s.complete d St.ok (vsResult t)
  | .accept => s.submitLoad d (e false) t (s.vsTake bed t.length (s.vsIndex? bed (vtId t)).isNone)

/-- VS_PUBLISH once durable. -/
def State.vsPublishDone (s : State) (d : Desc) (t : List Byte) (near : List Nat) (area : Option Nat) : State :=
  let bed := (dBed d).getD 0
  let id := vtId t
  let old := updAll (fun (v : VsVersion) => v.bed == bed && v.id == id) (fun v => { v with current := false }) s.vs.versions
  let v : VsVersion := { num := s.vs.nextVersion, bed := bed, id := id, version := vtVersion t, table := t, near := near }
  let ixs := match area with
    | some a => ({ bed := bed, id := id, area := a } : VsIndex) :: s.vs.indexes
    | none => s.vs.indexes
  let s := { s with vs := { s.vs with versions := v :: old, indexes := ixs, nextVersion := s.vs.nextVersion + 1 } }
  ((s.vsTrim bed id).vsSweep bed id).complete d St.ok (vsResult t)

/-- VS_UNLOAD (R337). -/
def State.vsUnload (s : State) (d : Desc) : State :=
  let bed := (dBed d).getD 0
  match s.vsCurrent bed (dArg d 48 2) with
  | none => s.complete d St.notFound
  | some v => s.submitCmd d [s.vsEntry d bed 1 v.id v.version (digest128 v.table) 0 false] [] (.cmd d [] 0)

/-- VS_UNLOAD once durable. -/
def State.vsUnloadDone (s : State) (d : Desc) : State :=
  let bed := (dBed d).getD 0
  match s.vsCurrent bed (dArg d 48 2) with
  | none => s.complete d St.notFound
  | some v =>
    let l := updAll (fun (x : VsVersion) => x.bed == bed && x.id == v.id) (fun x => { x with current := false }) s.vs.versions
    (({ s with vs := { s.vs with versions := l } }).vsSweep bed v.id).complete d St.ok v.version.toNat

/-! ## VS_DELETE, VS_SHARE, VS_INFO -/

/-- The keys of a deletion set. -/
def vsKeys (x : VsIndex) : List W64 := (x.dels.map fun e => e.1).eraseDups

/-- The KEYs of a buffer. -/
def vsKeyList (bs : List Byte) : List W64 :=
  (List.range (bs.length / 8)).map fun i => BitVec.ofNat 64 (bytesAt bs (8 * i) 8)

/-- VS_DELETE (R338). -/
def State.vsDelete (s : State) (d : Desc) : State :=
  let bed := (dBed d).getD 0
  let id := dArg d 48 2
  match s.vsCurrent bed id, s.vsIndex? bed id with
  | some _, some x =>
    let keys := (vsKeyList (s.buf0 d)).eraseDups
    let fresh := keys.filter fun k => !(vsKeys x).contains k
    if 65536 < (vsKeys x).length + fresh.length then
      (s.setStatus F.VS_STATUS_DELETE_FULL bed).complete d St.noResource
    else
      let n := x.dseq + 1
      (s.updVsIndex bed id fun x => { x with dseq := n, dels := x.dels ++ keys.map fun k => (k, n) }).complete d St.ok n.toNat
  | _, _ => s.complete d St.notFound

/-- The bytes of a share list that the journal digests. -/
def shareBytes (l : List Nat) : List Byte := List.flatten (l.map fun n => leBytes 2 n)

/-- The nodes that VS_SHARE names: at most six (R345). -/
def vsShareArg (d : Desc) : List Nat := (List.range (min 6 (dArg d 50 1))).map fun k => dArg d (52 + 2 * k) 2

/-- VS_SHARE (R345, R348). -/
def State.vsShare (s : State) (d : Desc) : State :=
  let bed := (dBed d).getD 0
  let id := dArg d 48 2
  match s.vsCurrent bed id, s.vsIndex? bed id with
  | some _, some x =>
    let e := s.jCmd d 0x0008 bed (6 * 2 ^ 24) id (digest128 (shareBytes x.share)) (digest128 (shareBytes (vsShareArg d)))
    s.submitCmd d [e] [] (.cmd d [] 0)
  | _, _ => s.complete d St.notFound

/-- VS_SHARE once durable. -/
def State.vsShareDone (s : State) (d : Desc) : State :=
  let bed := (dBed d).getD 0
  let id := dArg d 48 2
  match s.vsCurrent bed id with
  | none => s.complete d St.notFound
  | some _ => (s.updVsIndex bed id fun x => { x with share := vsShareArg d }).complete d St.ok

/-- VS_INFO (R348): the physical function names the Bed. -/
def State.vsInfo (s : State) (d : Desc) : State :=
  let bed := match dBed d with | some b => b | none => dArg d 50 1
  let id := dArg d 48 2
  if !s.bedConfigured bed then s.complete d St.bedAbsent else
  match s.vsCurrent bed id, s.vsIndex? bed id with
  | some v, some x =>
    let bound := (s.vs.queries.filter fun q => q.bed == bed && q.id == id).length
    let res := x.dseq.toNat + (vsKeys x).length % 65536 * 2 ^ 32 + bound % 65536 * 2 ^ 48
    (s.writeAddr d d.addr0 (v.table.take 64)).complete d St.ok res
  | _, _ => s.complete d St.notFound

/-! ## Query records (R347) -/

def vqIndex (r : List Byte) : Nat := bytesAt r 0 2
def vqK (r : List Byte) : Nat := bytesAt r 2 2
/-- QUEUE: 0 stands for 64, above 1,024 behaves as 1,024. -/
def vqQueue (r : List Byte) : Nat := if bytesAt r 4 2 = 0 then 64 else min 1024 (bytesAt r 4 2)
def vqFp32 (r : List Byte) : Bool := bytesAt r 6 1 == 1
def vqVisits (r : List Byte) : Nat := bytesAt r 8 4
/-- SHARD_TIMEOUT: 0 stands for 48. -/
def vqTimeout (r : List Byte) : Nat := if bytesAt r 12 4 = 0 then 48 else bytesAt r 12 4
def vqDim (r : List Byte) : Nat := bytesAt r 40 2
def vqRemotes (r : List Byte) : List Nat := (List.range (min 8 (bytesAt r 42 1))).map fun k => bytesAt r (44 + 2 * k) 2

/-- K, VISITS and REMOTES lie within the limits of R333, from 1 on where they start there (log entry 40). -/
def vqLimits (r : List Byte) : Bool :=
  decide (1 ≤ vqK r) && decide (vqK r ≤ 1024) && decide (1 ≤ vqVisits r) && decide (vqVisits r ≤ 1048576) &&
  decide (bytesAt r 42 1 ≤ 8)

/-- The bytes of a query record with its vector. -/
def vqBytes (r : List Byte) : Nat := 64 + vqDim r * (if vqFp32 r then 4 else 2)

/-- The elements of a query's vector as FP32. -/
def vqVector (r rest : List Byte) : List W32 :=
  (List.range (vqDim r)).map fun i =>
    if vqFp32 r then BitVec.ofNat 32 (bytesAt rest (4 * i) 4) else bf16To32 (BitVec.ofNat 16 (bytesAt rest (2 * i) 2))

/-- An item passes the filter (R343). -/
def vqPasses (r : List Byte) (attr : Nat) : Bool :=
  let all := bytesAt r 16 8
  let any := bytesAt r 24 8
  attr &&& all == all && (any == 0 || attr &&& any != 0) && attr &&& bytesAt r 32 8 == 0

/-! ## The walk (R341 to R343) -/

/-- A candidate: distance, item, and whether it was expanded. -/
structure VsCand where
  d : W32
  x : Nat
  done : Bool := false
  deriving DecidableEq, Repr

/-- The order of Q. -/
def vsBefore (a b : VsCand) : Bool := f32Lt a.d b.d || (!f32Lt b.d a.d && decide (a.x < b.x))

/-- The order of M. -/
def vsMatchBefore (a b : W64 × W32) : Bool := f32Lt a.2 b.2 || (!f32Lt b.2 a.2 && decide (a.1.toNat < b.1.toNat))

/-- A walk in progress. `stop` holds FLAGS once it has ended. -/
structure VsWalk where
  w : Nat
  queue : List VsCand := []
  reserve : List VsCand := []
  found : List (W64 × W32) := []
  seen : List Nat := []
  visits : Nat := 0
  poison : Bool := false
  stop : Option Nat := none
  deriving DecidableEq, Repr

/-- What a walk reads: the table, the query in the snapshot's format, its record, the keys withheld, and the parts of the
table that poison covers (offset and length). -/
structure VsEnv where
  t : List Byte
  q : List Fx
  r : List Byte
  gone : List W64
  bad : Nat → Nat → Bool

/-- The vector of an item (R335). -/
def vtVector (t : List Byte) (x : Nat) : List Fx :=
  let at_ := vtVecOff t + x * vtStride t
  let n := vtDim t
  match vtElem t with
  | 0 => sumLoad n ((t.drop at_).take n) ((t.drop (at_ + n)).take (n / 32))
  | 1 => vecLoad 1 n ((t.drop at_).take (n / 2)) ((t.drop (at_ + n / 2)).take (n / 32))
  | _ => (List.range n).map fun i => f32Val (bf16To32 (BitVec.ofNat 16 (bytesAt t (at_ + 2 * i) 2)))

/-- A query's vector in the snapshot's element format (R341). -/
def vqConvert (t : List Byte) (v : List W32) : List Fx :=
  if vtElem t = 2 then v.map fun w => viaBf16 (f32Val w) else viaFp8 (v.map f32Val)

/-- The distance of an item (R341). -/
def vsDistance (t : List Byte) (q : List Fx) (x : Nat) : W32 :=
  let v := vtVector t x
  if vtMetric t = 0 then
    let p := f32Sum ((q.zip v).map fun p => f32OfFx (fxMul p.1 p.2))
    if f32IsNan p then p else p ^^^ 0x80000000#32
  else
    f32Sum ((q.zip v).map fun p => let e := f32OfFx (fxAdd p.1 (fxNeg p.2)); f32Mul e e)

/-- Insert into Q; what is pushed out goes into S, and what S pushes out is dropped. -/
def vsInsert (k : VsWalk) (c : VsCand) : VsWalk :=
  let q := insertBy vsBefore c k.queue
  let out := q.drop k.w
  { k with queue := q.take k.w, reserve := (out.foldl (fun r c => insertBy vsBefore c r) k.reserve).take 1024 }

/-- visit(x). An item whose record or vector carries poison is neither queued nor returned (log entry 40). -/
def vsVisit (e : VsEnv) (k : VsWalk) (x : Nat) : VsWalk :=
  if k.stop.isSome then k
  else if k.visits = vqVisits e.r then { k with stop := some 1 }
  else
    let k := { k with visits := k.visits + 1, seen := x :: k.seen }
    let bad := e.bad (320 + 16 * x) 16 || e.bad (vtVecOff e.t + x * vtStride e.t) (vtBytes e.t)
    let k := { k with poison := k.poison || bad }
    let d := vsDistance e.t e.q x
    if bad || f32IsNan d then k else
      let k := vsInsert k { d := d, x := x }
      let key : W64 := BitVec.ofNat 64 (bytesAt e.t (320 + 16 * x) 8)
      if vqPasses e.r (bytesAt e.t (328 + 16 * x) 8) && !e.gone.contains key then
        { k with found := (insertBy vsMatchBefore (key, d) k.found).take (vqK e.r) }
      else k

/-- The neighbours of an item in slot order, without empty slots (R335). -/
def vtNeighbours (t : List Byte) (x : Nat) : List Nat :=
  let at_ := vtAdjOff t + 4 * vtDegree t * x
  ((List.range (vtDegree t)).map fun i => bytesAt t (at_ + 4 * i) 4).filter fun n => n != 0xFFFFFFFF

/-- One pass of the loop of R342. -/
def vsLoop (e : VsEnv) (k : VsWalk) : VsWalk :=
  match k.queue.find? fun c => !c.done with
  | none =>
    if vqK e.r ≤ k.found.length then { k with stop := some 0 }
    else if 1024 ≤ k.w then { k with stop := some 2 }
    else
      let w := min (2 * k.w) 1024
      let n := w - k.queue.length
      { k with w := w, queue := (k.reserve.take n).foldl (fun q c => insertBy vsBefore c q) k.queue, reserve := k.reserve.drop n }
  | some c =>
    let k := { k with queue := updFirst (fun y => y.x == c.x) (fun y => { y with done := true }) k.queue }
    let at_ := vtAdjOff e.t + 4 * vtDegree e.t * c.x
    if e.bad at_ (4 * vtDegree e.t) then { k with poison := true } else
      (vtNeighbours e.t c.x).foldl (fun k n => if k.seen.contains n then k else vsVisit e k n) k

/-- The loop; each pass expands an item or widens, so `n` bounds it. -/
def vsRun (e : VsEnv) : Nat → VsWalk → VsWalk
  | 0, k => k
  | n + 1, k => if k.stop.isSome then k else vsRun e n (vsLoop e k)

/-- The entry points of a snapshot. -/
def vtEntry (t : List Byte) : List Nat := (List.range (vtEntries t)).map fun k => bytesAt t (64 + 4 * k) 4

/-- The whole walk (R342). -/
def vsWalkAll (e : VsEnv) : VsResult :=
  let k : VsWalk := { w := max (vqK e.r) (vqQueue e.r) }
  let k := (vtEntry e.t).foldl (fun k x => if k.seen.contains x then k else vsVisit e k x) k
  let k := vsRun e (vqVisits e.r + 16) k
  { flags := k.stop.getD 0, visits := k.visits, poison := k.poison, found := k.found }

/-- Some part of `[off, off + n)` of a holding of whole plots carries poison or lies in a fenced region. -/
def State.holdBad (s : State) (near : List Nat) (off n : Nat) : Bool :=
  (List.range (ceilDiv (off % plotBytes + n) plotBytes)).any fun i =>
    let pa := near.getD (off / plotBytes + i) 0
    let lo := if i = 0 then off % plotBytes else 0
    let hi := min plotBytes (off % plotBytes + n - i * plotBytes)
    s.flt.regions.contains (paRegion pa) || s.nearPoison (pa + lo) (hi - lo)

/-- The keys that a query withholds: those with a sequence at or below DSEQ_Q, and of the later ones any (R339): which, is a
free choice (log entry 39). -/
def State.vsGone (s : State) (x : VsIndex) (dseq : W32) : List W64 × State :=
  let old := (x.dels.filter fun e => decide (e.2.toNat ≤ dseq.toNat)).map fun e => e.1
  let late := (x.dels.filter fun e => decide (dseq.toNat < e.2.toNat)).map fun e => e.1
  let r := late.foldl (fun (a : List W64 × State) k =>
    let f := a.2.draw 39
    (if f.1.getLsbD 0 then k :: a.1 else a.1, f.2)) (old, s)
  r

/-! ## Queries -/

/-- Change a query. -/
def State.updQuery (s : State) (ix : Nat) (f : VsQuery → VsQuery) : State :=
  { s with vs := { s.vs with queries := updFirst (fun q => q.ix == ix) f s.vs.queries } }

/-- The query of a number. -/
def State.query? (s : State) (ix : Nat) : Option VsQuery := s.vs.queries.find? fun q => q.ix == ix

/-- Queries whose walk runs on a die (DS_GW_INFLIGHT), and on one of its walkers. -/
def State.queriesOn (s : State) (q : Nat) : List VsQuery := s.vs.queries.filter fun x => x.die == q && x.walk.isNone
def State.queriesAt (s : State) (q w : Nat) : Nat := ((s.queriesOn q).filter fun x => x.walker == w).length

/-- The least of a list by a measure, the earlier on a tie. -/
def leastBy (f : Nat → Nat) : List Nat → Option Nat
  | [] => none
  | a :: r => match leastBy f r with | none => some a | some b => some (if f a ≤ f b then a else b)

/-- The die whose walkers hold the fewest queries of the Bed (R341). -/
def State.quietDie (s : State) (bed : Nat) : Nat :=
  (leastBy (fun q => ((s.queriesOn q).filter fun x => x.bed == bed).length) [0, 1, 2, 3]).getD 0

/-- A walker of a die with room for one query more: the one that holds the fewest (R333, log entry 40). -/
def State.freeWalker (s : State) (q : Nat) : Option Nat :=
  (leastBy (fun w => s.queriesAt q w) [0, 1, 2, 3]).filter fun w => decide (s.queriesAt q w < 16)

/-- Send VS_REQ to the remote nodes of a query, each under a REQ_ID of its own (R345). -/
def State.sendShards (s : State) (shard : W32) (bed : Nat) (payload : List Byte) (nodes : List Nat) :
    List (Nat × W16) × State :=
  nodes.foldl (fun (a : List (Nat × W16) × State) n =>
    let s := a.2
    let id := s.vs.nextReq
    let m : VsMsg := { sender := s.node, reqId := id, shard := shard, payload := payload }
    let s := { s with vs := { s.vs with nextReq := id + 1 } }
    (a.1 ++ [(n, id)], s.emit { dest := n, bed := some bed, msg := .vsReq m })) ([], s)

/-- Put a query on a walker (R332, R341). -/
def State.startQuery (s : State) (q : VsQuery) : State :=
  { s with vs := { s.vs with queries := s.vs.queries ++ [{ q with ix := s.vs.nextQuery }], nextQuery := s.vs.nextQuery + 1 } }

/-- The die that a query's TARGET gives: that of the owning region of the session it names. -/
def State.queryDie (s : State) (d : Desc) (bed : Nat) : Nat :=
  if d.target = 0 && !dSlot d then s.quietDie bed else
  match s.targetSid d with
  | none => s.quietDie bed
  | some sid =>
    match s.slotOf sid, s.seq? sid with
    | some t, _ => dieOf t.region
    | none, some q => dieOf q.region
    | none, none => s.quietDie bed

/-- VS_QUERY: the query binds the current version and DSEQ and starts (R332, R341, R345, R347). -/
def State.vsQuery (s : State) (d : Desc) : State :=
  let bed := (dBed d).getD 0
  let r := s.buf0N d 64
  match s.vsCurrent bed (vqIndex r), s.vsIndex? bed (vqIndex r) with
  | some v, some x =>
    if vqDim r != vtDim v.table then s.complete d dimMismatch
    else if !vqLimits r then s.complete d St.noResource
    else
      let die := s.queryDie d bed
      match s.freeWalker die with
      | none => s.complete d St.noResource
      | some w =>
        let all := s.buf0N d (vqBytes r)
        let s := s.touchAddr d d.addr0 (vqBytes r)
        let sent := s.sendShards (vtShard v.table) bed all (vqRemotes r)
        let q : VsQuery :=
          { ix := 0, d := some d, bed := bed, id := v.id, version := v.version, num := v.num, dseq := x.dseq, die := die, walker := w
            rec64 := r, vec := vqVector r (all.drop 64), started := s.now, remotes := sent.1 }
        sent.2.startQuery q
  | _, _ => s.complete d St.notFound

/-- The 16-byte entries of a result (R347). -/
def vsEntryBytes (e : W64 × W32 × Nat) : List Byte :=
  leBytes 8 e.1.toNat ++ leBytes 4 e.2.1.toNat ++ [BitVec.ofNat 8 e.2.2] ++ leBytes 3 0

/-- The result record with its entries. -/
def vsRecord (q : VsQuery) (flags answered visits : Nat) (es : List (W64 × W32 × Nat)) : List Byte :=
  leBytes 2 es.length ++ [BitVec.ofNat 8 flags, 0] ++ leBytes 2 answered ++ leBytes 2 0 ++ leBytes 4 visits ++
  leBytes 4 q.version.toNat ++ leBytes 4 q.dseq.toNat ++ leBytes 8 q.started.toNat ++ leBytes 4 0 ++
  List.flatten (es.map vsEntryBytes)

/-- The result that a VS_RESP carries. -/
def vsParse (p : List Byte) : VsResult :=
  let n := min (bytesAt p 0 2) ((p.length - 32) / 16)
  { flags := bytesAt p 2 1 % 8, visits := bytesAt p 8 4
    found := (List.range n).map fun i =>
      (BitVec.ofNat 64 (bytesAt p (32 + 16 * i) 8), BitVec.ofNat 32 (bytesAt p (40 + 16 * i) 4)) }

/-- Merge matches with their origins: of duplicate KEYs the one with the smaller distance (R346). -/
def vsMerge (k : Nat) (l : List (W64 × W32 × Nat)) : List (W64 × W32 × Nat) :=
  let before := fun (a b : W64 × W32 × Nat) => vsMatchBefore (a.1, a.2.1) (b.1, b.2.1)
  let kept := l.foldl (fun (acc : List (W64 × W32 × Nat)) e =>
    match acc.find? fun a => a.1 == e.1 with
    | none => acc ++ [e]
    | some a => if f32Lt e.2.1 a.2.1 then acc.filter (fun b => b.1 != e.1) ++ [e] else acc) []
  (sortBy before kept).take k

/-- A query leaves; its version and the deletion set are swept (R332, R340). -/
def State.endQuery (s : State) (q : VsQuery) : State :=
  let s := { s with vs := { s.vs with queries := s.vs.queries.filter fun x => x.ix != q.ix } }
  (s.vsSweep q.bed q.id).vsTrim q.bed q.id

/-- Set a status bit when a query's FLAGS hold one (R349). -/
def State.vsFlag (s : State) (bed flags n : Nat) (f : Fld) : State := if bitSet flags n then s.setStatus f bed else s

/-- A local query completes: the answers are merged, the result is written (R346, R347, R349). -/
def State.mergeQuery (s : State) (q : VsQuery) (d : Desc) (own : VsResult) : State :=
  let good := q.answers.filterMap fun (a : Nat × Option VsResult) => a.2.map fun r => (a.1, r)
  let missing := decide (good.length < q.remotes.length)
  let flags := good.foldl (fun f (a : Nat × VsResult) => f ||| a.2.flags) own.flags ||| (if missing then 4 else 0)
  let answered := good.foldl (fun m (a : Nat × VsResult) => m + 2 ^ (a.1 + 1)) 1
  let es := own.found.map (fun e => (e.1, e.2, 0)) ++
    List.flatten (good.map fun (a : Nat × VsResult) => a.2.found.map fun e => (e.1, e.2, a.1 + 1))
  let out := vsMerge (vqK q.rec64) es
  let s := s.endQuery q
  if !s.running d then s else
    let s := s.bump64 .VS_QUERIES_LO .VS_QUERIES_HI q.bed
    let s := if out.length < vqK q.rec64 then s.bump .VS_SHORT q.bed else s
    let s := s.vsFlag q.bed flags 0 F.VS_STATUS_BUDGET
    let s := s.vsFlag q.bed flags 1 F.VS_STATUS_EXHAUSTED
    let s := s.vsFlag q.bed flags 2 F.VS_STATUS_SHARD_MISSING
    let bad := own.poison || s.addrPoison d d.addr0 (vqBytes q.rec64)
    let s := s.writeAddr d d.addr1 (vsRecord q flags answered own.visits out)
    s.complete d (if bad then St.poisoned else St.ok) (out.length + flags * 2 ^ 16 + q.version.toNat * 2 ^ 32)

/-- A remote walk ends: its result goes to the node that asked (R345). -/
def State.answerShard (s : State) (q : VsQuery) (asker : Nat × W16 × W32) (own : VsResult) : State :=
  let rec_ := vsRecord q own.flags 1 own.visits (own.found.map fun e => (e.1, e.2, 0))
  let m : VsMsg := { sender := s.node, reqId := asker.2.1, shard := asker.2.2, payload := rec_ }
  (s.endQuery q).emit { dest := asker.1, bed := some q.bed, msg := .vsResp m }

/-- A query completes once its walk has ended and every remote node has answered or the time is over (R346). -/
def State.tryMerge (s : State) (ix : Nat) : State :=
  match s.query? ix with
  | none => s
  | some q =>
    match q.walk, q.d, q.asker with
    | some own, some d, _ => if q.timedOut || q.remotes.length ≤ q.answers.length then s.mergeQuery q d own else s
    | some own, none, some a => s.answerShard q a own
    | _, _, _ => s

/-- VS_WALK_COMPLETE (R342): the walk of a query ends. -/
def State.vsWalkComplete (s : State) (ix : Nat) : State :=
  match s.query? ix with
  | none => s
  | some q =>
    if q.walk.isSome then s else
    match (s.vs.versions.find? fun v => v.bed == q.bed && v.id == q.id && v.num == q.num), s.vsIndex? q.bed q.id with
    | some v, some x =>
      let g := s.vsGone x q.dseq
      let e : VsEnv :=
        { t := v.table, q := vqConvert v.table q.vec, r := q.rec64, gone := g.1, bad := fun o n => s.holdBad v.near o n }
      let own := vsWalkAll e
      let s := g.2.bump64 .DS_GW_VISITS_LO .DS_GW_VISITS_HI q.die own.visits
      let s := s.count (16 + q.die) 0x23 0 (some q.bed) own.visits
      let s := if q.asker.isSome then s else s.bump64 .VS_VISITS_LO .VS_VISITS_HI q.bed own.visits
      (s.updQuery ix fun q => { q with walk := some own }).tryMerge ix
    | _, _ => s

/-! ## Shards on other nodes (R345, R346) -/

/-- The version that serves a VS_REQ: that of the lowest-numbered Bed which shares it with the sender. -/
def State.sharedVersion (s : State) (shard : W32) (sender : Nat) : Option VsVersion :=
  if shard = 0 then none else
  (List.range 16).findSome? fun b =>
    if s.flt.fatalBeds.contains b then none else
    s.vs.versions.find? fun v => v.bed == b && v.current && vtShard v.table == shard &&
      ((s.vsIndex? b v.id).any fun x => x.share.contains sender)

/-- Answer a VS_REQ with a CODE alone. -/
def State.refuseShard (s : State) (m : VsMsg) (bed : Option Nat) (code : Nat) : State :=
  let r : VsMsg := { code := code, sender := s.node, reqId := m.reqId, shard := m.shard }
  s.emit { dest := m.sender, bed := bed, msg := .vsResp r }

/-- VS_REQ. A node whose walkers have no room answers NOT_SHARED (log entry 40). -/
def State.vsReq (s : State) (m : VsMsg) : State :=
  let r := m.payload.take 64
  match s.sharedVersion m.shard m.sender with
  | none => s.refuseShard m none 1
  | some v =>
    if vqDim r != vtDim v.table then s.refuseShard m (some v.bed) 3 else
    let die := s.quietDie v.bed
    match s.freeWalker die, s.vsIndex? v.bed v.id with
    | some w, some x =>
      let q : VsQuery :=
        { ix := 0, asker := some (m.sender, m.reqId, m.shard), bed := v.bed, id := v.id, version := v.version
          num := v.num, dseq := x.dseq, die := die, walker := w, rec64 := r, vec := vqVector r (m.payload.drop 64), started := s.now }
      (s.bump .VS_REMOTE_SERVED v.bed).startQuery q
    | _, _ => s.refuseShard m (some v.bed) 1

/-- The place of the remote node that a VS_RESP answers for, in a query that waits for it. -/
def vsPlace (q : VsQuery) (m : VsMsg) : Option Nat :=
  ((List.range q.remotes.length).find? fun k => q.remotes.getD k (0, 0) == (m.sender, m.reqId)).filter fun k =>
    q.answers.all fun a => a.1 != k

/-- VS_RESP: an answer within SHARD_TIMEOUT is kept, a later one discarded. -/
def State.vsResp (s : State) (m : VsMsg) : State :=
  match s.vs.queries.find? fun q => !q.timedOut && (vsPlace q m).isSome with
  | none => s
  | some q =>
    match vsPlace q m with
    | none => s
    | some k =>
      if ftLater s.now (ftAdd q.started (vqTimeout q.rec64)) then s else
        let a := if m.code = 0 then some (vsParse m.payload) else none
        (s.updQuery q.ix fun q => { q with answers := q.answers ++ [(k, a)] }).tryMerge q.ix

/-- SHARD_TIMEOUT: the query takes the answers it has. -/
def State.shardTimeout (s : State) (ix : Nat) : State :=
  match s.query? ix with
  | none => s
  | some q =>
    if ftReached s.now (ftAdd q.started (vqTimeout q.rec64)) then
      (s.updQuery ix fun q => { q with timedOut := true }).tryMerge ix
    else s

/-- The queries that `p` names are discarded without completion (R337, R350). -/
def State.dropQueries (s : State) (p : VsQuery → Bool) : State :=
  (s.vs.queries.filter p).foldl (fun s q => s.endQuery q) s

/-- Every index of a Bed is unloaded (R337, partition reset). -/
def State.dropIndexes (s : State) (bed : Nat) : State :=
  let s := s.dropQueries fun q => q.bed == bed
  let ids := (s.vs.indexes.filter fun x => x.bed == bed).map fun x => x.id
  let l := updAll (fun (v : VsVersion) => v.bed == bed) (fun v => { v with current := false }) s.vs.versions
  let s := ids.foldl (fun s id => s.vsSweep bed id) { s with vs := { s.vs with versions := l } }
  { s with vs := { s.vs with indexes := s.vs.indexes.filter fun x => x.bed != bed } }

end Sys2Proof.Machine
end

