-- ==== Sys2Proof/Machine/Exported.lean ====
section
/-! DEFINITION. Exported memory and near-memory operations (R384 to R403). -/

namespace Sys2Proof.Machine

/-- The command statuses of R402. -/
def rangeOverlap : Nat := 0x80
def remoteRefused : Nat := 0x81
def remoteTimeout : Nat := 0x82

/-! ## CODE of MR_RESP (R388) -/

namespace Mr
def ok : Nat := 0
def revoked : Nat := 1
def notImporter : Nat := 2
def range : Nat := 3
def readOnly : Nat := 4
def lost : Nat := 5
def conflict : Nat := 6
def versionRefused : Nat := 7
def notFound : Nat := 8
def poisoned : Nat := 9
end Mr

/-! ## Lines of buffer space (R279, R393) -/

/-- The addresses of the lines that `[va, va + len)` meets. -/
def lineVas (va len : Nat) : List Nat :=
  if len = 0 then [] else (List.range ((va + len - 1) / 64 - va / 64 + 1)).map fun i => 64 * (va / 64 + i)

/-- A line of buffer space carries poison when it is read. -/
def State.vaPoison (s : State) (bed line : Nat) : Bool := s.bufPoison bed line 64

/-- Poison the line of buffer space at `line`: it stays as it is (R396). -/
def State.poisonVa (s : State) (bed line : Nat) : State :=
  match s.bufPa bed line with
  | none => s
  | some pa => { s with mem := { s.mem with poison := (pa / 64) :: s.mem.poison.filter fun x => x != pa / 64 } }

/-- Rewrite a line with zero data and poison (R393). -/
def State.loseLine (s : State) (bed line : Nat) : State :=
  (s.bufWrite bed line (List.replicate 64 0)).poisonVa bed line

/-- The poison map of `[va, va + len)`: one bit for each of its first 64 lines (R388, log entry 41). -/
def State.poisonMap (s : State) (bed va len : Nat) : Nat :=
  ((lineVas va len).take 64).zipIdx.foldl (fun m x => if s.vaPoison bed x.1 then m + 2 ^ x.2 else m) 0

/-! ## Near-memory operations (R395, R396) -/

/-- A pattern of 8 bytes repeated over `n` bytes. -/
def fillBytes (pattern : List Byte) (n : Nat) : List Byte := (List.range n).map fun i => pattern.getD (i % 8) 0

/-- The destination lines of a copy whose source carries poison. -/
def State.copyPoison (s : State) (bed dst src len : Nat) : List Nat :=
  (lineVas dst len).filter fun l =>
    let lo := max l dst
    let hi := min (l + 64) (dst + len)
    s.bufPoison bed (src + (lo - dst)) (hi - lo)

/-- A read of a Bed's memory returned poison or not: EXP_STATUS shows it (R403, log entry 41). -/
def State.poisonRead (s : State) (bed : Nat) (bad : Bool) : State :=
  if bad then s.setStatus F.EXP_STATUS_POISON_SERVED bed else s

/-- Copy as if through a buffer; the answer says whether poison was met. -/
def State.opCopy (s : State) (bed dst src len : Nat) : State × Bool :=
  let bad := s.copyPoison bed dst src len
  let s := (s.bufTouch bed src len).bufWrite bed dst (s.bufRead bed src len)
  ((bad.foldl (fun s l => s.poisonVa bed l) s).poisonRead bed (!bad.isEmpty), !bad.isEmpty)

/-- One element of a reduce: operator 0 add, 1 max, 2 min; type 0 FP32, 1 BF16, 2 INT32. -/
def reduceElem (op typ a b : Nat) : Nat :=
  let f := fun (x y : W32) => match op with
    | 0 => f32Add x y
    | 1 => f32Max2 x y
    | _ => if f32IsNan x then x else if f32IsNan y then y else if f32Lt y x then y else x
  match typ with
  | 0 => (f (BitVec.ofNat 32 a) (BitVec.ofNat 32 b)).toNat
  | 1 => (bf16Of32 (f (bf16To32 (BitVec.ofNat 16 a)) (bf16To32 (BitVec.ofNat 16 b)))).toNat
  | _ =>
    let x := BitVec.ofNat 32 a
    let y := BitVec.ofNat 32 b
    match op with
    | 0 => (x + y).toNat
    | 1 => if x.slt y then y.toNat else x.toNat
    | _ => if y.slt x then y.toNat else x.toNat

/-- Reduce two byte strings elementwise. -/
def reduceBytes (op typ : Nat) (a b : List Byte) : List Byte :=
  let n := if typ = 1 then 2 else 4
  List.flatten ((List.range (a.length / n)).map fun i => leBytes n (reduceElem op typ (bytesAt a (n * i) n) (bytesAt b (n * i) n)))

/-- dst = op(dst, src). -/
def State.opReduce (s : State) (bed dst src len op typ : Nat) : State × Bool :=
  let bad := s.copyPoison bed dst src len ++ (lineVas dst len).filter fun l => s.vaPoison bed l
  let n := if typ = 1 then 2 else 4
  let out := reduceBytes op typ (s.bufRead bed dst (len / n * n)) (s.bufRead bed src (len / n * n))
  let s := ((s.bufTouch bed src len).bufTouch bed dst len).bufWrite bed dst out
  ((bad.foldl (fun s l => s.poisonVa bed l) s).poisonRead bed (!bad.isEmpty), !bad.isEmpty)

/-- Compare from offset `i` on, `n` bytes: the offset that R395 and R396 return, and whether poison was met. -/
def State.compareFrom (s : State) (bed a b : Nat) (x y : List Byte) : Nat → Nat → Nat × Bool
  | 0, _ => (2 ^ 64 - 1, false)
  | n + 1, i =>
    if (i = 0 || (a + i) % 64 = 0) && s.vaPoison bed ((a + i) / 64 * 64) then ((a + i) / 64 * 64 - a, true)
    else if (i = 0 || (b + i) % 64 = 0) && s.vaPoison bed ((b + i) / 64 * 64) then ((b + i) / 64 * 64 - b, true)
    else if x.getD i 0 != y.getD i 0 then (i, false)
    else s.compareFrom bed a b x y n (i + 1)

/-- Compare two ranges. -/
def State.opCompare (s : State) (bed a b len : Nat) : Nat × Bool :=
  s.compareFrom bed a b (s.bufRead bed a len) (s.bufRead bed b len) len 0

/-! ## Answers -/

/-- Answer a request (R388). -/
def State.mrAnswer (s : State) (m r : MrMsg) (code : Nat) : State :=
  let r := { r with sender := s.node, bed := m.bed, target := m.target, reqId := m.reqId, code := code }
  s.emit { dest := m.sender, bed := some m.bed, msg := .mr .resp r }

/-- An empty answer. -/
def mrEmpty : MrMsg := { sender := 0, bed := 0, target := 0 }

/-- Refuse a request: it touches nothing (R388, R403). -/
def State.mrRefuse (s : State) (m : MrMsg) (code : Nat) : State :=
  let s := if m.bed < 16 then s.bump .EXP_REFUSED m.bed else s
  let s := if code = Mr.revoked && m.bed < 16 then s.setStatus F.EXP_STATUS_REVOKED_REFUSED m.bed else s
  s.mrAnswer m mrEmpty code

/-- Answer a request with data from buffer space: poison is shown in the map, with CODE 9 (R393). -/
def State.mrData (s : State) (m : MrMsg) (va len : Nat) (r : MrMsg) : State :=
  let bad := s.bufPoison m.bed va len
  let map := s.poisonMap m.bed va len
  let data := s.bufRead m.bed va len
  let s := s.bufTouch m.bed va len
  let s := s.poisonRead m.bed bad
  let extra := BitVec.ofNat 128 (map * 2 ^ 64)
  s.mrAnswer m { r with offset := m.offset, length := len, poison := bad, extra := extra, data := data }
    (if bad then Mr.poisoned else Mr.ok)

/-! ## Requests of an export's queue (R386 to R392, R399) -/

def mrLen (m : MrMsg) : Nat := m.length
/-- OP, operator and type, and source offset of MR_OP (R395). -/
def mrOp (m : MrMsg) : Nat := m.extra.toNat % 256
def mrReduceOp (m : MrMsg) : Nat := m.extra.toNat / 256 % 4
def mrReduceTyp (m : MrMsg) : Nat := m.extra.toNat / 1024 % 4
def mrSrc (m : MrMsg) : Nat := m.extra.toNat / 2 ^ 64

/-- An MR_OP that has a source within the export. -/
def mrHasSrc (m : MrMsg) : Bool := mrOp m != 0

/-- The spans of an export that a request touches. -/
def reqSpans (q : ExpReq) : List (Nat × Nat) :=
  match q.typ with
  | .op => (q.m.offset, q.m.length) :: (if mrHasSrc q.m then [(mrSrc q.m, q.m.length)] else [])
  | .pubRead => match q.range with
    | some r => [(r.1 + q.m.offset, q.m.length)]
    | none => []
  | _ => [(q.m.offset, q.m.length)]

/-- Two spans overlap. -/
def spanMeets (a b : Nat × Nat) : Bool := decide (a.1 < b.1 + b.2) && decide (b.1 < a.1 + a.2)

/-- A request must wait for an earlier one: their ranges overlap, or both publish one name (R389, R398). A writeback waits for
none: an earlier request of its lines may wait for just this writeback (R392, log entry 41). -/
def reqAfter (a b : ExpReq) : Bool :=
  (b.typ != .writeback && (reqSpans a).any fun x => (reqSpans b).any fun y => spanMeets x y) ||
  (a.typ == .publish && b.typ == .publish && a.m.target == b.m.target)

/-- The lines that a request must recall before it is served: those of its spans that another node holds (R391). -/
def reqRecalls (e : Export) (q : ExpReq) : List (Nat × Nat) :=
  match q.typ with
  | .read | .write | .acquire | .op | .pubRead =>
    List.flatten ((reqSpans q).map fun x => (heldIn e x.1 x.2).filter fun h => h.2 != q.m.sender)
  | _ => []

/-- A span is current under a name, or bound to a request in flight (R399). -/
def State.spanPublished (s : State) (e : Export) (x : Nat × Nat) : Bool :=
  (s.exp.names.any fun n => n.bed == e.bed && n.ix == e.ix && spanMeets x (n.offset, n.length)) ||
  (e.queue.any fun q => q.range.any fun r => spanMeets x (r.1, r.2.1))

/-- A copy of the Bed's own from or to another node is at work on a span of an export. -/
def State.copyAt (s : State) (e : Export) (x : Nat × Nat) : Bool :=
  s.exp.copies.any fun c => c.bed == e.bed && (bufRanges c.d).any fun r => spanMeets r (e.start + x.1, x.2)

/-- A request may be served now: no earlier one stands before it, nothing is to recall, no change of its name is under way, and
no line it acquires is in use by a copy of the Bed's own (R391). -/
def State.mayServe (s : State) (e : Export) (before : List ExpReq) (q : ExpReq) : Bool :=
  (before.all fun p => !reqAfter p q) && (reqRecalls e q).isEmpty &&
  !(q.typ == .acquire && (reqSpans q).any fun x => s.copyAt e x) &&
  !(q.typ == .publish && s.exp.busy.contains (e.bed, q.m.target))

/-- The first request that may be served: its place. -/
def State.firstServed (s : State) (e : Export) : List ExpReq → List ExpReq → Option Nat
  | _, [] => none
  | before, q :: r => if s.mayServe e before q then some before.length else s.firstServed e (before ++ [q]) r

/-- The requests that wait for nothing but a recall. -/
def recallers (e : Export) : List ExpReq → List ExpReq → List (Nat × Nat)
  | _, [] => []
  | before, q :: r =>
    (if before.all fun p => !reqAfter p q then reqRecalls e q else []) ++ recallers e (before ++ [q]) r

/-- A write of a node is refused: it holds a line itself, or the range is published (R391, R399). -/
def State.writeRefused (s : State) (e : Export) (m : MrMsg) (x : Nat × Nat) : Bool :=
  (heldIn e x.1 x.2).any (fun h => h.2 == m.sender) || s.spanPublished e x

/-- Write data that a message carries; with POISON, its lines keep poison (log entry 41). -/
def State.mrStore (s : State) (bed va : Nat) (m : MrMsg) (bs : List Byte) : State :=
  let s := s.bufWrite bed va bs
  if m.poison then (lineVas va bs.length).foldl (fun s l => s.poisonVa bed l) s else s

/-- MR_WRITE. -/
def State.serveWrite (s : State) (e : Export) (m : MrMsg) : State :=
  if s.writeRefused e m (m.offset, m.length) then s.mrRefuse m Mr.readOnly
  else (s.mrStore e.bed (e.start + m.offset) m (m.data.take m.length)).mrAnswer m mrEmpty Mr.ok

/-- The lines of an aligned span. -/
def spanLines (x : Nat × Nat) : List Nat := (List.range (x.2 / 64)).map fun i => x.1 / 64 + i

/-- MR_ACQUIRE. -/
def State.serveAcquire (s : State) (e : Export) (m : MrMsg) : State :=
  if s.spanPublished e (m.offset, m.length) then s.mrRefuse m Mr.readOnly
  else
    let ls := spanLines (m.offset, m.length)
    let s := s.updExport e.bed e.ix fun e =>
      { e with held := ls.map (fun l => (l, m.sender)) ++ e.held.filter fun h => !ls.contains h.1 }
    s.mrData m (e.start + m.offset) m.length mrEmpty

/-- Note the lines that a writeback returns while a recall of them is not answered (R392). -/
def Recall.note (ls : List Nat) (r : Recall) : Recall :=
  { r with back := r.back ++ ls.filter fun l => decide (r.line ≤ l) && decide (l < r.line + r.count) }

/-- MR_WRITEBACK: the sender must hold the lines (log entry 41). KEEP keeps them, unless a recall crossed (R392). -/
def State.serveWriteback (s : State) (e : Export) (m : MrMsg) : State :=
  let ls := spanLines (m.offset, m.length)
  if !(ls.all fun l => e.held.contains (l, m.sender)) then s.mrRefuse m Mr.readOnly
  else
    let s := if m.clean then s else s.mrStore e.bed (e.start + m.offset) m (m.data.take m.length)
    let s := s.updExport e.bed e.ix fun e =>
      { e with held := e.held.filter fun h => !ls.contains h.1 || (m.keep && !e.crossed.contains h.1)
               crossed := e.crossed.filter fun l => !ls.contains l
               recalls := e.recalls.map fun r => if r.node = m.sender then r.note ls else r }
    s.mrAnswer m mrEmpty Mr.ok

/-- MR_OP (R395, R396); what it returns stands in OFFSET (log entry 41). -/
def State.serveOp (s : State) (e : Export) (m : MrMsg) : State :=
  let a := e.start + m.offset
  let b := e.start + mrSrc m
  let done := fun (r : State × Bool) (res : Nat) =>
    r.1.mrAnswer m { mrEmpty with offset := res, poison := r.2 } (if r.2 then Mr.poisoned else Mr.ok)
  if mrOp m = 2 then
    let r := s.opCompare e.bed a b m.length
    done (s.poisonRead e.bed r.2, r.2) r.1
  else if s.writeRefused e m (m.offset, m.length) then s.mrRefuse m Mr.readOnly
  else match mrOp m with
    | 0 => done (s.bufWrite e.bed a (fillBytes (leBytes 8 (mrSrc m)) m.length), false) 0
    | 1 => done (s.opCopy e.bed a b m.length) m.length
    | _ => done (s.opReduce e.bed a b m.length (mrReduceOp m) (mrReduceTyp m)) 0

/-! ## Published names (R398 to R400) -/

/-- A published name of a Bed. -/
def State.pubName? (s : State) (bed : Nat) (name : W32) : Option PubName :=
  s.exp.names.find? fun n => n.bed == bed && n.name == name

/-- What a publish comes to. -/
inductive PubVerdict where
  | accept | same
  | refuse (st code : Nat)
  deriving DecidableEq, Repr

/-- A publish against the current binding. -/
def pubVerdict (cur : Option PubName) (v : W32) (dig : W128) : PubVerdict :=
  match cur with
  | none => .accept
  | some n =>
    if n.version.toNat < v.toNat then .accept
    else if v = n.version then (if dig = n.digest then .same else .refuse St.conflict Mr.conflict)
    else .refuse St.versionRefused Mr.versionRefused

/-- The journal entry of a publish (0) or a withdrawal (1), its origin apart. -/
def State.pubEntry (s : State) (bed ix wd : Nat) (name v : W32) (old new : W128) (refused : Bool) : JEntry :=
  { s.jDev 0x0007 bed (wd + ix * 256) (name.toNat + v.toNat * 2 ^ 32) old new with refused := refused }

/-- A binding becomes current. -/
def State.bindName (s : State) (n : PubName) : State :=
  let l := s.exp.names.filter fun x => !(x.bed == n.bed && x.name == n.name)
  { s with exp := { s.exp with names := n :: l } }

/-- A name is no longer busy. -/
def State.pubFree (s : State) (bed : Nat) (name : W32) : State :=
  { s with exp := { s.exp with busy := s.exp.busy.filter fun b => b != (bed, name) } }

/-- A name that a message of an importer publishes: the change is the device's own for the journal's timing (R88). -/
def State.servePublish (s : State) (e : Export) (m : MrMsg) : State :=
  let cur := s.pubName? e.bed m.target
  let old : W128 := match cur with | some n => n.digest | none => 0
  let j : Bool → JEntry := fun refused =>
    { s.pubEntry e.bed e.ix 0 m.target m.versionNo old m.extra refused with originType := 3, originId := m.sender }
  match pubVerdict cur m.versionNo m.extra with
  | .same => s.mrAnswer m { mrEmpty with versionNo := m.versionNo } Mr.ok
  | .refuse _ code =>
    let s := (s.setStatus F.EXP_STATUS_PUB_REFUSED e.bed).journal (j true)
    s.mrRefuse m code
  | .accept =>
    if cur.isNone && decide (256 ≤ (s.exp.names.filter fun n => n.bed == e.bed).length) then s.mrRefuse m Mr.range else
    let n : PubName :=
      { bed := e.bed, name := m.target, ix := e.ix, offset := m.offset, length := m.length, version := m.versionNo, digest := m.extra }
    ((s.journal (j false)).bindName n).mrAnswer m { mrEmpty with versionNo := m.versionNo } Mr.ok

/-- The Bed's own publish is decided (R398): a change waits until its entry is durable. -/
def State.servePublishCmd (s : State) (e : Export) (m : MrMsg) (d : Desc) : State :=
  let cur := s.pubName? e.bed m.target
  let old : W128 := match cur with | some n => n.digest | none => 0
  let j : Bool → JEntry := fun refused =>
    { s.pubEntry e.bed e.ix 0 m.target m.versionNo old m.extra refused with
      originType := (jOrigin d).1, originId := (jOrigin d).2 }
  match pubVerdict cur m.versionNo m.extra with
  | .same => s.complete d St.ok m.versionNo.toNat
  | .refuse st _ => (s.setStatus F.EXP_STATUS_PUB_REFUSED e.bed).submitCmd d [j true] [] (.complete d st 0)
  | .accept =>
    if cur.isNone && decide (256 ≤ (s.exp.names.filter fun n => n.bed == e.bed).length) then s.complete d St.noResource else
    let s := if s.keep.ready then { s with exp := { s.exp with busy := (e.bed, m.target) :: s.exp.busy } } else s
    s.submitCmd d [j false] [] (.cmd d (leBytes 16 m.extra.toNat) 0)

/-- Serve one request; a stopped serving region restarts (R32). -/
def State.serveReq (s : State) (e : Export) (q : ExpReq) : State :=
  let s := s.clockRestart e.region
  match q.typ, q.who with
  | .read, _ => s.mrData q.m (e.start + q.m.offset) q.m.length mrEmpty
  | .write, _ => s.serveWrite e q.m
  | .acquire, _ => s.serveAcquire e q.m
  | .writeback, _ => s.serveWriteback e q.m
  | .op, _ => s.serveOp e q.m
  | .publish, .node => s.servePublish e q.m
  | .publish, .fn d => s.servePublishCmd e q.m d
  | .pubRead, _ => match q.range with
    | some r => s.mrData q.m (e.start + r.1 + q.m.offset) q.m.length { mrEmpty with versionNo := r.2.2 }
    | none => s
  | _, _ => s

/-- Serve what may be served, in acceptance order where ranges overlap; `n` bounds the requests. -/
def State.serveExport (bed ix : Nat) : Nat → State → State
  | 0, s => s
  | n + 1, s =>
    match s.export? bed ix with
    | none => s
    | some e =>
      match s.firstServed e [] e.queue with
      | none => s.recallLines e (recallers e [] e.queue).eraseDups
      | some i =>
        match e.queue[i]? with
        | none => s
        | some q =>
          let s := s.serveReq e q
          State.serveExport bed ix n (s.updExport bed ix fun e => { e with queue := e.queue.eraseIdx i })

/-! ## Holder loss and revocation (R393, R394) -/

/-- Lines of an export become poison and are held no longer (R393). -/
def State.poisonHeld (s : State) (e : Export) (p : Nat × Nat → Bool) : State × Nat :=
  let ls := e.held.filter p
  let s := ls.foldl (fun s h => s.loseLine e.bed (e.start + 64 * h.1)) s
  let s := s.updExport e.bed e.ix fun e =>
    { e with held := e.held.filter fun h => !p h
             crossed := e.crossed.filter fun l => !(ls.any fun h => h.1 == l) }
  (s.bump .EXP_LINES_POISONED e.bed ls.length, ls.length)

/-- The names of an export. -/
def State.namesOf (s : State) (e : Export) : List PubName := s.exp.names.filter fun n => n.bed == e.bed && n.ix == e.ix

/-- The names of an export go (R394, R399). By an EXP_REVOKE each is withdrawn with a journal entry; a reset makes none (R88). -/
def State.dropNames (s : State) (e : Export) (d : Option Desc) : State :=
  let s := match d with
    | none => s
    | some d => (s.namesOf e).foldl (fun (s : State) (n : PubName) =>
        s.journal { s.pubEntry e.bed e.ix 1 n.name n.version n.digest 0 false with
          originType := (jOrigin d).1, originId := (jOrigin d).2 }) s
  { s with exp := { s.exp with names := s.exp.names.filter fun n => !(n.bed == e.bed && n.ix == e.ix) } }

/-- A publish by EXP_PUBLISH for the export waits for the keep store. -/
def State.pubWaits (s : State) (e : Export) : Bool :=
  s.keep.queue.any fun i => (effDesc i.eff).any fun d =>
    d.opcode == 0x0B07#16 && dBed d == some e.bed && BitVec.ofNat 32 (dArg d 56 4) == expHandle e

/-- The revocation point: names are withdrawn, each with a journal entry; from now on the export takes no request (R394). -/
def State.placePoint (s : State) (e : Export) (d : Desc) : State :=
  (s.dropNames e (some d)).updExport e.bed e.ix fun e => { e with point := true, recalls := [] }

/-- An export is gone: what a request before the point has published is withdrawn too, its directory is released, its index is
free (R394). -/
def State.endExport (s : State) (e : Export) (d : Option Desc) : State :=
  let s := s.dropNames e d
  let s := { s with exp := { s.exp with exports := s.exp.exports.filter fun x => !(x.bed == e.bed && x.ix == e.ix) } }
  s.giveBackAll e.dir

/-- The EXP_REVOKE commands of an export complete (R394). -/
def State.endRevokes (s : State) (e : Export) (d : Desc) : State :=
  (d :: e.revokes).foldl (fun s x => s.complete x St.ok e.poisoned) s

/-- A revocation goes on: an orderly one places its point once no line is held, and the command completes once every request
accepted before has been answered (R394). -/
def State.revokeOn (s : State) (bed ix : Nat) : State :=
  match s.export? bed ix with
  | none => s
  | some e =>
    match e.revoke with
    | none => s
    | some d =>
      if !e.point && !e.held.isEmpty then s.recallLines e e.held else
      let s := if e.point then s else s.placePoint e d
      if e.queue.isEmpty && !s.pubWaits e then (s.endExport e (some d)).endRevokes e d else s

/-- Whatever an event has freed in an export goes on. -/
def State.settleExport (s : State) (bed ix : Nat) : State :=
  match s.export? bed ix with
  | none => s
  | some e => (State.serveExport bed ix (e.queue.length + 1) s).revokeOn bed ix

/-- A holder is lost for an export (R393): the lines poisoned. -/
def State.nodeLost (s : State) (bed ix node : Nat) : State × Nat :=
  match s.export? bed ix with
  | none => (s, 0)
  | some e =>
    let r := s.poisonHeld e fun h => h.2 == node
    let s := r.1.updExport bed ix fun e =>
      { e with lost := node :: e.lost.filter (fun n => n != node), recalls := e.recalls.filter fun x => x.node != node
               poisoned := e.poisoned + (if e.revoke.isSome then r.2 else 0) }
    ((s.setStatus F.EXP_STATUS_HOLDER_LOST bed).settleExport bed ix, r.2)

/-! ## Accepting requests (R386, R388) -/

/-- The handle of an index was in use before and is not live (R386, R394). -/
def State.wasExport (s : State) (bed ix gen : Nat) : Bool :=
  match s.exp.gens.find? fun g => g.1 == (bed, ix) with
  | some g => decide (gen ≤ g.2)
  | none => false

/-- The export that a handle names, or why there is none. -/
def State.exportOf (s : State) (bed : Nat) (h : W32) : Except Nat Export :=
  let ix := h.toNat % 256
  let gen := h.toNat / 256
  match (s.export? bed ix).filter fun e => e.gen == gen with
  | some e => if e.point then .error Mr.revoked else .ok e
  | none => if s.wasExport bed ix gen then .error Mr.revoked else .error Mr.notFound

/-- The export of a publish by a message: that of the name's binding, else the lowest one that the sender may write (log entry
42). -/
def State.publishExport (s : State) (m : MrMsg) : Except Nat Export :=
  let live := (List.range 256).filterMap fun i => (s.export? m.bed i).filter fun e => !e.point
  match s.pubName? m.bed m.target with
  | some n => match s.export? m.bed n.ix with | some e => .ok e | none => .error Mr.notFound
  | none =>
    match live.find? fun e => e.importers.contains m.sender && e.mode != 0 with
    | some e => .ok e
    | none => match live with | e :: _ => .ok e | [] => .error Mr.notFound

/-- The export that a request is for. -/
def State.requestExport (s : State) (typ : MrType) (m : MrMsg) : Except Nat Export :=
  match typ with
  | .publish => s.publishExport m
  | .pubRead => match s.pubName? m.bed m.target with
    | some n => match s.export? m.bed n.ix with | some e => .ok e | none => .error Mr.notFound
    | none => .error Mr.notFound
  | _ => s.exportOf m.bed m.target

/-- The range of a request lies where it may, within the limits of R385. -/
def rangeOk (e : Export) (typ : MrType) (m : MrMsg) (pub : Option (Nat × Nat × W32)) : Bool :=
  match typ with
  | .pubRead => pub.any fun r => decide (m.offset + m.length ≤ r.2.1) && decide (m.length ≤ 1048576)
  | .op => decide (m.offset + m.length ≤ e.len) && decide (m.length ≤ 1048576) &&
      (!mrHasSrc m || decide (mrSrc m + m.length ≤ e.len))
  | .acquire | .writeback => decide (m.offset + m.length ≤ e.len) && decide (m.length ≤ 4096)
  | .publish => decide (m.offset + m.length ≤ e.len)
  | _ => decide (m.offset + m.length ≤ e.len) && decide (m.length ≤ 1048576)

/-- The checks of R388 in their order. -/
def requestCode (e : Export) (typ : MrType) (m : MrMsg) (key : Option Nat) (pub : Option (Nat × Nat × W32)) : Option Nat :=
  if key.any fun k => k != m.bed then some Mr.notImporter
  else if !e.importers.contains m.sender then some Mr.notImporter
  else if e.lost.contains m.sender then some Mr.lost
  else if !rangeOk e typ m pub then some Mr.range
  else if e.mode = 0 && (typ == .write || typ == .acquire || typ == .op || typ == .publish) then some Mr.readOnly
  else if (typ == .acquire || typ == .writeback) && (e.mode != 2 || m.offset % 64 != 0 || m.length % 64 != 0) then some Mr.range
  else none

/-- A request arrives, under a key of the Bed `key` or in the clear. -/
def State.mrRequest (s : State) (typ : MrType) (m : MrMsg) (key : Option Nat) : State :=
  match s.requestExport typ m with
  | .error code => s.mrRefuse m code
  | .ok e =>
    let pub : Option (Nat × Nat × W32) :=
      if typ = .pubRead then (s.pubName? m.bed m.target).map fun n => (n.offset, n.length, n.version) else none
    match requestCode e typ m key pub with
    | some code => s.mrRefuse m code
    | none =>
      let s := s.bump64 .EXP_REQS_LO .EXP_REQS_HI e.bed
      let q : ExpReq := { typ := typ, m := m, range := pub }
      (s.updExport e.bed e.ix fun e => { e with queue := e.queue ++ [q] }).settleExport e.bed e.ix

/-- MR_RECALL_DATA (R392): its lines come back, or stay HELD until the writeback that the recall crossed has arrived. One of a
lost node is refused (R393). -/
def State.mrRecallData (s : State) (m : MrMsg) : State :=
  match s.exportOf m.bed m.target with
  | .error _ => s
  | .ok e =>
    if e.lost.contains m.sender then s.mrRefuse m Mr.lost else
    match e.recalls.find? fun r => r.id == m.reqId && r.node == m.sender with
    | none => s
    | some r =>
      let mine := fun (h : Nat × Nat) => h.2 == m.sender && decide (r.line ≤ h.1) && decide (h.1 < r.line + r.count)
      let lines := e.held.filter mine
      let drop := fun (e : Export) => { e with recalls := e.recalls.filter fun x => x.id != r.id }
      if m.noLine then
        (s.updExport e.bed e.ix fun e =>
          { drop e with
            held := e.held.filter fun h => !(mine h && r.back.contains h.1)
            crossed := (lines.map fun h => h.1).filter (fun l => !r.back.contains l) ++ e.crossed }).settleExport e.bed e.ix
      else
        let s := if m.clean then s else lines.foldl (fun s h =>
          let va := e.start + 64 * h.1
          let off := 64 * h.1 - m.offset
          if 64 * h.1 < m.offset then s else
            let s := s.bufWrite e.bed va ((m.data.drop off).take 64)
            if m.poison && bitSet (m.extra.toNat / 2 ^ 64) (off / 64) then s.poisonVa e.bed va else s) s
        (s.updExport e.bed e.ix fun e =>
          { drop e with held := e.held.filter fun h => !mine h }).settleExport e.bed e.ix

/-- EXP_RECALL_TIMEOUT; 0 behaves as 48 (R403). -/
def State.recallTimeoutFt (s : State) (bed : Nat) : Nat :=
  if s.rdN .EXP_RECALL_TIMEOUT bed = 0 then 48 else s.rdN .EXP_RECALL_TIMEOUT bed

/-- RECALL_TIMEOUT (R393): the holder of an unanswered recall is lost. -/
def State.recallTimeout (s : State) (bed : Nat) (id : W32) : State :=
  match s.exp.exports.find? fun e => e.bed == bed && e.recalls.any fun r => r.id == id with
  | none => s
  | some e =>
    match e.recalls.find? fun r => r.id == id with
    | none => s
    | some r => if ftReached s.now (ftAdd r.since (s.recallTimeoutFt bed)) then (s.nodeLost bed e.ix r.node).1 else s

/-! ## Commands on exports (R384, R394, R398, R402) -/

/-- The importers that a descriptor names. -/
def importersOf (d : Desc) : List Nat := (List.range (min 6 (dArg d 49 1))).map fun k => dArg d (52 + 2 * k) 2 % 512

/-- The generation of the next use of an index (R386). -/
def State.nextGen (s : State) (bed ix : Nat) : Nat :=
  match s.exp.gens.find? fun g => g.1 == (bed, ix) with
  | some g => (g.2 + 1) % 2 ^ 24
  | none => 0

/-- EXP_CREATE. -/
def State.expCreate (s : State) (d : Desc) : State :=
  let bed := (dBed d).getD 0
  let start := d.addr0.toNat % 2 ^ 48
  let len := dLen0 d
  let mine := s.exp.exports.filter fun e => e.bed == bed
  if (mine.any fun e => spanMeets (start, len) (e.start, e.len)) then s.complete d rangeOverlap
  else if 1024 ≤ s.exp.exports.length || 6 < dArg d 49 1 then s.complete d St.noResource
  else
    match (List.range 256).find? fun i => mine.all fun e => e.ix != i with
    | none => s.complete d St.noResource
    | some ix =>
      let mode := dArg d 48 1 % 4
      let dir := if mode = 2 then s.takeObject bed (len / 32) (s.bedOrder bed) else some ([], s)
      match dir with
      | none => s.complete d (s.roomRefusal bed (len / 32))
      | some (near, s) =>
        let region := match s.bufPa bed start with | some pa => paRegion pa | none => (s.regionsOf bed).headD 0
        let gen := s.nextGen bed ix
        let e : Export :=
          { bed := bed, ix := ix, gen := gen, start := start, len := len, mode := mode, importers := importersOf d
            region := region, dir := near }
        let gens := ((bed, ix), gen) :: s.exp.gens.filter fun g => g.1 != (bed, ix)
        let s := { s with exp := { s.exp with exports := s.exp.exports ++ [e], gens := gens } }
        s.complete d St.ok (expHandle e).toNat

/-- The live export that a handle of a command names. -/
def State.cmdExport (s : State) (bed h : Nat) : Option Export :=
  match s.exportOf bed (BitVec.ofNat 32 h) with
  | .ok e => some e
  | .error _ => none

/-- EXP_REVOKE: one that reaches an export after its revocation point completes with EXTENT_REVOKED; a second one for an export
being revoked joins the first, and by mode 1 places the point (R394, log entry 42). -/
def State.expRevoke (s : State) (d : Desc) : State :=
  let bed := (dBed d).getD 0
  match s.exportOf bed (BitVec.ofNat 32 (dArg d 48 4)) with
  | .error code => s.complete d (if code = Mr.revoked then St.extentRevoked else St.notFound)
  | .ok e =>
    let s := match e.revoke with
      | none => s.updExport bed e.ix fun e => { e with revoke := some d, poisoned := 0 }
      | some _ => s.updExport bed e.ix fun e => { e with revokes := e.revokes ++ [d] }
    if dArg d 52 1 % 2 = 0 then s.settleExport bed e.ix
    else
      let r := s.poisonHeld e fun _ => true
      let s := r.1.updExport bed e.ix fun e => { e with poisoned := e.poisoned + r.2, recalls := [] }
      (s.placePoint e (e.revoke.getD d)).settleExport bed e.ix

/-- EXP_NODE_LOST. -/
def State.expNodeLost (s : State) (d : Desc) : State :=
  let bed := (dBed d).getD 0
  let node := dArg d 52 2 % 512
  if dArg d 48 4 = 0xFFFFFFFF then
    let ixs := (s.exp.exports.filter fun e => e.bed == bed).map fun e => e.ix
    let r := ixs.foldl (fun (a : State × Nat) ix => let x := a.1.nodeLost bed ix node; (x.1, a.2 + x.2)) (s, 0)
    r.1.complete d St.ok r.2
  else match s.cmdExport bed (dArg d 48 4) with
    | none => s.complete d St.notFound
    | some e => let r := s.nodeLost bed e.ix node; r.1.complete d St.ok r.2

/-- EXP_PUBLISH: the publish enters the export's queue (R386, R398). -/
def State.expPublish (s : State) (d : Desc) : State :=
  let bed := (dBed d).getD 0
  match s.exportOf bed (BitVec.ofNat 32 (dArg d 56 4)) with
  | .error code => s.complete d (if code = Mr.revoked then St.extentRevoked else St.notFound)
  | .ok e =>
    let va := d.addr0.toNat % 2 ^ 48
    if va < e.start || e.start + e.len < va + dLen0 d then s.complete d rangeOverlap else
      let dig := BitVec.ofNat 128 (leNat (s.readAddr d d.addr1 16))
      let m : MrMsg :=
        { sender := s.node, bed := bed, target := BitVec.ofNat 32 (dArg d 48 4), offset := va - e.start, length := dLen0 d
          versionNo := BitVec.ofNat 32 (dArg d 52 4), extra := dig }
      let q : ExpReq := { who := .fn d, typ := .publish, m := m }
      (s.updExport bed e.ix fun e => { e with queue := e.queue ++ [q] }).settleExport bed e.ix

/-- Whatever waited for a change of a name goes on. -/
def State.settleNamed (s : State) (bed : Nat) (name : W32) : State :=
  let es := s.exp.exports.filter fun e => e.bed == bed && e.queue.any fun q => q.typ == .publish && q.m.target == name
  es.foldl (fun s e => s.settleExport bed e.ix) s

/-- EXP_PUBLISH once durable. It was accepted before any revocation point that stands now, so it completes normally (R394). -/
def State.expPublishDone (s : State) (d : Desc) (dig : List Byte) : State :=
  let bed := (dBed d).getD 0
  let name := BitVec.ofNat 32 (dArg d 48 4)
  let v := BitVec.ofNat 32 (dArg d 52 4)
  let s := s.pubFree bed name
  let h := BitVec.ofNat 32 (dArg d 56 4)
  match (s.export? bed (h.toNat % 256)).filter fun e => expHandle e == h with
  | none => (s.complete d St.extentRevoked).settleNamed bed name
  | some e =>
    let n : PubName :=
      { bed := bed, name := name, ix := e.ix, offset := d.addr0.toNat % 2 ^ 48 - e.start, length := dLen0 d, version := v
        digest := BitVec.ofNat 128 (leNat dig) }
    (((s.bindName n).complete d St.ok v.toNat).settleExport bed e.ix).settleNamed bed name

/-- EXP_WITHDRAW. -/
def State.expWithdraw (s : State) (d : Desc) : State :=
  let bed := (dBed d).getD 0
  match s.pubName? bed (BitVec.ofNat 32 (dArg d 48 4)) with
  | none => s.complete d St.notFound
  | some n =>
    let j := { s.pubEntry bed n.ix 1 n.name n.version n.digest 0 false with
      originType := (jOrigin d).1, originId := (jOrigin d).2 }
    s.submitCmd d [j] [] (.cmd d [] n.version.toNat)

/-- EXP_WITHDRAW once durable. -/
def State.expWithdrawDone (s : State) (d : Desc) (v : Nat) : State :=
  let bed := (dBed d).getD 0
  let name := BitVec.ofNat 32 (dArg d 48 4)
  match s.pubName? bed name with
  | none => s.complete d St.notFound
  | some n =>
    let l := s.exp.names.filter fun x => !(x.bed == bed && x.name == name)
    (({ s with exp := { s.exp with names := l } }).complete d St.ok v).settleExport bed n.ix

/-- EXP_QUERY. -/
def State.expQuery (s : State) (d : Desc) : State :=
  let bed := match dBed d with | some b => b | none => dArg d 52 1
  if !s.bedConfigured bed then s.complete d St.bedAbsent else
  match s.cmdExport bed (dArg d 48 4) with
  | none => s.complete d St.notFound
  | some e => s.complete d St.ok (e.mode + e.importers.length * 256 + e.held.length % 2 ^ 32 * 65536)

/-! ## Near-memory commands (R395 to R397, R402) -/

/-- The status of a near-memory command that met poison (R396). -/
def poisonSt (bad : Bool) : Nat := if bad then St.poisoned else St.ok

/-- MEM_FILL. -/
def State.memFill (s : State) (d : Desc) : State :=
  let bed := (dBed d).getD 0
  (s.bufWrite bed (d.addr0.toNat % 2 ^ 48) (fillBytes (leBytes 8 (dArg d 56 8)) (dLen0 d))).complete d St.ok

/-- MEM_COMPARE. -/
def State.memCompare (s : State) (d : Desc) : State :=
  let bed := (dBed d).getD 0
  let a := d.addr0.toNat % 2 ^ 48
  let b := d.addr1.toNat % 2 ^ 48
  let r := s.opCompare bed a b (dLen0 d)
  (((s.bufTouch bed a (dLen0 d)).bufTouch bed b (dLen0 d)).poisonRead bed r.2).complete d (poisonSt r.2) r.1

/-- MEM_REDUCE. -/
def State.memReduce (s : State) (d : Desc) : State :=
  let bed := (dBed d).getD 0
  let r := s.opReduce bed (d.addr0.toNat % 2 ^ 48) (d.addr1.toNat % 2 ^ 48) (dLen0 d) (dArg d 48 1) (dArg d 49 1)
  r.1.complete d (poisonSt r.2)

/-- The node, the handle and the offset of the remote side of MEM_COPY, and whether it is the destination. -/
def copyNode (d : Desc) : Nat := dArg d 50 2 % 512
def copyOut (d : Desc) : Bool := dArg d 48 1 == 2
/-- The local side of a remote copy. -/
def copyLocal (d : Desc) : Nat := (if copyOut d then d.addr1.toNat else d.addr0.toNat) % 2 ^ 48

/-- Pieces of at most 64 lines of the remote range (log entry 41); `n` bounds them. -/
def readPieces (roff : Nat) : Nat → Nat → Nat → List CopyPiece
  | 0, _, _ => []
  | n + 1, off, left =>
    if left = 0 then [] else
      let k := min left (4096 - (roff + off) % 64)
      { off := off, len := k, poison := false } :: readPieces roff n (off + k) (left - k)

/-- The pieces of a copy to another node: runs of local lines that all carry poison, or none do, up to 4 KiB. -/
def State.writePieces (s : State) (bed va len : Nat) : List CopyPiece :=
  (lineVas va len).foldl (fun (ps : List CopyPiece) l =>
    let lo := max l va
    let hi := min (l + 64) (va + len)
    let bad := s.vaPoison bed l
    match ps.getLast? with
    | some p =>
      if p.poison == bad && p.len + (hi - lo) ≤ 4096 then ps.dropLast ++ [{ p with len := p.len + (hi - lo) }]
      else ps ++ [{ off := lo - va, len := hi - lo, poison := bad }]
    | none => [{ off := lo - va, len := hi - lo, poison := bad }]) []

/-- Change a remote copy. -/
def State.updCopy (s : State) (d : Desc) (f : RemoteCopy → RemoteCopy) : State :=
  { s with exp := { s.exp with copies := updFirst (fun c => c.d == d) f s.exp.copies } }

/-- A remote copy leaves: what waited for it in an export goes on. -/
def State.dropCopy (s : State) (c : RemoteCopy) : State :=
  let s : State := { s with exp := { s.exp with copies := s.exp.copies.filter fun x => x.d != c.d } }
  ((s.exp.exports.filter fun e => e.bed == c.bed).map fun e => e.ix).foldl (fun s ix => s.settleExport c.bed ix) s

/-- Send the message of one piece. The Bed of the remote export is taken to bear the number of the own Bed (log entry 42). -/
def State.sendPiece (s : State) (c : RemoteCopy) (p : CopyPiece) : State :=
  let d := c.d
  let id := s.exp.nextReq
  let data := if copyOut d then s.bufRead c.bed (copyLocal d + p.off) p.len else []
  let m : MrMsg :=
    { sender := s.node, bed := c.bed, target := BitVec.ofNat 32 (dArg d 52 4), reqId := id, offset := dArg d 56 8 + p.off
      length := p.len, poison := p.poison, data := data }
  let s := { s with exp := { s.exp with nextReq := id + 1 } }
  let s := s.updCopy d fun c => { c with left := c.left.drop 1, out := c.out ++ [(id, p, s.now)] }
  s.emit { dest := copyNode d, bed := some c.bed, msg := .mr (if copyOut d then .write else .read) m }

/-- Issue pieces while fewer than eight are out. -/
def State.issueCopy (d : Desc) : Nat → State → State
  | 0, s => s
  | n + 1, s =>
    match s.exp.copies.find? fun c => c.d == d with
    | none => s
    | some c =>
      match c.left with
      | [] => s
      | p :: _ => if 8 ≤ c.out.length then s else State.issueCopy d n (s.sendPiece c p)

/-- A remote copy ends once nothing is left (R397). -/
def State.copyOn (s : State) (d : Desc) : State :=
  let s := State.issueCopy d 8 s
  match s.exp.copies.find? fun c => c.d == d with
  | none => s
  | some c =>
    if c.left.isEmpty && c.out.isEmpty then (s.dropCopy c).complete d (poisonSt c.poison) (c.copied % 2 ^ 32) else s

/-- A remote copy fails: what was copied stays (R397). -/
def State.copyFail (s : State) (c : RemoteCopy) (st code : Nat) : State :=
  ((s.dropCopy c).setStatus F.EXP_STATUS_REMOTE_FAIL c.bed).complete c.d st (code + c.copied % 2 ^ 32 * 2 ^ 32)

/-- MEM_COPY (R395, R397). -/
def State.memCopy (s : State) (d : Desc) : State :=
  let bed := (dBed d).getD 0
  let len := dLen0 d
  if dArg d 48 1 % 4 = 0 then
    let r := s.opCopy bed (d.addr0.toNat % 2 ^ 48) (d.addr1.toNat % 2 ^ 48) len
    r.1.complete d (poisonSt r.2) len
  else
    let ps := if copyOut d then s.writePieces bed (copyLocal d) len else readPieces (dArg d 56 8) (len / 4032 + 2) 0 len
    let c : RemoteCopy := { d := d, bed := bed, left := ps, poison := ps.any fun p => p.poison }
    (({ s with exp := { s.exp with copies := s.exp.copies ++ [c] } }).bufTouch bed (copyLocal d) len).copyOn d

/-- MR_RESP (R397): the response to a piece of a MEM_COPY; any other is discarded. -/
def State.mrResp (s : State) (m : MrMsg) : State :=
  match s.exp.copies.find? fun c => copyNode c.d == m.sender && c.out.any fun o => o.1 == m.reqId with
  | none => s
  | some c =>
    match c.out.find? fun o => o.1 == m.reqId with
    | none => s
    | some o =>
      if m.code != Mr.ok && m.code != Mr.poisoned then
        s.copyFail c (if m.code = Mr.revoked then St.extentRevoked else remoteRefused) m.code
      else
        let p := o.2.1
        let va := copyLocal c.d + p.off
        let roff := dArg c.d 56 8 + p.off
        let bad := m.code == Mr.poisoned || m.poison
        let s := if copyOut c.d then s else s.bufWrite c.bed va (m.data.take p.len)
        let hit := fun (l : Nat) =>
          let lo := max l va
          let hi := min (l + 64) (va + p.len)
          (lineVas (roff + (lo - va)) (hi - lo)).any fun r => bitSet (m.extra.toNat / 2 ^ 64) (r / 64 - roff / 64)
        let s := if bad && !copyOut c.d then ((lineVas va p.len).filter hit).foldl (fun s l => s.poisonVa c.bed l) s else s
        let s := s.updCopy c.d fun c =>
          { c with out := c.out.filter fun o => o.1 != m.reqId, copied := c.copied + p.len, poison := c.poison || bad }
        s.copyOn c.d

/-- REMOTE_COPY_TIMEOUT (R397). -/
def State.remoteCopyTimeout (s : State) (id : W32) : State :=
  match s.exp.copies.find? fun c => c.out.any fun o => o.1 == id with
  | none => s
  | some c =>
    match c.out.find? fun o => o.1 == id with
    | none => s
    | some o =>
      if ftReached s.now (ftAdd o.2.2 (s.recallTimeoutFt c.bed)) then s.copyFail c remoteTimeout 0 else s

/-! ## Placement of hot and cold data (R401) -/

/-- The regions that a granule of a hint may move to: those of the hint's order before its own. -/
def State.moveTargets (s : State) (bed va : Nat) (order : List Nat) : List Nat :=
  match s.granuleAt bed va with
  | none => []
  | some g => order.takeWhile fun r => r != paRegion g.pa

/-- The moves of a hinted range: under HOT each mapped granule starts at the next region of the turn. -/
def State.hintMoves (s : State) (bed hint : Nat) (vas : List Nat) : List (Nat × Nat × List Nat) :=
  let rs := s.regionsOf bed
  let mapped := vas.filter fun va => (s.granuleAt bed va).isSome
  (mapped.zipIdx.map fun x =>
    let turn := if hint = 1 then rs.getD (x.2 % max 1 rs.length) 0 else 0
    (bed, x.1, s.moveTargets bed x.1 (s.hintOrder bed hint turn))).filter fun m => !m.2.2.isEmpty

/-- MEM_HINT. -/
def State.memHint (s : State) (d : Desc) : State :=
  let bed := (dBed d).getD 0
  let h : MemHint := { bed := bed, start := d.addr0.toNat % 2 ^ 48, len := dLen0 d, hint := dArg d 48 1 % 4 }
  let kept := s.exp.hints.filter fun x => !(x.bed == bed && decide (h.start ≤ x.start) && decide (x.start + x.len ≤ h.start + h.len))
  let s := { s with exp := { s.exp with hints := h :: kept } }
  if dArg d 49 1 % 2 = 0 then s.complete d St.ok 0
  else
    let ms := s.hintMoves bed h.hint (s.granuleVas bed h.start h.len)
    let old := s.exp.migrate.filter fun m => !(m.1 == bed && decide (h.start ≤ m.2.1) && decide (m.2.1 < h.start + h.len))
    ({ s with exp := { s.exp with migrate := old ++ ms } }).complete d St.ok ms.length

/-- A granule takes another frame: its bytes and its poison go with it (R401). -/
def State.retranslate (s : State) (g : Granule) (pa : Nat) : State :=
  let n := s.granule g.bed
  let bad := s.mem.poison.filter fun l => decide (g.pa ≤ 64 * l) && decide (64 * l < g.pa + n)
  let s := s.copyFrame g.pa pa n
  let ps := bad.map (fun l => l - g.pa / 64 + pa / 64) ++ s.mem.poison
  let gs := updFirst (fun x => x.bed == g.bed && x.va == g.va) (fun x => { x with pa := pa }) s.mem.granules
  let es := updAll (fun (e : Export) => e.bed == g.bed && e.start == g.va) (fun e => { e with region := paRegion pa })
    s.exp.exports
  ({ s with mem := { s.mem with poison := ps, granules := gs }, exp := { s.exp with exports := es } }).giveBack g.pa

/-- GRANULE_MIGRATE: the next granule to move of a Bed. -/
def State.granuleMigrate (s : State) (bed : Nat) : State :=
  match s.exp.migrate.find? fun m => m.1 == bed with
  | none => s
  | some m =>
    let s := { s with exp := { s.exp with migrate := s.exp.migrate.erase m } }
    match s.granuleAt bed m.2.1 with
    | none => s
    | some g =>
      match s.takeAlong bed .granules (s.granule bed) (m.2.2.filter fun r => r != paRegion g.pa) with
      | none => s
      | some x => x.2.retranslate g x.1

/-! ## Partition reset (R403) -/

/-- Every export of a Bed is revoked in mode 1 and its names are removed; copies, hints and moves end. -/
def State.dropExports (s : State) (bed : Nat) : State :=
  let ixs := (s.exp.exports.filter fun e => e.bed == bed).map fun e => e.ix
  let s : State := { s with exp := { s.exp with busy := s.exp.busy.filter fun b => b.1 != bed } }
  let s := ixs.foldl (fun s ix =>
    match s.export? bed ix with
    | none => s
    | some e =>
      let s := (s.poisonHeld e fun _ => true).1.dropNames e none
      let s := s.updExport bed ix fun e => { e with point := true, recalls := [], revoke := none }
      let s := State.serveExport bed ix (e.queue.length + 1) s
      s.endExport e none) s
  { s with exp := { s.exp with
      copies := s.exp.copies.filter fun c => c.bed != bed
      hints := s.exp.hints.filter fun h => h.bed != bed
      migrate := s.exp.migrate.filter fun m => m.1 != bed } }

end Sys2Proof.Machine
end

