-- ==== Sys2Proof/Machine/Exchange.lean ====
section
/-! DEFINITION. The layer exchange (R168 to R178): acceptance of a layer packet and of logits, the work of a part, its return,
and the abandonment of an entry that its partner leaves. -/

namespace Sys2Proof.Machine

/-! ## Entries in flight -/

/-- The entry of a session in flight. -/
def State.work? (s : State) (sid : W64) : Option Work := s.sch.work.find? fun w => w.sid == sid

/-- Change the entry of a session. -/
def State.updWork (s : State) (sid : W64) (f : Work → Work) : State :=
  { s with sch := { s.sch with work := updFirst (fun w => w.sid == sid) f s.sch.work } }

/-- The positions of an entry. -/
def workLen (w : Work) : Nat := w.toks.length

/-- A node is the step node or an accepted node of a partner group (R175). -/
def State.partner (s : State) (bed group node : Nat) : Bool :=
  (s.fget F.LX_GROUP_STEP_VALID bed group == 1 && s.fget F.LX_GROUP_STEP_NODE bed group == node) ||
  (List.range 3).any fun k =>
    let i := group * 3 + k
    (s.fget F.LX_GROUP_NODES_VALID_LO bed i == 1 && s.fget F.LX_GROUP_NODES_NODE_LO bed i == node) ||
    (s.fget F.LX_GROUP_NODES_VALID_HI bed i == 1 && s.fget F.LX_GROUP_NODES_NODE_HI bed i == node)

/-- A node may send for an entry: a node of the old group for an entry admitted before a regrouping, else of the group (R175,
R424). -/
def State.partnerFor (s : State) (p : Profile) (w : Option Work) (node : Nat) : Bool :=
  match w.bind fun w => s.oldGroup p.bed p.partnerGroup w.step with
  | some o => (groupNodes o.values).1 == some node || (groupNodes o.values).2.contains node
  | none => s.partner p.bed p.partnerGroup node

/-! ## Refusal (R169, R175) -/

/-- LX_REJECT: a copy of the header refused, with the reason, GRAFT being that of the entry; `bed` is absent when the refusal belongs to no Bed. -/
def State.lxRefuse (s : State) (h : LxHdr) (bed : Option Nat) (code : Nat) : State :=
  let s := match bed with
    | some b => (s.bump .LX_REJECTS b).setStatus F.LX_STATUS_REJECTED b
    | none => s
  let graft := (s.work? h.sid).any fun w => w.slot == h.slot && w.graft.isSome
  s.emit { dest := h.sender, bed := bed
           msg := .lxReject { h with typ := 0, version := 1, graft := graft, last := false, code := code, sender := s.node } }

/-- Check 1 of R175: VERSION, and TYPE. -/
def lxKnown (h : LxHdr) : Bool := h.version == 1 && (h.typ == 0 || h.typ == 0x31 || h.typ == 0x33)

/-- Checks 1 to 4 of R175: the entry that a message belongs to, or the Bed and the reason. -/
def State.lxCheck (s : State) (h : LxHdr) : Except (Option Nat × Nat) (Work × Profile) :=
  match (s.slot? h.slot).filter fun t => t.sid == h.sid with
  | none => .error (none, if lxKnown h then 3 else 1)
  | some t =>
    if !lxKnown h then .error (some t.bed, 1) else
    match s.profile? t.bed t.profile with
    | none => .error (some t.bed, 2)
    | some p =>
      if !s.partnerFor p (s.work? h.sid) h.sender then .error (some t.bed, 2)
      else if !((s.owner? h.sid).any fun e => e.own == .confirmed) then .error (some t.bed, 3)
      else match s.work? h.sid with
        | none => .error (some t.bed, 4)
        | some w =>
          if t.inFlight && h.step == ftSample t.lastStep then .ok (w, p) else .error (some t.bed, 4)

/-! ## The work of a part (R172) -/

/-- BF16 vectors of a payload, `n` elements each. -/
def bf16Vecs (n : Nat) (count : Nat) (bs : List Byte) : List (List W16) :=
  (List.range count).map fun i => (List.range n).map fun k => BitVec.ofNat 16 (bytesAt bs (2 * (i * n + k)) 2)

/-- The elements that one position carries (R171): q, k, v, x. -/
def lxElems (p : Profile) (graft : Bool) : Nat :=
  p.qheads * p.headDim + 2 * p.kvheads * p.headDim + if graft then p.hidden else 0

/-- A part as its message carries it. -/
def partOf (p : Profile) (graft : Bool) (h : LxHdr) (payload : List Byte) : Part :=
  let vs := bf16Vecs (lxElems p graft) h.count payload
  let a := p.qheads * p.headDim
  let b := p.kvheads * p.headDim
  { layer := h.layer, first := h.first, count := h.count, sender := h.sender
    q := vs.map fun x => x.take a, k := vs.map fun x => (x.drop a).take b
    v := vs.map fun x => (x.drop (a + b)).take b, x := vs.map fun x => x.drop (a + 2 * b) }

/-- The Graft bound to an entry. -/
def State.boundGraft (s : State) (w : Work) : Option Graft := w.graft.bind fun g => s.graftV? w.bed g.1 g.2

/-- The layer of an entry is resident: of its Graft (R186), and of its image while that is pulled in (R423). -/
def State.layerHere (s : State) (w : Work) (layer : Nat) : Bool :=
  (match s.boundGraft w with
    | some g => (g.tier == 0 && !g.moving) || decide (layer < g.resident)
    | none => true) &&
  (match (s.seq? w.sid).bind fun q => q.pull with
    | some n => decide (layer < n)
    | none => true)

/-- Vectors widened to FP32 with a Graft's delta added (R183). -/
def withDelta (p : Profile) (g : Option Graft) (layer target : Nat) (x xs : List W16) : List W32 :=
  let wide := xs.map bf16To32
  match g with
  | none => wide
  | some g =>
    if bitSet (bytesAt g.table 7 1) target then
      (wide.zip (graftDelta p g.table layer target (x.map fun b => f32Val (bf16To32 b)))).map fun z => f32Add z.1 z.2
    else wide

/-- Append one position of a part: its encoded query, and the state once key and value are in the KV (R172, steps 1 to 3). -/
def State.partPos (s : State) (p : Profile) (w : Work) (g : Option Graft) (part : Part) (i : Nat) :
    Option (List (List W32) × State) :=
  let j := part.first + i
  let x := part.x.getD i []
  let pos := w.base + depthOf w.toks (workLen w) j
  let enc := fun (target : Nat) (xs : List W16) =>
    (heads p.headDim (withDelta p g part.layer target x xs)).map fun h => rotary p pos h
  let q := enc 0 (part.q.getD i [])
  let k := (enc 1 (part.k.getD i [])).map fun h => h.map f32Val
  let v := (heads p.headDim (withDelta p g part.layer 2 x (part.v.getD i []))).map fun h => h.map f32Val
  (s.appendPos w.sid p part.layer (w.base + j) k v).map fun s => (q, s)

/-- Append every position of a part in order; `none` when a frame cannot be had (R207). -/
def State.partAppend (s : State) (p : Profile) (w : Work) (g : Option Graft) (part : Part) :
    Option (List (Nat × List (List W32)) × State) :=
  (List.range part.count).foldl (fun acc i =>
    acc.bind fun a => (a.2.partPos p w g part i).map fun r => (a.1 ++ [(part.first + i, r.1)], r.2)) (some ([], s))

/-- A unit's commands for a part are traced and counted (R475, R481): `op` is the unit operation. -/
def State.unitOp (s : State) (w : Work) (layer op : Nat) : State :=
  let job := match s.seat? w.sid with | some t => t.job.toNat | none => 0
  (List.range 8).foldl (fun s u =>
    let unit := w.cluster * 8 + u
    let rec_ := fun (s : State) (kind : Nat) =>
      s.trace 0 kind 0 (w.region * 64 + unit) (.region w.region) (some w.bed) op
        (cmdTail job layer 0 w.range 0 w.slot 0 2)
    let s := (rec_ s 1).count w.region 0x03 unit (some w.bed) 1
    let s := (s.countFree w.region 0x01 unit (some w.bed)).countFree w.region 0x02 unit (some w.bed)
    rec_ (s.countFree w.region 0x04 unit (some w.bed)) 2) s

/-- The region's own events while a part runs (R475), whose amounts the spec does not fix (log entry 30), and the translations of its
page walker (R205, R224). -/
def State.partCounts (s : State) (w : Work) (layer : Nat) : State :=
  let s := match s.seq? w.sid with
    | some q => s.walkLayer w.region q layer
    | none => s
  [0x10, 0x11, 0x13, 0x16].foldl (fun s code => s.countFree w.region code 0 (some w.bed)) s

/-- Run a part whose layer is resident (R172). A frame that cannot be had abandons the entry (R207); poison loses the
session's tensors (R458). -/
def State.runPart (s : State) (p : Profile) (w : Work) (part : Part) : State :=
  let g := s.boundGraft w
  let s := s.partCounts w part.layer
  let s := if g.isSome then s.unitOp w part.layer 0xFF01 else s
  match s.partAppend p w g part with
  | none => ((s.unmet w.bed w.region).setStatus F.KV_STATUS_NO_FRAME w.bed).abandon w
  | some (qs, s) =>
    let s := s.unitOp w part.layer 0xFF02
    match s.seq? w.sid with
    | none => s
    | some q =>
      let (ctxs, s, poison) := s.attend p w q part.layer qs
      let s := s.unitOp w part.layer (if w.kind == .decode then 0xFF03 else 0xFF05)
      let delta := match g with
        | some g => ctxs.map fun c => graftDelta p g.table part.layer 3 (c.map f32Val)
        | none => []
      let s := if g.isSome then s.unitOp w part.layer 0xFF04 else s
      let done : Part := { part with ctx := ctxs, delta := delta, ready := true, waits := false }
      let s := s.updWork w.sid fun w => { w with
        parts := updFirst (fun x => x.layer == part.layer && x.first == part.first) (fun _ => done) w.parts }
      if poison then s.lostTensors w.sid else s

/-- The parts of an entry that waited for their layer and need wait no longer proceed (R186, R423). -/
def State.wakeParts (s : State) (sid : W64) : State :=
  match s.work? sid with
  | none => s
  | some w => (w.parts.filter fun x => x.waits).foldl (fun s part =>
      match s.work? sid with
      | some w =>
        match s.profile? w.bed w.profile with
        | some p => if s.layerHere w part.layer then s.runPart p w part else s
        | none => s
      | none => s) s

/-! ## LX_LAYER (R171 to R175) -/

/-- Check 5 for a layer packet (R174): the next part of the present layer. The layer advances when all its returns are sent. -/
def layerOrder (w : Work) (h : LxHdr) : Bool :=
  !w.sampling && !w.done && h.layer == w.layer && h.first == w.covered && decide (0 < h.count) &&
  decide (h.first + h.count ≤ workLen w)

/-- LX_LAYER. -/
def State.lxLayer (s : State) (h : LxHdr) (payload : List Byte) : State :=
  match s.lxCheck h with
  | .error (bed, code) => s.lxRefuse h bed code
  | .ok (w, p) =>
    if !layerOrder w h then s.lxRefuse h (some w.bed) 5
    else if h.graft != w.graft.isSome || h.length != h.count * 2 * lxElems p w.graft.isSome || payload.length != h.length then
      s.lxRefuse h (some w.bed) 6
    else
      let s := s.bump64 .LX_LAYER_MSGS_LO .LX_LAYER_MSGS_HI w.bed
      let s := if h.layer = 0 && h.first = 0 then s.traceEntry w 2 h.layer (workLen w) else s
      let here := s.layerHere w h.layer
      let part := { partOf p w.graft.isSome h payload with waits := !here }
      let s := s.updWork w.sid fun w => { w with parts := w.parts ++ [part], covered := w.covered + h.count, got := true }
      if here then s.runPart p w part
      else match s.boundGraft w with
        | some g => if g.tier != 0 && !g.moving && !(decide (h.layer < g.resident)) then s.startGraftUp g none else s
        | none => s

/-! ## LX_RETURN (R173) -/

/-- The largest message, with its header (R358). -/
def msgMax : Nat := 16777216

/-- The runs of a part whose returns each fit the message limit: first index and count. -/
def returnRuns (first count run : Nat) : List (Nat × Nat) :=
  (List.range ((count + run - 1) / run)).map fun i => (first + i * run, min run (count - i * run))

/-- The LX_RETURN messages of a part, in ascending FIRST. -/
def State.returnMsgs (s : State) (p : Profile) (w : Work) (x : Part) : List OutMsg :=
  let per := (p.qheads * p.headDim + if w.graft.isSome then p.hidden else 0) * (if p.returnFp32 then 4 else 2)
  let run := max 1 ((msgMax - 32) / max 1 per)
  (returnRuns x.first x.count run).map fun r =>
    let cut := fun (l : List (List W32)) => (l.drop (r.1 - x.first)).take r.2
    let form := fun (l : List (List W32)) =>
      if p.returnFp32 then l else l.map fun v => v.map fun e => (bf16Of32 e).setWidth 32
    { dest := x.sender, bed := some w.bed
      msg := .lxReturn { s.lxHdr w with layer := x.layer, first := r.1, count := r.2, length := r.2 * per } p.returnFp32
        (form (cut x.ctx)) (form (cut x.delta)) }

/-- Send the return of the oldest part that is complete. When every position of the layer is returned the next layer may
begin. -/
def State.sendReturn (s : State) (w : Work) (p : Profile) (x : Part) : State :=
  let s := (s.returnMsgs p w x).foldl (fun s m => s.emit m) s
  let s := s.countFree (16 + dieOf w.region) 0x25 0 none
  let all := decide (workLen w ≤ w.returned + x.count)
  let s := if all && decide (p.layers ≤ w.layer + 1) then s.traceEntry w 3 w.layer (workLen w) else s
  s.updWork w.sid fun w =>
    let parts := w.parts.filter fun y => !(y.layer == x.layer && y.first == x.first)
    let w := { w with parts := parts, returned := w.returned + x.count, lastMsg := s.now, got := !parts.isEmpty }
    if all && decide (w.layer + 1 < p.layers) then { w with layer := w.layer + 1, covered := 0, returned := 0, got := false }
    else w

/-- LX_RETURN: nothing happens while no part of the session's entry is complete. -/
def State.lxReturn (s : State) (sid : W64) : State :=
  match s.work? sid with
  | none => s
  | some w =>
    match s.profile? w.bed w.profile, w.parts.find? fun x => x.ready with
    | some p, some x => s.sendReturn w p x
    | _, _ => s

/-! ## LX_LOGITS (R177, R178) -/

/-- A mode that LOGIT_MODE allows. -/
def modeOk (logitMode mode : Nat) : Bool :=
  match logitMode with
  | 0 => mode == 0
  | 1 => mode == 1
  | _ => mode == 0 || mode == 1

/-- The records of a payload, if every one lies within it and follows R178; `ns` gives the size of a namespace. -/
def logitRecs (logitMode : Nat) (ns : Nat → Nat) : Nat → List Byte → Option (List LogitRec)
  | 0, _ => some []
  | n + 1, bs =>
    let mode := bytesAt bs 3 1
    let count := bytesAt bs 4 4
    let size := if mode = 1 then 8 * count else (2 * count + 3) / 4 * 4
    if bs.length < 16 + size || !modeOk logitMode mode ||
        (mode == 1 && (count == 0 || decide (4096 < count))) || (mode == 0 && count != ns (bytesAt bs 2 1)) then none
    else
      let body := bs.drop 16
      let r : LogitRec :=
        { index := bytesAt bs 0 1, head := bytesAt bs 1 1, ns := bytesAt bs 2 1, mode := mode
          lse := BitVec.ofNat 32 (bytesAt bs 8 4)
          full := if mode = 0 then (List.range count).map fun i => BitVec.ofNat 16 (bytesAt body (2 * i) 2) else []
          pairs := if mode = 1 then (List.range count).map fun i =>
            (BitVec.ofNat 32 (bytesAt body (8 * i) 4), BitVec.ofNat 32 (bytesAt body (8 * i + 4) 4)) else [] }
      (logitRecs logitMode ns n (bs.drop (16 + size))).map fun l => r :: l

/-- Check 5 for logits (R174): every return of the last layer is sent. -/
def logitOrder (w : Work) (p : Profile) : Bool :=
  !w.sampling && !w.done && w.layer + 1 == p.layers && w.returned == workLen w

/-- Accepted logits; with `last` the entry's sampling waits for its turn in the queue of its die (R177, R136). -/
def State.tookLogits (s : State) (w : Work) (last : Bool) (recs : List LogitRec) : State :=
  let s := s.updWork w.sid fun w => { w with
    logits := w.logits ++ recs, sampling := last, turn := s.sch.turns, lastMsg := s.now, got := false }
  if last then { s with sch := { s.sch with turns := s.sch.turns + 1 } } else s

/-- LX_LOGITS; one with LAST starts sampling (R177). -/
def State.lxLogits (s : State) (h : LxHdr) (payload : List Byte) : State :=
  match s.lxCheck h with
  | .error (bed, code) => s.lxRefuse h bed code
  | .ok (w, p) =>
    if !logitOrder w p then s.lxRefuse h (some w.bed) 5 else
    let ns := fun (n : Nat) => match s.table? w.bed 1 p.vocabId with
      | some t => if n < 16 then t.nsSize n else 0
      | none => 0
    match if payload.length = h.length then logitRecs p.logitMode ns h.count payload else none with
    | none => s.lxRefuse h (some w.bed) 6
    | some recs => s.tookLogits w h.last recs

/-! ## ENTRY_ABANDON (R176) -/

/-- Every position of the last layer is appended and attended. -/
def chunkDone (w : Work) (p : Profile) : Bool :=
  w.layer + 1 == p.layers && w.covered == workLen w && w.parts.all fun x => x.ready

/-- LAYER_TIMEOUT has passed without an acceptable message; a part that waits for its layer counts as none. Nothing more is due
for a chunk that is not final once its last layer is through. -/
def State.abandonDue (s : State) (w : Work) (p : Profile) : Bool :=
  !(w.kind == .chunk && chunkDone w p) && !w.sampling && !w.done && ftReached s.now (ftAdd w.lastMsg p.layerTimeout) && (!w.got || w.parts.any fun x => x.waits)

/-- ENTRY_ABANDON: nothing happens while the entry's time is not up. -/
def State.entryAbandon (s : State) (sid : W64) : State :=
  match s.work? sid with
  | none => s
  | some w =>
    match s.profile? w.bed w.profile with
    | some p => if s.abandonDue w p then s.abandon w else s
    | none => s

/-- The version of a Graft whose next layer has arrived; a version brought back for entries bound to it need not be current (R185). -/
def State.arriving (s : State) (bed id : Nat) : Option Graft :=
  s.grafts.find? fun g => g.bed == bed && g.id == id && g.moving &&
    (s.moveOf (.graft bed id g.version)).any fun m => m.toTier == 0 && decide (g.resident < m.doneP)

/-- GRAFT_LAYER_RESIDENT (R186): the next layer that its move has brought back is resident, and the packets of the Bed that
wait for it proceed. -/
def State.graftLayerResident (s : State) (bed id : Nat) : State :=
  match s.arriving bed id with
  | none => s
  | some g =>
    let s := s.updGraft bed id g.version fun g => { g with resident := g.resident + 1 }
    (s.sch.work.filter fun w => w.bed == bed && w.graft == some (id, g.version)).foldl (fun s w => s.wakeParts w.sid) s

end Sys2Proof.Machine
end

