-- ==== Sys2Proof/Machine/Grafts.lean ====
section
/-! DEFINITION. The exchange commands (R181, R182, R186, R187, R190): loading, dropping, stowing, binding and querying Grafts,
partner groups, and the Graft quota. -/

namespace Sys2Proof.Machine

/-- The command status of R191. -/
def profileMismatch : Nat := 0x80

/-! ## GRAFT_LOAD (R180 to R182) -/

def graftTabId (bs : List Byte) : Nat := bytesAt bs 8 2
def graftTabVersion (bs : List Byte) : W32 := BitVec.ofNat 32 (bytesAt bs 12 4)

/-- The header fields that no profile is needed for lie in their ranges (R180). -/
def graftHeadOk (bs : List Byte) : Bool :=
  let rank := bytesAt bs 6 1
  let targets := bytesAt bs 7 1
  decide (64 ≤ bs.length) && bytesAt bs 0 4 == 0x54465247 && bytesAt bs 4 1 == 1 && decide (bytesAt bs 5 1 ≤ 1) &&
  decide (1 ≤ rank) && decide (rank ≤ 64) && decide (1 ≤ targets) && decide (targets ≤ 15) &&
  decide (graftTabId bs ≤ 4095) && graftTabVersion bs != 0 && f32IsFinite (BitVec.ofNat 32 (bytesAt bs 16 4)) &&
  bytesAt bs 22 2 == 0 && bytesAt bs 28 36 == 0 && bytesAt bs 24 4 == bs.length

/-- LAYERS and LENGTH against the profile (R180). -/
def graftShapeOk (p : Profile) (bs : List Byte) : Bool :=
  bytesAt bs 20 2 == p.layers &&
  bs.length == 64 + p.layers * graftLayerBytes p (bytesAt bs 5 1) (bytesAt bs 6 1) (bytesAt bs 7 1)

/-- What a load comes to (R181): refused, and whether the journal enters the refusal; unchanged; or accepted. -/
inductive GraftVerdict where
  | refuse (st : Nat) (journal : Bool)
  | same
  | accept
  deriving DecidableEq, Repr

/-- Graft versions a Bed holds, current and retired (LX_GRAFT_USE). -/
def State.graftsOf (s : State) (bed : Nat) : Nat := (s.grafts.filter fun g => g.bed == bed).length

/-- The quota, table and near-memory checks of a load (R181, checks 4 to 6). -/
def State.graftRoom (s : State) (bed len : Nat) : GraftVerdict :=
  if s.rdN .LX_GRAFT_QUOTA bed < s.graftsOf bed + 1 then .refuse St.overQuota false
  else if 4096 ≤ s.grafts.length then .refuse St.noResource false
  else if (s.takeObject bed len (s.bedOrder bed)).isNone then .refuse (s.roomRefusal bed len) false
  else .accept

/-- The checks of R181 in their order. -/
def State.graftVerdict (s : State) (bed : Nat) (bs : List Byte) : GraftVerdict :=
  if !graftHeadOk bs then .refuse St.tableVersion false else
  match s.profile? bed (bytesAt bs 10 2) with
  | none => .refuse profileMismatch false
  | some p =>
    if !graftShapeOk p bs then .refuse St.tableVersion false else
    match s.graft? bed (graftTabId bs) with
    | none => s.graftRoom bed bs.length
    | some g =>
      let v := graftTabVersion bs
      if v = g.version then (if g.table = bs then .same else .refuse St.conflict true)
      else if v.toNat < g.version.toNat then .refuse St.versionRefused true
      else s.graftRoom bed bs.length

/-- The journal entry of a load (0) or a drop (1) (R182). -/
def State.graftEntry (s : State) (d : Desc) (bed drop id : Nat) (v : W32) (old new : W128) (refused : Bool) : JEntry :=
  s.jCmd d 0x0006 bed drop (id + v.toNat * 2 ^ 32) old new refused

/-- The digest of the current version of a Graft, 0 without one. -/
def State.graftDigest (s : State) (bed id : Nat) : W128 :=
  match s.graft? bed id with | some g => digest128 g.table | none => 0

/-- RESULT of GRAFT_LOAD (R190). -/
def graftResult (bs : List Byte) : Nat := graftTabId bs + (graftTabVersion bs).toNat * 2 ^ 32

/-- GRAFT_LOAD. -/
def State.graftLoad (s : State) (d : Desc) : State :=
  let bed := (dBed d).getD 0
  let bs := s.buf0 d
  let id := graftTabId bs
  let e := s.graftEntry d bed 0 id (graftTabVersion bs) (s.graftDigest bed id) (digest128 bs)
  match s.graftVerdict bed bs with
  | .refuse st journal => if journal then s.submitCmd d [e true] [] (.complete d st 0) else s.complete d st
  | .same => s.complete d St.ok (graftResult bs)
  | .accept => s.submitLoad d (e false) bs (s.takeWhole bed bs.length)

/-- A version becomes the current one of its Graft, in the near memory taken for it; the one before it is retired (R185). -/
def State.graftInstall (s : State) (bed : Nat) (bs : List Byte) (near : List Nat) : State :=
  let id := graftTabId bs
  let old := s.graft? bed id
  let gs := updAll (fun (g : Graft) => g.bed == bed && g.id == id) (fun g => { g with current := false }) s.grafts
  let g : Graft :=
    { bed := bed, id := id, version := graftTabVersion bs, table := bs, near := near, resident := bytesAt bs 20 2 }
  let s := { s with grafts := g :: gs }
  match old with | some o => s.retireGraft bed id o.version | none => s

/-- GRAFT_LOAD once durable. -/
def State.graftLoadDone (s : State) (d : Desc) (bs : List Byte) (near : List Nat) : State :=
  (s.graftInstall ((dBed d).getD 0) bs near).complete d St.ok (graftResult bs)

/-! ## GRAFT_DROP, GRAFT_STOW, GRAFT_BIND, GRAFT_QUERY -/

/-- GRAFT_DROP (R187). -/
def State.graftDrop (s : State) (d : Desc) : State :=
  let bed := (dBed d).getD 0
  match s.graft? bed (dArg d 48 2) with
  | none => s.complete d St.notFound
  | some g =>
    s.submitCmd d [s.graftEntry d bed 1 g.id g.version (digest128 g.table) 0 false] [] (.cmd d [] g.version.toNat)

/-- GRAFT_DROP once durable: a move of the version ends with it. -/
def State.graftDropDone (s : State) (d : Desc) : State :=
  let bed := (dBed d).getD 0
  match s.graft? bed (dArg d 48 2) with
  | none => s.complete d St.notFound
  | some g =>
    let s := match s.moveOf (.graft bed g.id g.version) with
      | some m => if m.toTier = 0 then s else s.failMove m St.notFound
      | none => s
    let s := s.updGraft bed g.id g.version fun g => { g with current := false }
    (s.retireGraft bed g.id g.version).complete d St.ok g.version.toNat

/-- GRAFT_STOW (R186). A version that a boundary is bringing back completes with that move; one that is otherwise moving, or
whose stow waits, completes with NO_RESOURCE (log entry 34). -/
def State.graftStow (s : State) (d : Desc) : State :=
  let bed := (dBed d).getD 0
  let tier := dArg d 50 1
  match s.graft? bed (dArg d 48 2) with
  | none => s.complete d St.notFound
  | some g =>
    if 2 < tier then s.complete d St.ok
    else match s.moveOf (.graft bed g.id g.version) with
      | some m =>
        if tier = 0 && m.toTier = 0 && m.d.isNone then s.updMove m.ix fun m => { m with d := some d }
        else s.complete d St.noResource
      | none =>
        if g.stow.isSome then s.complete d St.noResource
        else if g.tier = tier then s.complete d St.ok
        else if tier = 0 then
          if (s.takeObject bed g.table.length (s.bedOrder bed)).isNone then
            (s.setStatus F.TIER_STATUS_NO_ROOM bed).complete d (s.nearRefusal bed)
          else s.startGraftUp g (some d)
        else if s.bindings bed g.id g.version != 0 then
          s.updGraft bed g.id g.version fun g => { g with stow := some (tier, d) }
        else match s.startStow g tier (some d) with
          | .ok s => s
          | .error st => s.complete d st

/-- The GRAFT field of an entry (R96). -/
def graftField (g : Option Nat) : Nat := match g with | some n => n % 4096 | none => 0x8000

/-- GRAFT_BIND (R187): the change applies at the next boundary; a session without a slot takes it with its next slot. -/
def State.graftBind (s : State) (d : Desc) : State :=
  let v := dArg d 48 2
  let new := if v = 0xFFFF then none else some (v % 4096)
  match s.targetSid d with
  | none => s.complete d St.notOwner
  | some sid =>
    match s.heldEntry d sid with
    | .error st => s.complete d st
    | .ok e =>
      match s.slotOf sid with
      | some t =>
        let old := match t.chGraft with | some g => g | none => e.graft
        (s.updSlot sid fun t => { t with chGraft := some new }).complete d St.ok (graftField old)
      | none => (s.updEntry sid fun e => { e with graft := new }).complete d St.ok (graftField e.graft)

/-- GRAFT_QUERY (R190). -/
def State.graftQuery (s : State) (d : Desc) : State :=
  let bed := (dBed d).getD 0
  match s.graft? bed (dArg d 48 2) with
  | none => s.complete d St.notFound
  | some g =>
    let st := if g.moving then 3 else g.tier
    let s := (s.writeAddr d d.addr0 (g.table.take 64))
    s.complete d St.ok (st + s.bindings bed g.id g.version % 2 ^ 32 * 2 ^ 16)

/-! ## LX_GROUP_SET and GRAFT_QUOTA -/

/-- The four registers of a group that a command sets (R190, R192): a group of no step node is cleared. -/
def groupValues (d : Desc) : List Nat :=
  let step := dArg d 50 2
  if step = 0xFFFF then [0, 0, 0, 0] else
    let n := min 6 (dArg d 49 1)
    let node := fun (i : Nat) => if i < n then dArg d (52 + 2 * i) 2 % 512 + 2 ^ 15 else 0
    (step % 512 + 2 ^ 31) :: (List.range 3).map fun k => node (2 * k) + node (2 * k + 1) * 2 ^ 16

/-- The four registers of a group as they stand. -/
def State.groupRegs (s : State) (bed g : Nat) : List Nat :=
  s.rdN .LX_GROUP_STEP bed g :: (List.range 3).map fun k => s.rdN .LX_GROUP_NODES bed (g * 3 + k)

/-- Write the four registers of a group. -/
def State.setGroup (s : State) (bed g : Nat) (vs : List Nat) : State :=
  let s := s.wrN .LX_GROUP_STEP (vs.getD 0 0) bed g
  (List.range 3).foldl (fun s k => s.wrN .LX_GROUP_NODES (vs.getD (k + 1) 0) bed (g * 3 + k)) s

/-- The digest of four registers. -/
def groupDigest (vs : List Nat) : W128 := digest128 (List.flatten (vs.map fun v => leBytes 4 v))

/-- LX_GROUP_SET (R190). A group above 15 does not exist and nothing changes (R84). -/
def State.groupSet (s : State) (d : Desc) : State :=
  let bed := (dBed d).getD 0
  let g := dArg d 48 1
  if 15 < g then s.complete d St.ok
  else s.submitCmd d
    [s.jCmd d 0x0008 bed (5 * 2 ^ 24) g (groupDigest (s.groupRegs bed g)) (groupDigest (groupValues d))] [] (.cmd d [] 0)

/-- LX_GROUP_SET once durable. -/
def State.groupSetDone (s : State) (d : Desc) : State :=
  (s.setGroup ((dBed d).getD 0) (dArg d 48 1) (groupValues d)).complete d St.ok

/-- GRAFT_QUOTA (R190). -/
def State.graftQuota (s : State) (d : Desc) : State :=
  let bed := dArg d 50 1
  if !s.bedConfigured bed then s.complete d St.bedAbsent else
    let old := s.rdN .LX_GRAFT_QUOTA bed
    s.submitCmd d [s.jCmd d 0x0003 bed 0x10 bed (dig32 old) (dig32 (dArg d 52 2))] [] (.cmd d [] old)

/-- GRAFT_QUOTA once durable. A value above 4,096 is held as 4,096, the most the register's field allows (R192). -/
def State.graftQuotaDone (s : State) (d : Desc) : State :=
  let bed := dArg d 50 1
  let old := s.rdN .LX_GRAFT_QUOTA bed
  (s.wrN .LX_GRAFT_QUOTA (min 4096 (dArg d 52 2)) bed).complete d St.ok old

end Sys2Proof.Machine
end

