-- ==== Sys2Proof/Machine/Sampling.lean ====
section
/-! DEFINITION. Sampling of an entry (R251 to R263): the draws, the speculative walk, the group, the drafts of the next tree,
and the completion of a prefill chunk (R134, R211 to R214). -/

namespace Sys2Proof.Machine

/-! ## Completion of an entry (R135, R137) -/

/-- An entry completes: its client's job count, and IN_FLIGHT (R135, R137). -/
def State.finishWork (s : State) (w : Work) : State :=
  let client := match s.seat? w.sid with | some t => t.client | none => 0
  let s := s.bump .SCH_JOBS w.bed 1 client
  (s.count w.region 0x14 0 (some w.bed) 1).endWork w

/-- IN_FLIGHT clears once every entry of the step is in the Furrow or the backlog (R135, R271). -/
def State.whenWritten (s : State) (w : Work) : State :=
  if (s.ctx? w.sid).any fun c => !c.paused.isEmpty then s.updWork w.sid fun w => { w with done := true }
  else s.finishWork w

/-! ## One draw (R254, R255) -/

/-- The record of a position and head. -/
def Work.record (w : Work) (index head : Nat) : Option LogitRec :=
  w.logits.find? fun r => r.index == index && r.head == head

/-- What a draw gives: the token and its namespace, none when no token is left. -/
abbrev Drawn := Option (Nat × Nat)

/-- One draw for KV position `pos`; a text token advances the Sieve (R258). A record that is missing gives none (log entry
32). -/
def State.drawOne (s : State) (w : Work) (p : Profile) (index head pos : Nat) : State × Drawn :=
  let s := (s.bump64 .SMP_SAMPLED_LO .SMP_SAMPLED_HI w.bed).count (16 + dieOf w.region) 0x22 0 (some w.bed) 1
  match s.ctx? w.sid, w.record index head with
  | some c, some r =>
    let v := s.sieve c
    let s := if v.isSome then s.countFree (16 + dieOf w.region) 0x21 0 (some w.bed) else s
    let (cs, nan) := ranked (s.table? w.bed 1 p.vocabId) v p.endToken r
    let s := if nan then s.setStatus F.SMP_STATUS_NONFINITE_LOGIT w.bed else s
    match pick cs c.ctl (uniform25 c.ctl.seed c.turnSeq pos) with
    | none => (s, none)
    | some tok =>
      let s := if r.ns = 0 then s.updCtx w.sid fun c => setSieve c (sieveStep v tok) else s
      (s, some (tok, r.ns))
  | _, _ => (s, none)

/-- How a step ends its turn (R262): reason, the position after the last token, the stop index. -/
structure TurnEnd where
  reason : Nat
  pos : Nat
  stop : Nat := 0
  deriving DecidableEq, Repr

/-- A token leaves, and whether it ends the turn (R262): END_TOKEN, a stop string, or MAX_OUTPUT. -/
def State.leave (s : State) (e : Entry) (p : Profile) (pos : Nat) (x : Nat × Nat) : State × Option TurnEnd :=
  let (s, hit) := s.emitToken e p pos x.2 x.1
  let full := (s.ctx? e.sid).any fun c => c.ctl.maxOutput != 0 && decide (c.ctl.maxOutput ≤ c.turnTokens)
  (s, if p.endToken == some x.1 then some { reason := 0, pos := pos + 1 }
      else match hit with
        | some i => some { reason := 1, pos := pos + 1, stop := i }
        | none => if full then some { reason := 2, pos := pos + 1 } else none)

/-! ## The walk (R260) -/

/-- What the walk has come to: the nodes accepted in order, the position it stands at, the token that no child matched, how
the turn ended, and the tokens that left. -/
structure Walk where
  accepted : List Nat := []
  cur : Nat
  first : Drawn := none
  stop : Option TurnEnd := none
  out : List Nat := []
  deriving DecidableEq, Repr

/-- The child of `cur` that holds a token, the first in index order (R260). -/
def childOf (w : Work) (base cur tok : Nat) : Option Nat :=
  ((List.range (workLen w)).drop base).find? fun j =>
    let r := w.toks.getD j { token := 0 }
    r.parent == some cur && r.token.toNat == tok

/-- Walk the tree from the last base position; `n` bounds the steps. -/
def State.walk (n : Nat) (s : State) (e : Entry) (w : Work) (p : Profile) (k : Walk) : State × Walk :=
  match n with
  | 0 => (s, k)
  | n + 1 =>
    let pos := w.base + p.tokensPerStep + k.accepted.length
    let (s, x) := s.drawOne w p k.cur 0 pos
    match x with
    | none => (s, { k with stop := some { reason := 3, pos := pos } })
    | some x =>
      match childOf w p.tokensPerStep k.cur x.1 with
      | none => (s, { k with first := some x })
      | some j =>
        let (s, stop) := s.leave e p pos x
        let k := { k with accepted := k.accepted ++ [j], cur := j, out := k.out ++ [x.1], stop := stop }
        if stop.isSome then (s, k) else State.walk n s e w p k

/-- The group (R260): slot k from head k at the stopping position; slot 0 is the draw that no child matched. The draws stop at a
token that ends the turn (R262). -/
def State.group (s : State) (e : Entry) (w : Work) (p : Profile) (pos : Nat) :
    List Nat → Walk → List Nat → State × Walk × List Nat
  | [], k, g => (s, k, g)
  | i :: rest, k, g =>
    let (s, x) := if i = 0 && k.first.isSome then (s, k.first) else s.drawOne w p k.cur i (pos + i)
    match x with
    | none => (s, { k with stop := some { reason := 3, pos := pos + i } }, g)
    | some x =>
      let (s, stop) := s.leave e p (pos + i) x
      let k := { k with out := k.out ++ [x.1], stop := stop }
      if stop.isSome then (s, k, g ++ [x.1]) else State.group s e w p pos rest k (g ++ [x.1])

/-- The draft candidates kept for the next tree (R261): depth 1 under the Sieve as it stands, deeper ones without it (log entry
29). -/
def State.draftsOf (s : State) (w : Work) (p : Profile) (cur : Nat) : List (Nat × W32 × W32) :=
  match s.ctx? w.sid with
  | none => []
  | some c => List.flatten ((List.range p.treeDepth).map fun i =>
      match w.record cur (p.tokensPerStep + i) with
      | none => []
      | some r =>
        let v := if i = 0 then s.sieve c else none
        let cs := (ranked (s.table? w.bed 1 p.vocabId) v p.endToken r).1
        (cs.take p.draftK).map fun x => (i + 1, BitVec.ofNat 32 x.tok, x.p))

/-- LX_TOKENS: the tokens accepted in the step (R179). -/
def State.sendTokens (s : State) (w : Work) (p : Profile) (toks : List Nat) : State :=
  match s.stepNodeOf p w with
  | some n => s.emit
      { dest := n, bed := some w.bed
        msg := .lxTokens { s.lxHdr w with count := toks.length, length := 4 * toks.length }
          (toks.map fun t => BitVec.ofNat 32 (t % 2 ^ 20)) }
  | none => s

/-- The positions kept of a decode take their places; the rest leave the KV (R209, R210, R262). The tokens kept enter the
transcript (R109), and a decode closes the prefix run (R211). -/
def State.keepSlots (s : State) (w : Work) (p : Profile) (accepted : List Nat) : State :=
  let kept := List.range p.tokensPerStep ++ accepted
  let toks := kept.map fun j => (w.toks.getD j { token := 0 }).token
  let s := s.compact w.sid p w.base kept
  let s := s.updSeq w.sid fun q => { q with tokens := q.tokens.take w.base ++ toks }
  let s := (s.rollback w.sid p (w.base + kept.length)).updSeq w.sid fun q => { q with runOpen := false }
  s.sendTrx w.sid w.base toks

/-- A prefill chunk enters the sequence: POSITION, the transcript, the prefix run and its pages (R109, R211, R214). -/
def State.commitChunk (s : State) (w : Work) (p : Profile) : State :=
  let n := workLen w
  let s := s.consume w.sid n
  let s := s.chunkRun w.sid w.profile w.base w.graft
  let pages := ((List.range ((w.base + n) / 16)).drop (w.base / 16))
  pages.foldl (fun s pg => s.pageFilled w.sid p pg) s

/-- The end of a step (R260 to R262): the turn goes on with its group and drafts, or ends. -/
def State.stepEnd (s : State) (e : Entry) (w : Work) (p : Profile) (k : Walk) (g : List Nat) : State :=
  let group := g.map fun t => BitVec.ofNat 32 t
  let drafts := if w.kind == .decode && k.stop.isNone then s.draftsOf w p k.cur else []
  let s := match k.stop with
    | none => s.updCtx w.sid fun c => { c with group := group, drafts := drafts }
    | some x => s.endTurn e p x.reason x.pos x.stop group
  (s.sendTokens w p k.out).whenWritten w

/-- Sampling of a decode entry (R260). -/
def State.sampleDecode (s : State) (e : Entry) (w : Work) (p : Profile) : State :=
  let t := p.tokensPerStep
  let (s, k) := State.walk (workLen w + 1) s e w p { cur := t - 1 }
  let pos := w.base + t + k.accepted.length
  let (s, k, g) := if k.stop.isSome then (s, k, []) else State.group s e w p pos (List.range t) k []
  let s := s.keepSlots w p k.accepted
  let s := s.bump64 .SMP_ACCEPTED_LO .SMP_ACCEPTED_HI w.bed k.accepted.length
  let s := s.traceEntry w 4 0 (t + k.accepted.length)
  s.stepEnd e w p k g

/-- Sampling of a final chunk (R134, R263): the chunk enters the sequence, the turn opens, and its group is drawn. -/
def State.sampleFinal (s : State) (w : Work) (p : Profile) : State :=
  let s := s.commitChunk w p
  let s := s.updSeat w.sid fun t => { t with final := t.finalLate, finalLate := false }
  match s.owner? w.sid with
  | none => s
  | some e =>
    let s := s.openTurn e p
    let k : Walk := { cur := workLen w - 1 }
    let (s, k, g) := State.group s e w p (w.base + workLen w) (List.range p.tokensPerStep) k []
    let s := s.traceEntry w 4 0 (workLen w)
    s.stepEnd e w p k g

/-- An entry's sampling has been taken by one of the two samplers of its die (R136, R26): of the entries of its Bed that came
into the queue before it, fewer than two are not yet sampled. A decode entry passes the chunks that wait. -/
def State.samplerTurn (s : State) (w : Work) : Bool :=
  decide ((s.sch.work.filter fun x => x.sampling && !x.done && x.bed == w.bed && dieOf x.region == dieOf w.region &&
    decide (x.turn < w.turn) && (x.kind == .decode || w.kind != .decode)).length < 2)

/-- ENTRY_SAMPLING: nothing happens unless sampling of the session's entry has started (R177) and a sampler has taken it. -/
def State.entrySampling (s : State) (sid : W64) : State :=
  match s.work? sid, s.owner? sid with
  | some w, some e =>
    match s.profile? w.bed w.profile with
    | some p =>
      if !w.sampling || w.done || !s.samplerTurn w then s
      else if w.kind == .decode then s.sampleDecode e w p
      else s.sampleFinal w p
    | none => s
  | _, _ => s

/-! ## PREFILL_CHUNK_COMPLETE (R134, R135) -/

/-- PREFILL_CHUNK_COMPLETE. A chunk that is not final completes when its last page is appended; the returns not yet sent leave
first (log entry 28). A final chunk completes with its sampling, as by ENTRY_SAMPLING. -/
def State.chunkComplete (s : State) (sid : W64) : State :=
  match s.work? sid with
  | none => s
  | some w =>
    match s.profile? w.bed w.profile with
    | none => s
    | some p =>
      match w.kind with
      | .decode => s
      | .finalChunk => s.entrySampling sid
      | .chunk =>
        if !chunkDone w p then s else
          let s := w.parts.foldl (fun s x => (s.returnMsgs p w x).foldl (fun s m => s.emit m) s) s
          let s := if w.parts.isEmpty then s else s.traceEntry w 3 w.layer (workLen w)
          ((s.commitChunk w p).finishWork w).prefixLookup sid

end Sys2Proof.Machine
end

