-- ==== Sys2Proof/Machine/Scheduler.lean ====
section
/-! DEFINITION. The step scheduler: loading and unloading a profile (R121, R122, R165, R189, R221, R247, R253, R273), slots
(R126, R138), and the work lists of a boundary (R123 to R135, R261). -/

namespace Sys2Proof.Machine

/-- The command statuses of R139. -/
def profileInUse : Nat := 0x80
def shareExceeded : Nat := 0x81

/-! ## Loading a profile (R122) -/

/-- A value lies in a range. -/
def inR (v lo hi : Nat) : Bool := decide (lo ≤ v) && decide (v ≤ hi)

/-- Bytes `[off + n - 1 : off]` are zero. -/
def zeros (bs : List Byte) (off n : Nat) : Bool := bytesAt bs off n == 0

/-- The fields of R121 lie in their ranges. -/
def coreOk (p : Profile) : Bool :=
  p.field 0 4 == 0x4C465250 && p.field 4 1 == 1 && zeros p.bytes 5 1 && p.field 6 2 != 0xFFFF && inR p.layers 1 128 &&
  inR p.qheads 1 128 && inR p.kvheads 1 16 && p.qheads % max 1 p.kvheads == 0 && [64, 128, 256].contains p.headDim &&
  inR p.hidden 64 16384 && p.hidden % 64 == 0 && decide (p.kvFormat ≤ 3) && decide (p.codebooks ≤ 15) &&
  inR p.tokensPerStep 1 8 && decide (p.specHeads ≤ 7) && decide (p.treeMax ≤ 64) && decide (p.treeDepth ≤ 8) &&
  (p.treeDepth != 0 || p.treeMax == 0) && inR p.share 1 100 && zeros p.bytes 27 1 && inR p.period 240 48000 &&
  zeros p.bytes 37 3 && inR p.marginTarget p.period 480000 && decide (p.marginFloor + p.period ≤ p.marginTarget) &&
  inR p.prefillChunk 16 4096 && p.prefillChunk % 16 == 0 && decide (p.graftRankEst ≤ 64) && zeros p.bytes 51 13 &&
  zeros p.bytes 192 64

/-- A positive finite FP32, and a finite FP32 that is zero or above. -/
def posFinite (v : Nat) : Bool := f32IsFinite (BitVec.ofNat 32 v) && f32Lt 0 (BitVec.ofNat 32 v)
def nonNeg (v : Nat) : Bool := f32IsFinite (BitVec.ofNat 32 v) && f32Le 0 (BitVec.ofNat 32 v)

/-- The attention fields of R165. -/
def attOk (p : Profile) : Bool :=
  let m := p.field 68 2
  (p.field 64 4 == 0 || posFinite (p.field 64 4)) && (m == 0 || decide (0x400 ≤ m)) && decide (p.field 70 1 ≤ 15) &&
  decide (p.field 72 1 ≤ 1) && zeros p.bytes 73 7

/-- The page fields of R221. -/
def pageOk (p : Profile) : Bool :=
  let c := p.field 84 4
  decide (p.field 80 1 < 4) && zeros p.bytes 82 2 && (c == 0 || (inR c 16 4194304 && c % 16 == 0)) && zeros p.bytes 88 8

/-- The exchange fields of R189. -/
def lxOk (p : Profile) : Bool :=
  let dims := p.ropeDims
  decide (p.field 96 1 ≤ 15) && decide (p.field 97 1 ≤ 1) && decide (p.field 98 1 ≤ 1) && decide (p.field 99 1 ≤ 2) &&
  (if p.rotary then f32IsFinite p.ropeTheta && f32Lt f32One p.ropeTheta && inR dims 2 p.headDim && dims % 2 == 0
   else p.ropeTheta == 0 && dims == 0) &&
  zeros p.bytes 106 2 && decide (p.field 108 4 ≤ 48000) && zeros p.bytes 112 16

/-- The intake fields of R247: the tables named are held. -/
def State.intakeOk (s : State) (p : Profile) : Bool :=
  let sp := p.spaceMap
  ((s.table? p.bed 1 p.vocabId).any fun t => t.namespaces == p.codebooks + 1) &&
  (p.mergeId == 0xFFFF || (s.table? p.bed 2 p.mergeId).any fun t => t.at 16 2 == p.vocabId) &&
  (p.normId == 0xFFFF || (s.table? p.bed 3 p.normId).isSome) && inR p.pieceMax 1 256 &&
  (decide (sp < 0xD800) || inR sp 0xE000 0x10FFFF) && zeros p.bytes 140 20

/-- The sampling fields of R273 and the heads of R253. -/
def State.smpOk (s : State) (p : Profile) : Bool :=
  let g := p.field 188 2
  nonNeg (p.field 160 4) && nonNeg (p.field 164 4) && f32Le (BitVec.ofNat 32 (p.field 164 4)) f32One &&
  nonNeg (p.field 168 4) && f32Lt (BitVec.ofNat 32 (p.field 168 4)) f32One && decide (p.field 172 2 ≤ 4096) &&
  decide (p.field 174 1 ≤ 8) && zeros p.bytes 175 1 && bits (p.field 176 4) 30 20 == 0 &&
  (if p.codebooks = 0 then p.frameFt == 0 else inR p.frameFt 1 48000) &&
  (g == 0xFFFF || (s.table? p.bed 4 g).isSome) && zeros p.bytes 190 2 &&
  decide (p.tokensPerStep - 1 + p.treeDepth ≤ p.specHeads)

/-- The sum of SHARE over a Bed's profiles (SCH_PROFILES.SHARE_USED). -/
def State.shareUsed (s : State) (bed : Nat) : Nat := ((s.profilesOf bed).map Profile.share).sum

/-- The least grid value that is at least `least` samples later than `now` (R123), as a SAMPLE. -/
def firstBoundary (anchor period now least : Nat) : Nat :=
  let off := (now + least + 2 ^ 40 - anchor % 2 ^ 40) % 2 ^ 40
  let k := ceilDiv off period
  if k * period < 2 ^ 40 then (anchor + k * period) % 2 ^ 40 else anchor % 2 ^ 40

/-- The journal entry of a profile load (0) or unload (1) (R122). -/
def State.profileEntry (s : State) (d : Desc) (bed id unload : Nat) (old new : W128) : JEntry :=
  s.jCmd d 0x0004 bed (0x600 + unload) id old new

/-- Why a profile is refused, if it is (R122). -/
def State.profileRefusal (s : State) (p : Profile) (len : Nat) : Option Nat :=
  if len != 256 || !(coreOk p && attOk p && pageOk p && lxOk p && s.intakeOk p && s.smpOk p) then some St.tableVersion
  else if (s.profile? p.bed p.id).isSome then some profileInUse
  else if 100 < s.shareUsed p.bed + p.share then some shareExceeded
  else if 16 ≤ (s.profilesOf p.bed).length || 64 ≤ s.sch.profiles.length then some St.noResource
  else none

/-- The profile that a table spells. -/
def profileFrom (bed : Nat) (bs : List Byte) : Profile := { bed := bed, id := bytesAt bs 6 2, bytes := bs, nextB := 0 }

/-- SCH_PROFILE_LOAD (R122). -/
def State.profileLoad (s : State) (d : Desc) : State :=
  let bed := (dBed d).getD 0
  let bs := s.buf0N d 256
  let p := profileFrom bed bs
  match s.profileRefusal p (dLen0 d) with
  | some st => s.complete d st
  | none => s.submitCmd d [s.profileEntry d bed p.id 0 0 (digest128 bs)] [] (.cmd d bs 0)

/-- SCH_PROFILE_LOAD once durable; RESULT gives the first boundary (R123, R138). -/
def State.profileLoadDone (s : State) (d : Desc) (bs : List Byte) : State :=
  let p := profileFrom ((dBed d).getD 0) bs
  let now := ftSample (s.now + (BitVec.ofNat 64 (ftUnit - 1)))
  let p := { p with nextB := firstBoundary p.anchor p.period now 48 }
  ({ s with sch := { s.sch with profiles := s.sch.profiles ++ [p] } }).complete d St.ok (p.id + p.nextB * 2 ^ 24)

/-- A directory entry of a Bed names a profile (R122). -/
def State.profileNamed (s : State) (bed id : Nat) : Bool :=
  s.ses.entries.any fun e => e.isOwner && e.bed == bed && e.profile == id

/-- SCH_PROFILE_UNLOAD (R122). -/
def State.profileUnload (s : State) (d : Desc) : State :=
  let bed := (dBed d).getD 0
  let id := dArg d 48 2
  match s.profile? bed id with
  | none => s.complete d St.notFound
  | some p =>
    if s.profileNamed bed id then s.complete d profileInUse
    else s.submitCmd d [s.profileEntry d bed id 1 (digest128 p.bytes) 0] [] (.cmd d [] 0)

/-- SCH_PROFILE_UNLOAD once durable. -/
def State.profileUnloadDone (s : State) (d : Desc) : State :=
  let bed := (dBed d).getD 0
  let ps := s.sch.profiles.filter fun p => !(p.bed == bed && p.id == dArg d 48 2)
  (({ s with sch := { s.sch with profiles := ps } }).sweepTables bed).complete d St.ok

/-! ## Slots (R138) -/

/-- The slot that a scheduler command names, as its issuer may see it (R138). -/
def State.slotTarget (s : State) (d : Desc) : Option Slot :=
  let t := if dSlot d then s.slot? (d.target.toNat % 65536) else s.slotOf d.target
  t.filter fun t => match dBed d with | some b => t.bed == b | none => true

/-- SCH_SLOT_READ (R138). -/
def State.slotRead (s : State) (d : Desc) : State :=
  match s.slotTarget d with
  | some t => (s.writeAddr d d.addr0 (slotBytes t)).complete d St.ok t.lastM
  | none =>
    if dFn d = 0 && dSlot d then (s.writeAddr d d.addr0 (leBytes 64 0)).complete d St.ok
    else s.complete d St.notFound

/-- SCH_SET_SEQ (R138). A field that the table does not list has no effect (R84). -/
def State.setSeq (s : State) (d : Desc) : State :=
  match s.slotTarget d with
  | none => s.complete d St.notFound
  | some t =>
    match s.heldEntry d t.sid with
    | .error st => s.complete d st
    | .ok e =>
      let v := dArg d 52 4
      let cap := match s.profile? e.bed e.profile with | some p => p.treeMax | none => 0
      match dArg d 48 1 with
      | 0 =>
        let s := s.updSlot t.sid fun t => { t with chPrio := some (min v 3) }
        (s.updEntry t.sid fun e => { e with prio := min v 3 }).complete d St.ok (t.chPrio.getD t.prio)
      | 1 => (s.updSlot t.sid fun t => { t with chTree := some (min v cap) }).complete d St.ok (t.chTree.getD t.treeNodes)
      | 2 => (s.updSlot t.sid fun t => { t with chClient := some (v % 256) }).complete d St.ok (t.chClient.getD t.client)
      | _ => s.complete d St.ok

/-! ## The grid (R123, R125) -/

/-- The grid value after `n`: the grid restarts at ANCHOR (R123). -/
def nextGrid (p : Profile) (n : Nat) : Nat :=
  let off := (n + 2 ^ 40 - p.anchor % 2 ^ 40) % 2 ^ 40
  if off + p.period < 2 ^ 40 then (n + p.period) % 2 ^ 40 else p.anchor % 2 ^ 40

/-- With the present boundary passed by `passed` samples: the latest boundary passed, and how many were passed before it
(R125). -/
def latestPassed (p : Profile) (n passed : Nat) : Nat × Nat :=
  let off := (n + 2 ^ 40 - p.anchor % 2 ^ 40) % 2 ^ 40
  let last := off + passed
  if last < 2 ^ 40 then ((n + passed / p.period * p.period) % 2 ^ 40, passed / p.period)
  else
    let before := (2 ^ 40 - 1 - off) / p.period
    let after := (last - 2 ^ 40) / p.period
    ((p.anchor + after * p.period) % 2 ^ 40, before + 1 + after)

/-- A region raises boundaries: it is not stopped and its replica is synchronised (R51, R52). -/
def State.raises (s : State) (r : Nat) : Bool :=
  s.stamps r && !(s.time.regions.getD r {}).failed && !s.flt.regions.contains r

/-- The Frame Time of a region of the Bed that has reached the next boundary of a profile. -/
def State.raisedAt (s : State) (p : Profile) : Option W64 :=
  ((s.regionsOf p.bed).find? fun r => s.raises r && ftReached (s.regionFt r) (ftOfSample p.nextB)).map s.regionFt

/-- The samples from one sample count to another. -/
def sampleGap (from_ upto : Nat) : Nat := (upto + 2 ^ 40 - from_ % 2 ^ 40) % 2 ^ 40

/-- The boundary that a profile raises now: the latest passed, how many were passed before it, and the region's Frame Time (R125). -/
def State.latest (s : State) (p : Profile) : Option (Nat × Nat × W64) :=
  (s.raisedAt p).map fun f =>
    let x := latestPassed p p.nextB (sampleGap p.nextB (ftSample f))
    (x.1, x.2, f)

/-- No profile of the Bed with a lower PROFILE_ID has a boundary on the same Frame Time still to raise (R127). -/
def State.inTurn (s : State) (p : Profile) (b : Nat) : Bool :=
  (s.profilesOf p.bed).all fun q => decide (p.id ≤ q.id) || !((s.latest q).any fun x => x.1 == b)

/-- A region behind its profile raises again: the region, and its Frame Time, where it has reached the boundary it still has to raise
(R52, R125). -/
def State.lateAt (s : State) (p : Profile) : Option (Nat × Nat × W64) :=
  (p.lag.find? fun x => s.raises x.1 && ftReached (s.regionFt x.1) (ftOfSample x.2)).map fun x =>
    (x.1, x.2, s.regionFt x.1)

/-! ## Margins (R511) -/

/-- The output margin of a slot at a boundary, in fraction units. -/
def State.margin (s : State) (p : Profile) (t : Slot) (at_ : W64) : Nat :=
  let plain := if ftLater t.playEnd at_ then (t.playEnd - at_).toNat else 0
  let silent := p.codebooks == 0 || (s.ctx? t.sid).any fun c => !c.turnAudio
  if t.turn && silent && ftLater at_ t.playEnd then p.marginTarget * ftUnit else plain

/-! ## Freezing the slots (R127, R138, R185) -/

/-- The changes of a slot that apply at this boundary. -/
def slotChanges (t : Slot) : Slot :=
  { t with prio := t.chPrio.getD t.prio, treeNodes := t.chTree.getD t.treeNodes, client := t.chClient.getD t.client
           graft := match t.chGraft with | some g => g | none => t.graft
           chPrio := none, chTree := none, chClient := none, chGraft := none }

/-- INPUT_FT of waiting input, raised to 2^30 ft before the boundary (R131). -/
def freshInput (b : W64) (t : Slot) : Slot :=
  if t.pend.isEmpty then t else
    let age := (ftSample b + 2 ^ 40 - sampleExtend32 b t.inputFt) % 2 ^ 40
    if 2 ^ 30 < age && age < 2 ^ 39 then { t with inputFt := BitVec.ofNat 32 (ftSample b + 2 ^ 40 - 2 ^ 30) } else t

/-- One slot at the freeze: its changes, its Graft version, its controls and its margin. An entry still in flight keeps the
controls and the version it runs with. -/
def State.freezeSlot (s : State) (p : Profile) (b at_ : W64) (sid : W64) : State :=
  let s := s.updSlot sid fun t => freshInput b (slotChanges t)
  match s.slotOf sid with
  | none => s
  | some t =>
    let s := s.updEntry sid fun e => { e with graft := t.graft }
    let s := s.updSlot sid fun t => { t with lastM := s.margin p t at_ / ftUnit }
    if t.inFlight then s else
      let s := match s.graftNow t.bed t.graft with
        | some g => s.updSlot sid fun t => { t with graftVersion := g.2 }
        | none => s
      s.updCtx sid fun c => { c with ctl := { c.next with grammar := c.ctl.grammar } }

/-! ## The tree (R261) -/

/-- An entry of the frontier. -/
structure Twig where
  score : W32
  depth : Nat
  tok : Nat
  parent : Nat
  sieve : Sieve
  deriving DecidableEq, Repr

/-- `a` comes before `b`: higher score, then lower depth, then lower token. -/
def twigFirst (a b : Twig) : Bool :=
  f32Lt b.score a.score || (!f32Lt a.score b.score && (decide (a.depth < b.depth) ||
    (a.depth == b.depth && decide (a.tok < b.tok))))

/-- The candidates of one depth as frontier entries below a node. -/
def twigs (drafts : List (Nat × W32 × W32)) (depth parent : Nat) (score : Option W32) (v : Sieve) : List Twig :=
  (drafts.filter fun x => x.1 == depth).map fun x =>
    { score := (match score with | some a => f32Mul a x.2.2 | none => x.2.2), depth := depth, tok := x.2.1.toNat
      parent := parent, sieve := v }

/-- Build the tree; `n` is the nodes still granted. `isText` tells the tokens that the Sieve governs. -/
def growTree (isText : Nat → Bool) (endTok : Option Nat) (drafts : List (Nat × W32 × W32)) (base : Nat) :
    Nat → List Twig → List PosRec → List PosRec
  | 0, _, acc => acc
  | n + 1, frontier, acc =>
    match sortBy twigFirst frontier with
    | [] => acc
    | x :: rest =>
      if isText x.tok && !sieveAllows x.sieve endTok x.tok then growTree isText endTok drafts base n rest acc
      else
        let v := if isText x.tok then sieveStep x.sieve x.tok else x.sieve
        let node := base + acc.length
        growTree isText endTok drafts base n (rest ++ twigs drafts (x.depth + 1) node (some x.score) v)
          (acc ++ [{ token := BitVec.ofNat 32 x.tok, parent := some x.parent, sample := true }])

/-- The tree of a sequence with `t` nodes granted (R261). -/
def State.treeFor (s : State) (p : Profile) (sid : W64) (t : Nat) : List PosRec :=
  match s.ctx? sid with
  | none => []
  | some c =>
    let isText := fun (tok : Nat) => (s.table? p.bed 1 p.vocabId).any fun v => v.isText tok
    growTree isText p.endToken c.drafts p.tokensPerStep t (twigs c.drafts 1 (p.tokensPerStep - 1) none (s.sieve c)) []

/-! ## Candidates (R127, R135, R170, R187, R208, R271, R511) -/

/-- A candidate: its slot, margin in fraction units, Graft term, whether it decodes. -/
structure Candidate where
  slot : Slot
  m : Nat
  g : Nat
  decode : Bool
  cost : Nat × Nat := (0, 0)
  tree : List PosRec := []
  deriving DecidableEq, Repr

/-- G of R129 for a slot. -/
def State.graftCost (s : State) (p : Profile) (t : Slot) : Nat :=
  match t.graft.bind fun id => s.graft? t.bed id with
  | some g => graftMac p (if g.tier = 0 && !g.moving then graftRank g else p.graftRankEst)
  | none => if t.graft.isSome then graftMac p p.graftRankEst else 0

/-- Why a sequence that is eligible is not admitted (R170, R187, R208). -/
def State.barred (s : State) (p : Profile) (t : Slot) (decode : Bool) : Option Fld :=
  if t.graft.isSome && (s.graftNow t.bed t.graft).isNone then some F.LX_STATUS_GRAFT_MISSING
  else if p.maxContext ≤ t.position || (decode && decide (p.maxContext < t.position + p.tokensPerStep)) then
    some F.KV_STATUS_CONTEXT_FULL
  else if (s.stepNode p).isNone then some F.LX_STATUS_NO_PARTNER
  else none

/-- Look at one slot at a boundary: it is late, barred, held by a checkpoint with EVICT (R410), a candidate, or nothing. -/
def consider (p : Profile) (at_ : W64) (acc : State × List Candidate) (t : Slot) :
    State × List Candidate :=
  let s := acc.1
  if !((s.owner? t.sid).any fun e => e.own == .confirmed) then (s, acc.2) else
  let held := (s.ctx? t.sid).any fun c => !c.backlog.isEmpty || !c.paused.isEmpty
  let s := if held then s.setStatus F.SMP_STATUS_BACKLOG p.bed else s
  if t.inFlight then
    let s := s.updSlot t.sid fun t => { t with lateCount := min 0xFFFF (t.lateCount + 1) }
    let s := (s.bump .SCH_LATE p.bed).setStatus F.SCH_STATUS_LATE p.bed
    (match s.work? t.sid with | some w => s.traceEntry w 7 w.layer (workLen w) | none => s, acc.2)
  else
    let m := s.margin p t at_
    let decode := t.turn
    if (decode && (held || decide (p.marginTarget * ftUnit < m))) || (!decode && t.pend.isEmpty) then (s, acc.2)
    else match s.barred p t decode with
      | some f => (s.setStatus f p.bed, acc.2)
      | none =>
        if s.ckHeld p.bed t.sid then
          let s := s.updSlot t.sid fun t => { t with held := true }
          ((s.bump .SCH_HELD p.bed).setStatus F.SCH_STATUS_HELD p.bed, acc.2)
        else (s, acc.2 ++ [{ slot := t, m := m, g := s.graftCost p t, decode := decode }])

/-! ## The work list (R131 to R133) -/

/-- The sum of the costs of a list. -/
def costSum (l : List Candidate) : Nat × Nat := l.foldl (fun c x => costAdd c x.cost) (0, 0)

/-- Withdraw entries of `order` while the list exceeds the budget (R131, R132): what stays, and what is held. -/
def holdOver (p : Profile) (budget : Nat × Nat) : List Candidate → List Candidate → List Candidate × List Candidate
  | [], l => (l, [])
  | e :: rest, l =>
    if fits (costSum l) budget then (l, [])
    else if (p.marginFloor + p.period) * ftUnit < e.m then
      let r := holdOver p budget rest (l.filter fun x => x.slot.ix != e.slot.ix)
      (r.1, e :: r.2)
    else holdOver p budget rest l

/-- Lexicographic order of three keys. -/
def lex3 (a b : Nat × Nat × Nat) : Bool :=
  decide (a.1 < b.1) || (a.1 == b.1 && (decide (a.2.1 < b.2.1) || (a.2.1 == b.2.1 && decide (a.2.2 < b.2.2))))

/-- Grant trees in admission order (R131, R208). The entry costs the width granted, however many nodes the tree then has (R129). -/
def State.grantTrees (s : State) (p : Profile) (est : Nat) (budget : Nat × Nat) (l : List Candidate) : List Candidate :=
  (List.range l.length).foldl (fun (acc : List Candidate) i =>
    match acc[i]? with
    | none => acc
    | some c =>
      let room := p.maxContext - c.slot.position - p.tokensPerStep
      let t := min (min c.slot.treeNodes p.treeMax) room
      let at_ := fun (n : Nat) => decodeCost p c.slot.position est (p.tokensPerStep + n) c.g
      let wide := acc.set i { c with cost := at_ t }
      if t = 0 || !fits (costSum wide) budget then acc else
        acc.set i { c with cost := at_ t, tree := s.treeFor p c.slot.sid t }) l

/-- The longest chunk of a prefill candidate that fits (R131, R208): 0 when none does. `n` counts multiples of 16 down. -/
def chunkFit (p : Profile) (t : Slot) (g : Nat) (used budget : Nat × Nat) (most : Nat) : Nat → Nat
  | 0 => 0
  | n + 1 =>
    let k := min (16 * (n + 1)) most
    if fits (costAdd used (prefillCost p t.position k g)) budget then k else chunkFit p t g used budget most n

/-- An admitted entry: its candidate and the positions it carries. -/
structure Admit where
  slot : Slot
  kind : EntryKind
  toks : List PosRec
  tree : Nat
  deriving DecidableEq, Repr

/-- The positions of a decode entry (R155, R252, R260). -/
def State.decodeRecs (s : State) (p : Profile) (c : Candidate) : List PosRec :=
  let g := match s.ctx? c.slot.sid with | some x => x.group | none => []
  let base := (List.range p.tokensPerStep).map fun j =>
    ({ token := g.getD j 0, parent := if j = 0 then none else some (j - 1), sample := j + 1 == p.tokensPerStep } : PosRec)
  base ++ c.tree

/-- The positions of a prefill chunk (R155, R252). -/
def chunkRecs (toks : List W32) (final : Bool) : List PosRec :=
  toks.zipIdx.map fun x =>
    { token := x.1, parent := if x.2 = 0 then none else some (x.2 - 1), sample := final && x.2 + 1 == toks.length }

/-- Admit prefill chunks into what is left (R131, R134). -/
def admitChunks (p : Profile) (budget : Nat × Nat) : List Candidate → Nat × Nat → List Admit × (Nat × Nat)
  | [], used => ([], used)
  | c :: rest, used =>
    let t := c.slot
    let most := min t.pend.length (p.maxContext - t.position)
    let k := chunkFit p t c.g used budget most (min p.prefillChunk (ceilDiv most 16 * 16) / 16)
    if k = 0 then admitChunks p budget rest used else
      let final := t.final && k == t.pend.length
      let r := admitChunks p budget rest (costAdd used (prefillCost p t.position k c.g))
      ({ slot := t, kind := if final then .finalChunk else .chunk, toks := chunkRecs (t.pend.take k) final, tree := 0 } :: r.1,
       r.2)

/-- Mark the sequences held (R132). -/
def State.holdAll (s : State) (p : Profile) (l : List Candidate) : State :=
  l.foldl (fun s c =>
    let s := s.updSlot c.slot.sid fun t => { t with held := true, holdCount := min 0xFFFF (t.holdCount + 1) }
    (s.bump .SCH_HELD p.bed).setStatus F.SCH_STATUS_HELD p.bed) s

/-- KIND of LX_STEP (R170). -/
def kindCode : EntryKind → Nat
  | .decode => 0
  | .chunk => 1
  | .finalChunk => 2

/-- Admit an entry (R135, R170, R185): IN_FLIGHT, LAST_STEP, its binding, LX_STEP. A stowed Graft version is brought back
(R186). -/
def State.admitOne (s : State) (p : Profile) (r : Nat) (b : W64) (a : Admit) : State :=
  let t := a.slot
  let graft := s.graftNow t.bed t.graft
  let (cl, s) := s.draw 31
  let w : Work :=
    { slot := t.ix, sid := t.sid, bed := t.bed, region := r, profile := p.id, kind := a.kind, step := b, base := t.position
      tree := a.tree, toks := a.toks, graft := graft, lastMsg := s.now, cluster := cl.toNat % 8
      range := s.fget F.TRC_RANGE_MARKER (fnOf t.bed) }
  let s := { s with sch := { s.sch with work := s.sch.work ++ [w] } }
  let s := s.updSlot t.sid fun t => { t with inFlight := true, finalLate := false, lastStep := b, held := false, holdCount := 0 }
  let s := match s.seq? t.sid with | some q => s.walkEntry r q | none => s
  let s := s.traceEntry w 1 0 a.toks.length
  let s := match graft.bind fun g => s.graftV? t.bed g.1 g.2 with
    | some g => if g.tier != 0 && !g.moving then s.startGraftUp g none else s
    | none => s
  let s := s.bump64 .SMP_DRAFTS_LO .SMP_DRAFTS_HI t.bed a.tree
  match s.stepNode p with
  | some n =>
    let h := { s.lxHdr w with count := a.toks.length, length := 8 + 8 * a.toks.length, graft := t.graft.isSome }
    s.emit { dest := n, bed := some t.bed, msg := .lxStep h (kindCode a.kind) a.tree t.position a.toks }
  | none => s

/-! ## Moves (R131, R290, R292) -/

/-- The profile whose step budget a move uses. -/
def State.moveProfile (s : State) (m : Move) : Option Nat :=
  let of := fun (sid : W64) => (s.owner? sid).map fun e => e.profile
  match m.what with
  | .session sid => of sid
  | .handoff sid _ => of sid
  | .graft bed id v => (s.graftV? bed id v).map fun g => bytesAt g.table 10 2
  | .relocate set => (s.setIx? set).bind fun t => if t.kind = 1 then none else of t.owner

/-- The near-memory bytes of a layer's pages that satisfy `only`, with the output context for layer 0. -/
def State.layerCost (s : State) (p : Profile) (sid : W64) (layer : Nat) (only : Leaf → Bool) : Nat :=
  match s.seq? sid with
  | some q => (q.leaves.filter fun l => l.layer == layer && only l).length * p.pageBytes + if layer = 0 then ctxBytes else 0
  | none => 0

/-- The near-memory bytes of the next piece of a move (R129, R290): of a write-back the DIRTY pages (R293). -/
def State.pieceCost (s : State) (p : Profile) (m : Move) (layer : Nat) : Nat :=
  match m.what with
  | .session sid =>
    if m.fromTier = 0 then s.layerCost p sid layer fun l => !m.writeBack || l.dirty
    else if m.toTier = 0 then match m.src.bind s.setIx? with
      | some t => (t.pages.filter fun x => x.1 == layer).length * p.pageBytes + if layer = 0 then ctxBytes else 0
      | none => 0
    else 0
  | .handoff sid _ => if m.fromTier = 0 then s.layerCost p sid layer fun _ => true else 0
  | .graft _ _ _ => if m.fromTier = 0 || m.toTier = 0 then
      match (m.src.bind s.setIx?).or (m.dst.bind s.setIx?) with
      | some t => (pieceSpan t m.pieces layer).2 - (pieceSpan t m.pieces layer).1
      | none => 0
    else 0
  | .relocate _ => 0

/-- The near-memory bytes of a later pass of a downward move's copy (R219, R291); none when no such pass is due. -/
def State.passCost (s : State) (p : Profile) (m : Move) : Option Nat :=
  match m.what with
  | .session sid =>
    match s.seq? sid with
    | some q =>
      let dirty := q.leaves.filter fun l => l.dirty
      if m.fromTier != 0 || m.pass || m.doneP < m.pieces || q.copy.isNone || dirty.isEmpty then none
      else some (dirty.length * p.pageBytes)
    | none => none
  | _ => none

/-- Admit pieces of one move while its bytes fit the byte budget; `n` bounds them. A piece that waited is admitted again (R292), and
after the pieces a later pass of the copy (R291). The answer says whether a piece did not fit. -/
def State.admitPieces (n : Nat) (s : State) (p : Profile) (budget used : Nat × Nat) (ix : Nat) : State × (Nat × Nat) × Bool :=
  match n with
  | 0 => (s, used, false)
  | n + 1 =>
    match s.move? ix with
    | none => (s, used, false)
    | some m =>
      let layer := if m.waiting then m.doneP else m.doneP + m.admitted
      if m.pieces ≤ layer then
        match s.passCost p m with
        | none => (s, used, false)
        | some c =>
          let u := costAdd used (c, 0)
          if budget.1 < u.1 * 10000 then (s, used, true) else (s.updMove ix fun m => { m with pass := true }, u, false)
      else
        let u := costAdd used (s.pieceCost p m layer, 0)
        if budget.1 < u.1 * 10000 then (s, used, true)
        else if m.waiting then (s.updMove ix fun m => { m with waiting := false }, u, false)
        else State.admitPieces n (s.updMove ix fun m => { m with admitted := m.admitted + 1 }) p budget u ix

/-- Admit the moves of a region in queue order while the bytes fit (R131, R290). -/
def State.admitMoves (s : State) (p : Profile) (budget : Nat × Nat) : List Nat → Nat × Nat → State
  | [], _ => s
  | ix :: rest, used =>
    let k := match s.move? ix with | some m => m.pieces + 1 | none => 0
    let (s, used, full) := State.admitPieces k s p budget used ix
    if full then s else State.admitMoves s p budget rest used

/-- The moves of a region that a profile's step may take in, in queue order. -/
def State.moveQueue (s : State) (p : Profile) (r : Nat) : List Nat :=
  let mine := s.tiers.moves.filter fun m => m.region == r && m.bed == p.bed && (s.moveProfile m).getD p.id == p.id
  (sortBy (fun (a b : Move) => decide (a.cls < b.cls) || (a.cls == b.cls && decide (a.ix < b.ix))) mine).map fun m => m.ix

/-! ## One region (R131) -/

/-- The work list of one region: built, announced and traced. -/
def State.buildRegion (s : State) (p : Profile) (b at_ : W64) (skipped r : Nat) : State :=
  let mine := sortBy (fun (a b : Slot) => decide (a.ix < b.ix))
    (s.sch.slots.filter fun t => t.bed == p.bed && t.profile == p.id && t.region == r)
  let est := s.skipEst p.bed
  let budget := s.budget p r
  let x := mine.foldl (consider p at_) (s, [])
  let s := x.1
  let dec := (x.2.filter fun c => c.decode).map fun c =>
    { c with cost := decodeCost p c.slot.position est p.tokensPerStep c.g }
  let floor := p.marginFloor * ftUnit
  let urgent := sortBy (fun (a b : Candidate) => lex3 (a.m, a.slot.ix, 0) (b.m, b.slot.ix, 0))
    (dec.filter fun c => decide (c.m ≤ floor))
  let normal := sortBy (fun (a b : Candidate) => lex3 (a.slot.prio, a.m, a.slot.ix) (b.slot.prio, b.m, b.slot.ix))
    (dec.filter fun c => !decide (c.m ≤ floor))
  let held := if s.fget F.SCH_CTRL_HOLD_ENABLE p.bed = 1 then holdOver p budget normal.reverse (urgent ++ normal)
    else (urgent ++ normal, [])
  let s := s.holdAll p held.2
  let tooMuch := !fits (costSum held.1) budget
  let s := if tooMuch then (s.bump .SCH_OVERCOMMIT p.bed).setStatus F.SCH_STATUS_OVERCOMMIT p.bed else s
  let decodes := s.grantTrees p est budget held.1
  let bnd := b
  let pre := sortBy (fun (a b : Candidate) =>
      let age := fun (c : Candidate) => sampleExtend32 bnd c.slot.inputFt
      lex3 (a.slot.prio, (age a + 2 ^ 40 - (ftSample bnd + 2 ^ 39) % 2 ^ 40) % 2 ^ 40, a.slot.ix)
        (b.slot.prio, (age b + 2 ^ 40 - (ftSample bnd + 2 ^ 39) % 2 ^ 40) % 2 ^ 40, b.slot.ix))
    (x.2.filter fun c => !c.decode)
  let chunks := admitChunks p budget pre (costSum decodes)
  let admits := decodes.map (fun c =>
    ({ slot := c.slot, kind := .decode, toks := s.decodeRecs p c, tree := c.tree.length } : Admit)) ++ chunks.1
  let s := admits.foldl (fun s a => s.admitOne p r b a) s
  let nodes := (decodes.map fun c => c.tree.length).sum
  let s := s.trace 1 3 10 r (.region r) (some p.bed) p.id
    (leBytes 4 decodes.length ++ leBytes 2 chunks.1.length ++ leBytes 2 held.2.length ++ leBytes 2 nodes ++
      leBytes 2 skipped ++ leBytes 4 0)
  s.admitMoves p budget (s.moveQueue p r) chunks.2

/-- The decode byte cost that the owned sequences of a region carry (R128). -/
def State.regionCost (s : State) (p : Profile) (r : Nat) : Nat :=
  let est := s.skipEst p.bed
  ((s.sch.slots.filter fun t => t.bed == p.bed && t.profile == p.id && t.region == r).map fun t =>
    (decodeCost p t.position est p.tokensPerStep 0).1).sum

/-- A boundary `b` of a profile, raised at `at_` after `skipped` others in the regions `rs`: their slots of the profile are frozen and
their lists are built (R127, R128). -/
def State.buildLists (s : State) (p : Profile) (b at_ : W64) (skipped : Nat) (rs : List Nat) : State :=
  let sids := (s.sch.slots.filter fun t => t.bed == p.bed && t.profile == p.id && rs.contains t.region).map fun t => t.sid
  let s := sids.foldl (fun s sid => s.freezeSlot p b at_ sid) s
  let cost := (s.regionsOf p.bed).map fun r => (r, s.regionCost p r)
  let s := s.updProfile p.bed p.id fun p => { p with cost := cost }
  rs.foldl (fun s r => s.buildRegion p b at_ skipped r) s

end Sys2Proof.Machine
end

