-- ==== Sys2Proof/Machine/Stripe.lean ====
section
/-! DEFINITION. How lines are stored: stripes over the dies of a stack, with their tags and Reed-Solomon parity (R277, R278, R280), and
the blocks of the CXL tier with their side bytes (R285). -/

namespace Sys2Proof.Machine

/-! ## The symbols of a line (R277, R440) -/

/-- The number under which a memory key stands in `Config.xts` and `Config.gmac56`: near keys by Bed, 16 the device near key; park keys
above them. -/
def parkKey (bed : Nat) : Nat := 32 + bed

/-- Whose near key a line is encrypted under (R440): the Bed of the plot that holds it, or of the region for the range table, else the
device. -/
def State.memKey (s : State) (region line : Nat) : Nat :=
  let off := 64 * line
  if reservedLine line then
    if rangeOffset ≤ off && off < freshOffset then (s.bedOfRegion region).getD 16 else 16
  else match s.mem.plots.find? fun p => p.region == region && p.ix == off / plotBytes with
    | some p => p.bed
    | none => 16

/-- META of a line (R277, R440): POISON, and GEN modulo 8. -/
def metaByte (poison : Bool) (gen : Nat) : Byte := BitVec.ofNat 8 ((if poison then 1 else 0) + 2 * (gen % 8))

/-- The ciphertext of a line with its tag and META: symbols 0 to 71 (R277, R440). `a` is what stands in the tweak and, its low 48
bits, in the IV. -/
def sealedLine (key gen a : Nat) (poison : Bool) (data : List Byte) : List Byte :=
  let c := Config.xts key gen a data
  let m := metaByte poison gen
  c ++ Config.gmac56 key gen (leBytes 6 a ++ [0, 0] ++ leBytes 4 gen) (c ++ [m]) ++ [m]

/-- Symbol `i` of the codeword of a line of a stack (R277). -/
def State.lineSymbol (s : State) (region line i : Nat) : Byte :=
  let pa := region * 2 ^ 37 + 64 * line
  let key := s.memKey region line
  let body := sealedLine key (Table.get s.sec.gens 0 key) pa (s.mem.poison.contains (pa / 64)) (s.nearRead pa 64)
  (body ++ Config.rsParity body).getD i 0

/-! ## Stripes (R277, R280) -/

/-- Line `j` and symbol `i` that stripe byte `b` is: `b` is `3 i + j`. -/
def lineOfByte (b : Nat) : Nat := b % 3
def symbolOfByte (b : Nat) : Nat := b / 3

/-- The die in place `p` of the 15 active dies of a stripe: below the pointer of sparing, die 15 stands in place of the failing one. -/
def Stack.dieAt (k : Stack) (stripe p : Nat) : Nat :=
  if k.spare != .none && decide (stripe < k.ptr) && p == k.die then 15 else p

/-- Byte `b` of the 240 of a stripe. -/
def State.stripeByte (s : State) (region stripe b : Nat) : Byte :=
  s.lineSymbol region (3 * stripe + lineOfByte b) (symbolOfByte b)

/-- The 16 bytes of a stripe on a die of a stack; none on a die that is not active in it. -/
def State.dieBytes (s : State) (k : Stack) (region stripe die : Nat) : List Byte :=
  match (List.range 15).find? fun p => k.dieAt stripe p == die with
  | some p => (List.range 16).map fun o => s.stripeByte region stripe (16 * p + o)
  | none => []

/-! ## Decoding (R278) -/

/-- What decoding one line finds: clean, corrected symbols, a whole failed die, or nothing that verifies. -/
inductive LineFind where
  | clean | outer | die (k : Nat) | bad
  deriving DecidableEq, Repr

/-- The dies that return symbols of line `j` of a stripe wrong, one for each symbol; `wrong` are the bytes returned wrong, as die and
byte of its 16. -/
def Stack.wrongIn (k : Stack) (stripe : Nat) (wrong : List (Nat × Nat)) (j : Nat) : List Nat :=
  ((List.range 240).filter fun b => lineOfByte b == j && wrong.contains (k.dieAt stripe (b / 16), b % 16)).map fun b =>
    k.dieAt stripe (b / 16)

/-- The decoding of line `j` of a stripe. The syndromes tell of wrong symbols alone: up to 4 are corrected; more are, where one die's
erasure covers them all, so that the tag verifies for it and for no other (log entry 37). -/
def Stack.find (k : Stack) (stripe : Nat) (wrong : List (Nat × Nat)) (j : Nat) : LineFind :=
  let ds := k.wrongIn stripe wrong j
  if ds.isEmpty then .clean
  else if ds.length ≤ 4 then .outer
  else match ds.eraseDups with
    | [d] => .die d
    | _ => .bad

/-! ## The CXL tier (R285, R441) -/

/-- The address of a line in the tweak and the IV (R441): window offset and port. -/
def cxlLineAddr (port off : Nat) : Nat := off % 2 ^ 44 + port * 2 ^ 44

/-- A block of 36 KiB at a window offset: 512 lines of ciphertext, then 8 side bytes for each, in line order: tag and META. -/
def cxlBlockBytes (bed gen port off : Nat) (data : List Byte) : List Byte :=
  let ls := (List.range 512).map fun n =>
    sealedLine (parkKey bed) gen (cxlLineAddr port (off + 64 * n)) false ((data.drop (64 * n)).take 64)
  List.flatten (ls.map fun l => l.take 64) ++ List.flatten (ls.map fun l => (l.drop 64).take 8)

end Sys2Proof.Machine
end

