-- ==== Sys2Proof/Machine/Cxl.lean ====
section
/-! DEFINITION. The CXL ports: HDM decoders, extents, link, CXL.io and Rake (R282 to R284, R295 to R298, R303), and the
stacks: line decode, poison, sparing and Rake (R277 to R282, R304). -/

namespace Sys2Proof.Machine

/-- A register write by the host: the safe state discards it (R463). -/
def State.hostWrite (s : State) (f : State → State) : State := if s.flt.safe then s else f s

/-! ## HDM decoders (R284) -/

/-- 256 MiB. -/
def hdmUnit : Nat := 268435456

/-- A decoder's range in units: BASE and SIZE. -/
def State.hdmRange (s : State) (port k : Nat) : Nat × Nat :=
  (s.fget F.CXL_HDM_BASE_BASE port k, s.fget F.CXL_HDM_SIZE_SIZE port k)

/-- A decoder is committed. -/
def State.hdmOn (s : State) (port k : Nat) : Bool := s.fget F.CXL_HDM_CTRL_COMMITTED port k == 1

/-- Window bytes within committed decoders (R284). -/
def State.decoded (s : State) (port off len : Nat) : Bool :=
  (List.range (ceilDiv len hdmUnit)).all fun i =>
    (List.range 8).any fun k => s.hdmOn port k && decide ((s.hdmRange port k).1 ≤ off / hdmUnit + i) &&
      decide (off / hdmUnit + i < (s.hdmRange port k).1 + (s.hdmRange port k).2)

/-- A commit succeeds (R284): within the window, not empty, no overlap. -/
def State.hdmFits (s : State) (port k : Nat) : Bool :=
  let r := s.hdmRange port k
  decide (0 < r.2) && decide (r.1 + r.2 ≤ 65536) && (List.range 8).all fun j =>
    j == k || !s.hdmOn port j || decide (r.1 + r.2 ≤ (s.hdmRange port j).1) ||
      decide ((s.hdmRange port j).1 + (s.hdmRange port j).2 ≤ r.1)

/-- No extent lies in a decoder's range. -/
def State.hdmIdle (s : State) (port k : Nat) : Bool :=
  let r := s.hdmRange port k
  s.tiers.extents.all fun e => e.port != port || e.state == .free ||
    decide (e.off + e.len ≤ r.1 * hdmUnit) || decide ((r.1 + r.2) * hdmUnit ≤ e.off)

/-- The bytes of a decoder's three registers. -/
def State.hdmBytes (s : State) (port k : Nat) (ctrl : W32) : List Byte :=
  leBytes 4 (s.rdN .CXL_HDM_BASE port k) ++ leBytes 4 (s.rdN .CXL_HDM_SIZE port k) ++ leBytes 4 ctrl.toNat

/-- DETAIL of the journal entry of a CXL port register: class 3, and the register's offset in the port block (R87). -/
def cxlDetail (r : Reg) : Nat := 3 * 2 ^ 24 + r.name.place.off + r.name.place.stride * r.idx

/-- DETAIL of an extent's journal entry: class 4, and 0 for an add, 1 for a release, 2 for a loss (R87, R295). -/
def extDetail (k : Nat) : Nat := 4 * 2 ^ 24 + k

/-- A decoder may be committed, or uncommitted (R284, R303). -/
def State.hdmMay (s : State) (port k : Nat) (on : Bool) : Bool :=
  if on then !s.hdmOn port k && s.hdmFits port k else s.hdmOn port k && s.hdmIdle port k

/-- HDM_COMMIT (R284, R303): a write of COMMIT. A commit that cannot succeed, and an uncommit with an extent in the range,
change nothing. -/
def State.hdmCommit (s : State) (port k : Nat) (on : Bool) : State :=
  s.hostWrite fun s =>
    if !s.hdmMay port k on || !s.keep.ready then s else
      let r : Reg := ⟨.CXL_HDM_CTRL, port, k⟩
      let v : W32 := if on then 3 else 0
      let j := s.jDev 0x0008 0xFF (cxlDetail r) (port + 256 * k) (digest128 (s.hdmBytes port k (s.rd r)))
        (digest128 (s.hdmBytes port k v))
      s.submit { journal := [{ j with originType := 1 }], eff := .linkCtl r v }

/-- The commit once its entry is durable: it succeeds only if its range still fits, for the range may have been rewritten, or met
by another decoder's commit or an extent, since (R284, log entry 105). -/
def State.hdmDone (s : State) (r : Reg) (v : W32) : State := if s.hdmMay r.inst r.idx (v != 0) then s.wr r v else s

/-! ## Extents (R295 to R297) -/

/-- An extent in use. -/
def State.extent? (s : State) (port ix : Nat) : Option Extent :=
  s.tiers.extents.find? fun e => e.port == port && e.ix == ix && e.state != .free

/-- The lowest free index of a port. -/
def State.freeExtent (s : State) (port : Nat) : Option Nat := (List.range 64).find? fun i => (s.extent? port i).isNone

/-- Change an extent. -/
def State.updExtent (s : State) (port ix : Nat) (f : Extent → Extent) : State :=
  let es := updFirst (fun (e : Extent) => e.port == port && e.ix == ix) f s.tiers.extents
  { s with tiers := { s.tiers with extents := es } }

/-- Remove an extent. -/
def State.dropExtent (s : State) (port ix : Nat) : State :=
  { s with tiers := { s.tiers with extents := s.tiers.extents.filter fun e => !(e.port == port && e.ix == ix) } }

/-- OBJECT of an extent's journal entries (R295). -/
def extObject (port ix : Nat) : Nat := port + ix * 2 ^ 16

/-! Status values of the tier commands (R301). -/
namespace TierSt
def extentInvalid : Nat := 0x80
def extentState : Nat := 0x81
end TierSt

/-- The new extent of a CXL_EXTENT_ADD is acceptable (R295, R301). -/
def State.extentOk (s : State) (port off len : Nat) : Bool :=
  decide (port < 4) && decide (0 < len) && off % hdmUnit == 0 && decide (off + len ≤ 2 ^ 44) && s.decoded port off len &&
  s.tiers.extents.all (fun e => e.port != port || e.state == .free ||
    decide (off + len ≤ e.off) || decide (e.off + e.len ≤ off)) && (s.freeExtent port).isSome

/-- The owner that a CXL_EXTENT_ADD names: a configured Bed, or the device pool (R295, R512). -/
def State.ownerOk (s : State) (b : Nat) : Bool := b == 0xFF || (decide (b < 16) && s.bedConfigured b)

/-- CXL_EXTENT_ADD (R295, R301, R512). -/
def State.extentAdd (s : State) (d : Desc) : State :=
  let port := dArg d 48 1
  let off := dArg d 56 8
  let len := dArg d 52 4 * hdmUnit
  if !s.ownerOk (dArg d 49 1) then s.complete d St.bedAbsent
  else if !s.extentOk port off len then s.complete d TierSt.extentInvalid else
    let ix := (s.freeExtent port).getD 0
    s.submitCmd d [s.jCmd d 0x0008 0xFF (extDetail 0) (extObject port ix) 0 0] [] (.cmd d [] ix)

/-- CXL_EXTENT_ADD once durable. -/
def State.extentAddDone (s : State) (d : Desc) : State :=
  let port := dArg d 48 1
  let len := dArg d 52 4 * hdmUnit
  if !s.extentOk port (dArg d 56 8) len then s.complete d TierSt.extentInvalid else
    let ix := (s.freeExtent port).getD 0
    let e : Extent := { port := port, ix := ix, off := dArg d 56 8, len := len, owner := dArg d 49 1, state := .active }
    ({ s with tiers := { s.tiers with extents := s.tiers.extents ++ [e] } }).complete d St.ok ix

/-- CXL_EXTENT_RELEASE (R296, R301). -/
def State.extentRelease (s : State) (d : Desc) : State :=
  match s.extent? (dArg d 48 1) (dArg d 49 1) with
  | some e =>
    if e.state == .active then
      s.submitCmd d [s.jCmd d 0x0008 0xFF (extDetail 1) (extObject e.port e.ix) 0 0] [] (.cmd d [] 0)
    else s.complete d TierSt.extentState
  | none => s.complete d TierSt.extentState

/-- CXL_EXTENT_RELEASE once durable: DRAINING, and every set with a run in it is handled. -/
def State.extentReleaseDone (s : State) (d : Desc) : State :=
  match s.extent? (dArg d 48 1) (dArg d 49 1) with
  | some e =>
    if e.state == .active then
      let s := s.updExtent e.port e.ix fun e => { e with state := .draining, d := some d }
      let ts := s.tiers.sets.filter fun t => setIn e t
      let s := ts.foldl (fun s t => s.updSet t.ix fun t => { t with drain := true }) s
      ts.foldl (fun s t => s.drainSet t) s
    else s.complete d TierSt.extentState
  | none => s.complete d TierSt.extentState

/-- EXTENT_RELEASE_COMPLETE (R296). -/
def State.extentFree (s : State) (port ix : Nat) : State :=
  match s.extent? port ix with
  | some e =>
    if e.state == .draining && !(s.tiers.sets.any fun t => setIn e t) then
      let s := s.journal (s.jDev 0x0008 0xFF (extDetail 1) (extObject port ix) 0 0)
      (s.dropExtent port ix).complete? e.d St.ok e.relocated
    else s
  | none => s

/-- Forced removal of one extent (R297): the answer counts the sets lost. -/
def State.extentGone (s : State) (e : Extent) : Nat × State :=
  let ts := s.tiers.sets.filter fun t => setIn e t
  let s := ts.foldl (fun s t => s.loseSet t.ix) s
  let s := s.dropExtent e.port e.ix
  (ts.length, s.complete? e.d TierSt.extentState)

/-- Forced removal of every extent of a port, each transition journalled by the device (R295, R297). -/
def State.portGone (s : State) (port : Nat) : State :=
  (s.tiers.extents.filter fun e => e.port == port && e.state != .free).foldl (fun s e =>
    (s.journal (s.jDev 0x0008 0xFF (extDetail 2) (extObject e.port e.ix) 0 0)).extentGone e |>.2) s

/-- The extents a CXL_EXTENT_LOST names. -/
def State.lostExtents (s : State) (d : Desc) : List Extent :=
  s.tiers.extents.filter fun e => e.port == dArg d 48 1 && e.state != .free &&
    (dArg d 49 1 == 0xFF || e.ix == dArg d 49 1)

/-- CXL_EXTENT_LOST (R297, R301): it takes effect at the command, and it completes once its entries are durable; where they cannot
be written nothing changes (R88). -/
def State.extentLost (s : State) (d : Desc) : State :=
  let es := s.lostExtents d
  if es.isEmpty then s.complete d (if dArg d 49 1 = 0xFF then St.ok else TierSt.extentState)
  else if !s.keep.ready then s.complete d St.noResource
  else
    let js := es.map fun e => s.jCmd d 0x0008 0xFF (extDetail 2) (extObject e.port e.ix) 0 0
    let r := es.foldl (fun (a : Nat × State) e => let x := a.2.extentGone e; (a.1 + x.1, x.2)) (0, s)
    r.2.submitCmd d js [] (.complete d St.ok (BitVec.ofNat 64 r.1))

/-! ## Link (R303) -/

/-- CXL_LINK_DOWN (R297, R303). -/
def State.cxlLinkDown (s : State) (port : Nat) : State :=
  if s.fget F.CXL_STATUS_LINK_UP port = 0 then s else
    let s := ((s.fset F.CXL_STATUS_LINK_UP 0 port).fset F.CXL_STATUS_WIDTH 0 port).fset F.CXL_STATUS_RATE 0 port
    (s.setStatus F.CXL_EVENT_LINK_DOWN port).portGone port

/-- CXL_LINK_UP (R303): the link trained with a width and a rate. Training needs ENABLE and a port that is not fenced. -/
def State.cxlLinkUp (s : State) (port width rate : Nat) : State :=
  if s.fget F.CXL_CTRL_ENABLE port = 0 || s.flt.ports.contains (8 + port) || s.flt.safe then s else
    ((s.fset F.CXL_STATUS_LINK_UP 1 port).fset F.CXL_STATUS_WIDTH width port).fset F.CXL_STATUS_RATE rate port

/-- CXL_ENABLE (R303): a write of ENABLE is journalled and takes effect once durable. -/
def State.cxlEnable (s : State) (port : Nat) (on : Bool) : State :=
  s.hostWrite fun s =>
    if !s.keep.ready then s else
      let r : Reg := ⟨.CXL_CTRL, port, 0⟩
      let v : W32 := if on then 1 else 0
      let j := s.jDev 0x0008 0xFF (cxlDetail r) port (dig32 (s.rd r).toNat) (dig32 v.toNat)
      s.submit { journal := [{ j with originType := 1 }], eff := .linkCtl r v }

/-- The write of ENABLE once durable: 0 takes the link down. -/
def State.cxlEnableDone (s : State) (port : Nat) (v : W32) : State :=
  let s := s.wrN .CXL_CTRL v.toNat port
  if v = 0 then s.cxlLinkDown port else s

/-- CXL_POISON_READ (R298): a read of the image returned poison or a tag failure. -/
def State.cxlPoison (s : State) (port ix : Nat) : State :=
  match s.setIx? ix with
  | some t =>
    if t.tier = 1 && t.runs.any fun r => r.1 == port then
      (s.setStatus F.CXL_EVENT_POISON_READ port).loseSet ix
    else s
  | none => s

/-- CXL_IO_GO (R303): a write of GO starts the access the registers describe. -/
def State.cxlIoGo (s : State) (port : Nat) (v : W32) : State :=
  s.hostWrite fun s =>
    if s.fget F.CXL_IO_CTRL_BUSY port = 1 || F.CXL_IO_CTRL_GO.get v = 0 then s else
      let s := (s.fset F.CXL_IO_CTRL_OP (F.CXL_IO_CTRL_OP.get v) port).fset F.CXL_IO_CTRL_BE (F.CXL_IO_CTRL_BE.get v) port
      let a : CxlIo :=
        { port := port, op := F.CXL_IO_CTRL_OP.get v, be := F.CXL_IO_CTRL_BE.get v
          addr := BitVec.ofNat 64 (s.rd64 .CXL_IO_ADDR_LO .CXL_IO_ADDR_HI port), data := s.rd ⟨.CXL_IO_DATA, port, 0⟩ }
      let s := { s with tiers := { s.tiers with io := s.tiers.io ++ [a] } }
      s.fset F.CXL_IO_CTRL_BUSY 1 port

/-- CXL_IO_DONE (R303): the expander's answer, its data for a read that succeeded. -/
def State.cxlIoDone (s : State) (port result : Nat) (data : W32) : State :=
  match s.tiers.io.find? fun a => a.port == port with
  | none => s
  | some a =>
    let s := { s with tiers := { s.tiers with io := s.tiers.io.filter fun x => x.port != port } }
    let s := (s.fset F.CXL_IO_CTRL_BUSY 0 port).fset F.CXL_IO_CTRL_RESULT result port
    let s := if result = 0 && a.op % 2 = 0 then s.wrN .CXL_IO_DATA data.toNat port else s
    s.setStatus F.CXL_EVENT_IO_DONE port

/-- CXL_DEVICE_EVENT (R303). -/
def State.cxlDeviceEvent (s : State) (port : Nat) : State := s.setStatus F.CXL_EVENT_DEVICE_EVENT port

/-- CXL_RAKE_BLOCK (R282, R298): the Rake of a port reads the next block of an image; `bad` is a tag failure or poison. -/
def State.cxlRake (s : State) (port ix : Nat) (bad : Bool) : State :=
  match s.setIx? ix with
  | some t =>
    if t.tier != 1 || !(t.runs.any fun r => r.1 == port) || s.fget F.CXL_STATUS_LINK_UP port = 0 then s else
      let s := (s.bump64 .CXL_RD_BYTES_LO .CXL_RD_BYTES_HI port cxlBlock).count (28 + port) 0x34 0 (some t.bed) (cxlBlock / 64)
      let s := { s with tiers := { s.tiers with cxlRake := s.tiers.cxlRake.modify port (· + 1) } }
      if bad then s.cxlPoison port ix else s
  | none => s

/-! ## Stacks (R277 to R282, R304) -/

/-- Stripes of a stack: 96 GB in stripes of 192 bytes (R277, R281). -/
def stripeCount : Nat := 500000000

/-- A stack's record. -/
def State.stack (s : State) (r : Nat) : Stack := s.tiers.hbm.getD r {}

/-- Change a stack's record. -/
def State.updStack (s : State) (r : Nat) (f : Stack → Stack) : State :=
  { s with tiers := { s.tiers with hbm := s.tiers.hbm.modify r f } }

/-- A line of device-reserved memory is rewritten with zero data: the directory entry or the tensor-set entry that lies there is
gone, zero being FREE (R95, R287, R510). The C4 fault of such a line is a detection of its own (SOURCE 0x0043). -/
def State.loseReserved (s : State) (pa : Nat) : State :=
  let es := s.ses.entries.filter fun e => dirPa e.sid e.dslot != pa
  let ts := s.tiers.sets.filter fun t => setPa t.ix != pa
  { s with ses := { s.ses with entries := es }, tiers := { s.tiers with sets := ts } }

/-- A line is poisoned: rewritten with zero data and POISON (R279). -/
def State.poisonLine (s : State) (region line : Nat) : State :=
  let pa := region * 2 ^ 37 + 64 * line
  let l := pa / 64
  let near := Mem.clear s.mem.near pa 64
  let ps := l :: s.mem.poison.filter fun x => x != l
  let s := { s with mem := { s.mem with near := near, poison := ps } }
  let s := if reservedLine line then s.loseReserved pa else s
  (s.bump .RGN_MEM_POISONED region).setStatus F.RGN_MEM_STATUS_UNCORRECTED region

/-- SPARE_THRESH (R304). -/
def State.spareThresh (s : State) (r : Nat) : Nat := s.fget F.RGN_MEM_CTRL_SPARE_THRESH r

/-- The keep-store record of a stack's sparing (R280). -/
def State.spareRecord (s : State) (r : Nat) : KeepWrite :=
  let k := s.stack r
  let st := match k.spare with | .none => 0 | .copying => 1 | .done => 2
  { typ := 0x0050, key := BitVec.ofNat 64 r
    payload := [BitVec.ofNat 8 st, BitVec.ofNat 8 k.die, BitVec.ofNat 8 (k.ptr * 100 / stripeCount)] ++ leBytes 5 0 }

/-- Show a stack's sparing in RGN_MEM_SPARE and hand its record to the keep store. -/
def State.spareNote (s : State) (r : Nat) : State :=
  let k := s.stack r
  let st := match k.spare with | .none => 0 | .copying => 1 | .done => 2
  let s := ((s.fset F.RGN_MEM_SPARE_STATE st r).fset F.RGN_MEM_SPARE_DIE k.die r).fset F.RGN_MEM_SPARE_PROGRESS
    (k.ptr * 100 / stripeCount) r
  if s.keep.ready then s.submit { writes := [s.spareRecord r] } else s

/-- Sparing is due on a die of a stack (R280). -/
def State.spareDue (s : State) (r die : Nat) : State :=
  let k := s.stack r
  match k.spare with
  | .none =>
    let s := s.updStack r fun k => { k with spare := .copying, die := die, ptr := 0 }
    (s.setStatus F.RGN_MEM_STATUS_SPARE_START r).spareNote r
  | .copying => if k.die = die then s else s.setStatus F.RGN_MEM_STATUS_SPARE_NONE r
  | .done => s.setStatus F.RGN_MEM_STATUS_SPARE_NONE r

/-- Decode one line of a stack (R278). -/
def State.lineDecode (s : State) (region line : Nat) (f : LineFind) : State :=
  match f with
  | .clean => s
  | .outer => s.bump64 .RGN_MEM_OUTER_LO .RGN_MEM_OUTER_HI region
  | .die k =>
    let s := s.bump64 .RGN_MEM_OUTER_LO .RGN_MEM_OUTER_HI region
    let n := min 0xFFFF (s.fget F.RGN_MEM_DIE_ERR_VALUE region k + 1)
    let s := s.fset F.RGN_MEM_DIE_ERR_VALUE n region k
    if s.spareThresh region != 0 && n == s.spareThresh region then s.spareDue region k else s
  | .bad => s.poisonLine region line

/-- Decode a stripe: its three lines, and the inner corrections its dies report (R277, R278); `wrong` are the bytes that dies return
wrong. The dies of the whole stripe are those it has as the read begins (R280). -/
def State.stripeDecode (s : State) (region stripe inner : Nat) (wrong : List (Nat × Nat)) : State :=
  let k := s.stack region
  let s := s.bump64 .RGN_MEM_INNER_LO .RGN_MEM_INNER_HI region inner
  (List.range 3).foldl (fun s j => s.lineDecode region (3 * stripe + j) (k.find stripe wrong j)) s

/-- RAKE_STRIPE (R282): the region's Rake decodes the next stripe, unless the region is stopped; after the last stripe a new
pass starts and the counts of the pass clear (R304 RGN_MEM_DIE_ERR). -/
def State.rakeStripe (s : State) (region inner : Nat) (wrong : List (Nat × Nat)) : State :=
  if s.fget F.RGN_CLK_STATUS_STOPPED region = 1 || s.flt.safe then s else
    let at_ := (s.stack region).rake
    let s := (s.stripeDecode region at_ inner wrong).countFree region 0x12 0 none
    let next := if at_ + 1 = stripeCount then 0 else at_ + 1
    let s := (s.updStack region fun k => { k with rake := next }).fset F.RGN_RAKE_POS_PERCENT
      (next * 100 / stripeCount) region
    if next = 0 then (List.range 16).foldl (fun s k => s.fset F.RGN_MEM_DIE_ERR_VALUE 0 region k) s else s

/-- SPARE_NOW (R280, R304): a write of RGN_MEM_CTRL with SPARE_NOW. -/
def State.spareNow (s : State) (region die : Nat) : State :=
  s.hostWrite fun s =>
    let s := s.fset F.RGN_MEM_CTRL_SPARE_DIE die region
    match (s.stack region).spare with
    | .copying => s.setStatus F.RGN_MEM_STATUS_SPARE_NONE region
    | _ => s.spareDue region die

/-- SPARE_STRIPE_COPY (R280): the stripe at the pointer is decoded and its bytes of the failing die go to die 15, in one step, so that
no write to it falls between. A stopped region's
stack is in self-refresh (R31), and the copy waits. -/
def State.spareCopy (s : State) (region inner : Nat) (wrong : List (Nat × Nat)) : State :=
  let k := s.stack region
  if k.spare != .copying || s.fget F.RGN_CLK_STATUS_STOPPED region == 1 || s.flt.safe then s else
    let s := (s.stripeDecode region k.ptr inner wrong).countFree region 0x12 0 none
    let next := k.ptr + 1
    if next = stripeCount then
      let s := s.updStack region fun k => { k with spare := .done, ptr := next }
      (s.setStatus F.RGN_MEM_STATUS_SPARE_DONE region).spareNote region
    else
      let s := s.updStack region fun k => { k with ptr := next }
      if next * 100 / stripeCount != k.ptr * 100 / stripeCount then s.spareNote region else s

end Sys2Proof.Machine
end

