-- ==== Sys2Proof/Machine/FaultOps.lean ====
section
/-! DEFINITION. The fault collector: classes, records, first-error capture, fences, the stop of a Bed and the safe state
(R457 to R466). -/

namespace Sys2Proof.Machine

/-- The class of a SOURCE (R458); none for a code that the table does not hold. -/
def faultClass (source : Nat) : Option Nat :=
  if 0x01 ≤ source && source ≤ 0x06 then some 0
  else if 0x10 ≤ source && source ≤ 0x16 then some 1
  else if (0x20 ≤ source && source ≤ 0x28) then some 2
  else if 0x30 ≤ source && source ≤ 0x33 then some 3
  else if 0x40 ≤ source && source ≤ 0x46 then some 4
  else none

/-- The LEVEL of a detection (R458, R464): 0 unit, 1 cluster, 2 region, 3 die, 4 package; a port counts with its die. -/
def faultLevel (f : Detect) : Nat :=
  match f.source with
  | 0x01 | 0x02 | 0x13 | 0x14 | 0x20 | 0x21 | 0x23 | 0x24 | 0x43 => 2
  | 0x04 | 0x05 | 0x15 | 0x16 | 0x25 | 0x26 | 0x27 | 0x28 | 0x44 => 3
  | 0x10 | 0x11 | 0x12 => 0
  | 0x22 => 1
  | 0x03 => f.level
  | _ => 4

/-- The region a LOCATION lies in, for the levels that lie in one: 64 units and 8 clusters to a region. -/
def faultRegion (f : Detect) : Option Nat :=
  match faultLevel f with
  | 0 => some (f.location / 64)
  | 1 => some (f.location / 8)
  | 2 => some f.location
  | _ => none

/-- The die of a LOCATION at die level: a Plowald port, a CXL port, a flash stack or a die (R464). -/
def faultDie (f : Detect) : Nat :=
  match f.source with
  | 0x04 | 0x26 => if f.location < 8 then f.location / 2 else f.location - 8
  | 0x16 => f.location - 8
  | 0x05 | 0x15 | 0x27 | 0x44 => (f.location - 16) / 2
  | _ => f.location

/-- The Frame Time of a detection and HUB_STAMP (R464, R466): the hub stamps for a replica that does not (R51, R52). -/
def State.faultStamp (s : State) (f : Detect) : W64 × Bool :=
  if f.source == 0x20 || f.source == 0x28 then (s.now, true) else
    match faultRegion f with
    | some r => s.stamp (.region r)
    | none => if faultLevel f = 3 then s.stamp (.die (faultDie f)) else (s.now, false)

/-- The 64-byte image of a record (R464). -/
def faultBytes (r : FaultRec) : List Byte :=
  leBytes 8 r.ft.toNat ++ [BitVec.ofNat 8 r.cls,
    BitVec.ofNat 8 ((if r.hubStamp then 1 else 0) + (if r.escalated then 2 else 0) + (if r.injected then 4 else 0))] ++
  leBytes 2 r.source ++ [BitVec.ofNat 8 r.level, BitVec.ofNat 8 r.bed] ++ leBytes 2 r.location ++
  leBytes 8 r.address.toNat ++ [BitVec.ofNat 8 r.space, BitVec.ofNat 8 r.access] ++ leBytes 2 r.master ++
  leBytes 4 r.seq.toNat ++ leBytes 4 r.jobId.toNat ++ leBytes 8 r.sid.toNat ++ leBytes 4 r.detail.toNat ++
  leBytes 8 r.repeats ++ leBytes 8 0

/-- Copy a record into the first-error registers (R465). -/
def State.captureFirst (s : State) (reg : RN) (inst : Nat) (r : FaultRec) : State :=
  let bs := faultBytes r
  (List.range 16).foldl (fun s k => s.wrN reg (bytesAt bs (4 * k) 4) inst k) s

/-- Set the status bits of a class (R469): of the device, and of the Bed for classes C0, C1 and C3; C2 of a Bed says that a region
of it was fenced (R473). -/
def State.faultStatus (s : State) (cls : Nat) (bed : Option Nat) : State :=
  let s := s.setStatus F.FLT_STATUS_C0 0 cls
  match bed with
  | some b => if cls < 4 && cls != 2 && b < 16 then s.setStatus F.FLT_BED_STATUS_C0 b cls else s
  | none => s

/-- A detection repeats a record less than 48 ft old (R464). -/
def State.repeatOf (s : State) (source location : Nat) (ft : W64) : Option FaultRec :=
  s.flt.log.find? fun r => r.source == source && r.location == location && !ftReached ft (ftAdd r.ft 48)

/-- Write a record (R464): the log holds 256, and a record of C2 or above also goes to the keep store. -/
def State.logFault (s : State) (r : FaultRec) : State :=
  let full := 256 ≤ s.flt.log.length
  let log := lastN 256 (s.flt.log ++ [r])
  let s := { s with flt := { s.flt with
    log := log, nextSeq := s.flt.nextSeq + 1, classMax := max s.flt.classMax r.cls } }
  let s := s.wrN .FLT_LOG_SEQ r.seq.toNat 0
  let s := if full then s.setStatus F.FLT_STATUS_LOG_OVERFLOW 0 else s
  if 2 ≤ r.cls && s.keep.ready then
    s.submit { writes := [{ typ := 0x0020, key := BitVec.ofNat 64 (r.seq.toNat % 1024), payload := faultBytes r }] }
  else s

/-- First-error capture (R465). -/
def State.firstError (s : State) (r : FaultRec) : State :=
  if r.cls = 0 then s else
    let s := if s.flt.armed then
        (let s := { s with flt := { s.flt with armed := false } }; s.captureFirst .FLT_FIRST 0 r)
      else s
    if s.flt.armedBeds.contains r.bed then
      let s := { s with flt := { s.flt with armedBeds := s.flt.armedBeds.filter fun b => b != r.bed } }
      s.captureFirst .FLT_BED_FIRST r.bed r
    else s

/-- Classify, count and record a detection (R458, R464, R465). -/
def State.recordFault (s : State) (f : Detect) (cls : Nat) (escalated injected : Bool) : State :=
  let st := s.faultStamp f
  let s := (s.bump .FLT_COUNT_C 0 1 cls).faultStatus cls f.bed
  let r : FaultRec :=
    { ft := st.1, cls := cls, hubStamp := st.2, escalated := escalated, injected := injected, source := f.source
      level := faultLevel f, bed := f.bed.getD 0xFF, location := f.location, address := f.address, space := f.space
      access := f.access, master := f.master, seq := s.flt.nextSeq, jobId := f.jobId, sid := f.sid, detail := f.detail }
  let s := s.firstError r
  if cls = 0 && s.fget F.FLT_CTRL_RECORD_C0 0 = 0 then s
  else match s.repeatOf f.source f.location st.1 with
    | some o =>
      let log := updFirst (fun x => x.seq == o.seq) (fun x => { x with repeats := x.repeats + 1 }) s.flt.log
      { s with flt := { s.flt with log := log } }
    | none => s.logFault r

/-! ## Reactions -/

/-- Status value of a failed built-in test (R471). -/
def testFailed : Nat := 0x80

/-- A detection aborts a recovery of the same region or unit (R466). -/
def State.abortTests (s : State) (regions units : List Nat) : State :=
  let rs := s.flt.regionTests.filter fun t => regions.contains t.1
  let us := s.flt.unitTests.filter fun t => units.contains t.1
  let s := { s with flt := { s.flt with
    regionTests := s.flt.regionTests.filter fun t => !regions.contains t.1
    unitTests := s.flt.unitTests.filter fun t => !units.contains t.1 } }
  (rs ++ us).foldl (fun s t => s.complete? t.2 testFailed) s

/-- The Bed digest (R435): SHA-256 over bytes 0 to 15 of its record in the current bundle. -/
def bedRecord (bundle : List Byte) (bed : Nat) : Option (List Byte) :=
  ((List.range (bytesAt bundle 6 1)).map fun i => (bundle.drop (512 + 512 * i)).take 512).find? fun r => bytesAt r 0 1 == bed

/-- The 32 bytes of the Bed digest; zeros where the bundle has no record of the Bed. -/
def bedDigest (bundle : List Byte) (bed : Nat) : List Byte :=
  match bedRecord bundle bed with
  | some r => sha256 (r.take 16)
  | none => List.replicate 32 0

/-- The first 128 bits of a digest (R85). -/
def digestHead (bs : List Byte) : W128 := BitVec.ofNat 128 (bytesAt bs 0 16)

/-- The journal entry of a partition reset (R88, R453). -/
def State.resetEntry (s : State) (d : Option Desc) (bed : Nat) : JEntry :=
  let dig := digestHead (bedDigest s.sec.bundle bed)
  match d with
  | some d => s.jCmd d 0x0005 bed 4 bed dig dig
  | none => s.jDev 0x0005 bed 4 bed dig dig

/-- A partition reset that the device starts by itself (R462): the sequencer enters TRANSITION as for SEC_PARTITION_RESET, unless
another transition runs. -/
def State.autoReset (s : State) (bed : Nat) : State :=
  let s := if s.fget F.SEC_STATE_SEQ 0 = 4 then
      State.fset { s with sec := { s.sec with trans := some { beds := [bed] } } } F.SEC_STATE_SEQ 5 0
    else s
  s.submit { journal := [s.resetEntry none bed], eff := .bedRestart bed }

/-- A C3 fault stops a Bed (R462): its commands complete with FENCED, and a change of theirs that still waits for the keep store
is not made (R71). -/
def State.stopBed (s : State) (bed : Nat) : State :=
  if s.flt.fatalBeds.contains bed then s else
    let s := { s with flt := { s.flt with fatalBeds := bed :: s.flt.fatalBeds } }
    let s := s.fset F.FLT_BED_STATE_FATAL 1 bed
    let ds := s.host.inflight.filter fun i => dBed i.desc == some bed
    let s := ds.foldl (fun s i => s.complete i.desc St.fenced) s
    let s := { s with keep := { s.keep with queue := s.keep.queue.filter fun i =>
      !((effDesc i.eff).any fun d => dBed d == some bed) } }
    if s.fget F.FLT_CTRL_AUTO_PARTITION_RESET 0 = 1 && s.keep.ready then s.autoReset bed else s

/-- A C3 fault of a Bed, recorded and reacted to. -/
def State.raiseBed (s : State) (source bed : Nat) : State :=
  (s.recordFault { source := source, bed := some bed, location := bed } 3 true false).stopBed bed

/-- Fence a region (R461): its entries are abandoned, its tensors and its prefix nodes are lost, its Graft versions are
removed; a Bed with every region fenced, or whose range table lies here, has a C3 fault (R458). -/
def State.fenceRegion (s : State) (r : Nat) : State :=
  if s.flt.regions.contains r then s else
    let s := s.abandonAll fun w => w.region == r
    let s := { s with flt := { s.flt with regions := r :: s.flt.regions } }
    let hit := fun (q : Seq) => q.region == r || (q.leaves.any fun l => paRegion l.frame == r) ||
      q.tables.any fun t => paRegion t == r
    let s := (s.kv.seqs.filter hit).foldl (fun s q => s.lostTensors q.sid) s
    let ns := s.kv.nodes.filter fun n => n.frames.any fun f => paRegion f.1 == r
    let s := ns.foldl (fun s n => s.removeNode n.bed n.ix) s
    let gs := s.grafts.filter fun g => g.near.any fun a => paRegion a == r
    let s := gs.foldl (fun s g => s.removeGraft g) s
    match s.bedOfRegion r with
    | none => s
    | some b =>
      let s := s.setStatus F.FLT_BED_STATUS_C0 b 2
      let s := if (s.regionsOf b).all fun x => s.flt.regions.contains x then s.raiseBed 0x30 b else s
      if (s.regionsOf b).head? == some r then s.raiseBed 0x31 b else s

/-- UNIT_LIMIT (R472). -/
def State.unitLimit (s : State) : Nat :=
  let v := s.fget F.FLT_CTRL_UNIT_LIMIT 0
  if v = 0 then 1 else min v 64

/-- Fence a unit (R460): its running command is aborted, and the entry it belongs to is abandoned; the region is fenced when
its fenced units reach UNIT_LIMIT. In a fenced region nothing more is fenced (R466). -/
def State.fenceUnit (s : State) (u : Nat) (sid : W64) : State :=
  if s.flt.regions.contains (u / 64) then s else
  let s := if s.flt.units.contains u then s else { s with flt := { s.flt with units := u :: s.flt.units } }
  let s := s.abandonAll fun w => w.sid == sid && w.region == u / 64
  if s.unitLimit ≤ (s.flt.units.filter fun x => x / 64 == u / 64).length then
    let d : Detect := { source := 0x23, location := u / 64, bed := s.bedOfRegion (u / 64) }
    (s.recordFault d 2 true false).fenceRegion (u / 64)
  else s

/-- Fence a port (R461): a Plowald port goes to DISABLED, a CXL port loses its extents. -/
def State.fencePort (s : State) (port : Nat) : State :=
  let s := if s.flt.ports.contains port then s else { s with flt := { s.flt with ports := port :: s.flt.ports } }
  if port < 8 then s.plwFence port else (s.cxlLinkDown (port - 8)).portGone (port - 8)

/-- Fence a flash stack (R461). -/
def State.fenceStack (s : State) (i : Nat) : State :=
  if s.flt.flashOff.contains i then s else
    let s := { s with flt := { s.flt with flashOff := i :: s.flt.flashOff } }
    let hit := fun (t : TensorSet) => t.state != .free && t.tier == 2 &&
      (List.range (lbCount t.length)).any fun k => (t.mulch.toNat / lbBytes + k) % 8 == i
    let s := (s.tiers.sets.filter hit).foldl (fun s t => s.loseSet t.ix) s
    s.transcriptsLost i

/-- Every region of a die. -/
def dieRegions (q : Nat) : List Nat := (List.range 4).map fun k => 4 * q + k

/-- Fence every region of a die whose services or replica failed; each Bed with a region here sees it (R458, R473). -/
def State.fenceDie (s : State) (q : Nat) : State :=
  let s := { s with flt := { s.flt with dies := q :: s.flt.dies } }
  (dieRegions q).foldl (fun s r => s.fenceRegion r) s

/-- The safe state (R463). One message goes out on vector 1 of the physical function: that of FLT_STATUS.C4 where FLT_ENABLE let it
out already (`told`). -/
def State.enterSafe (s : State) (told : Bool := false) : State :=
  if s.flt.safe then s else
    let s := { s with flt := { s.flt with safe := true } }
    let s := (List.range 8).foldl (fun s p => s.plwOff p) s
    let s := (List.range 4).foldl (fun s p =>
      ((s.fset F.CXL_STATUS_LINK_UP 0 p).fset F.CXL_STATUS_WIDTH 0 p).fset F.CXL_STATUS_RATE 0 p) s
    let s := s.fset F.SEC_STATE_SEQ 6 0
    if told then s else s.msix 0 1

/-- Sessions whose tensors a C1 data fault concerns (R206, R279, R111). -/
def State.dataFault (s : State) (f : Detect) : State :=
  match s.owner? f.sid with
  | some e =>
    let s := if f.source == 0x14 then s.setStatus F.KV_STATUS_MAP_LOST e.bed else s
    s.lostTensors f.sid
  | none => s

/-- The reaction to a detection (R458, R460 to R463). -/
def State.react (s : State) (f : Detect) : State :=
  match f.source with
  | 0x10 | 0x11 | 0x12 => s.fenceUnit f.location f.sid
  | 0x13 | 0x14 => s.dataFault f
  | 0x20 | 0x21 | 0x23 | 0x24 => s.fenceRegion f.location
  | 0x22 => s.fenceRegion (f.location / 8)
  | 0x25 => s.fenceDie f.location
  | 0x28 => ((s.fenceDie f.location).fencePort (2 * f.location)).fencePort (2 * f.location + 1)
  | 0x26 => s.fencePort f.location
  | 0x27 => s.fenceStack (f.location - 16)
  | 0x30 | 0x31 | 0x32 | 0x33 => s.stopBed (f.bed.getD f.location)
  | 0x40 | 0x42 | 0x43 | 0x44 | 0x45 | 0x46 => s.enterSafe (bitSet (s.fget F.FLT_ENABLE_INT 0) 4)
  | _ => s

/-- A line's tag failed (R440): it counts, and the line is treated as uncorrectable (R279). -/
def State.tagFailure (s : State) (f : Detect) : State :=
  let s := (s.bump64 .SEC_TAG_FAIL_LO .SEC_TAG_FAIL_HI 0).setStatus F.SEC_STATUS_TAG_FAIL 0
  let s := match f.bed with
    | some b => (s.bump .SEC_BED_TAG_FAIL b).setStatus F.SEC_BED_STATUS_TAG_FAIL b
    | none => s
  if f.space == 1 && Nat.blt (paRegion f.address.toNat) 16 then
    s.poisonLine (paRegion f.address.toNat) (f.address.toNat % 2 ^ 37 / 64)
  else s

/-- A detection of C1 or above in a region aborts a recovery of the region, and of the unit it names (R466). -/
def State.abortedBy (s : State) (f : Detect) (cls : Nat) : State :=
  if cls = 0 then s else
    match faultRegion f with
    | some r => s.abortTests [r] (if faultLevel f = 0 then [f.location] else [])
    | none => s

/-- A detection reaches the collector (R458). A collector self-fault enters the safe state without a record (R465). -/
def State.raise (s : State) (f : Detect) (injected : Bool := false) : State :=
  if f.source == 0x41 then (s.setStatus F.FLT_STATUS_SELF 0).enterSafe else
    match faultClass f.source with
    | none => s
    | some cls =>
      let s := if f.source == 0x13 && f.tagFail && !injected then s.tagFailure f else s
      ((s.recordFault f cls false injected).abortedBy f cls).react f

end Sys2Proof.Machine
end

