-- ==== Sys2Proof/Machine/Retire.lean ====
section
/-! DEFINITION. Erases of flash blocks, the flash Rake, lost pages and the retirement of blocks (R309, R318, R321, R322). -/

namespace Sys2Proof.Machine

/-! ## Erases (R318, R322) -/

/-- The live records of an append-log block that is erased move to the log head (R322). -/
def State.moveAppend (s : State) (i k : Nat) : State :=
  let live := s.liveAppend i k
  let s := s.updFlash i fun f => { f with appLog := f.appLog.filter fun r => r.block != k }
  let s := if (s.flashCtl i).appHead.1 = k then s.appendNext i else s
  (appendPack live.length live).foldl (fun s rs => s.appendPage i false rs) s

/-- The append-log block that a physical block is. -/
def Flash.appendBlock? (f : Flash) (phys : Nat) : Option Nat := (List.range 64).find? fun k => f.appendPhys k == phys

/-- The keep-store block that a physical block of a stack is (R308): its bank and number. -/
def Flash.keepBlock? (f : Flash) (i phys : Nat) : Option (Bool × Nat) :=
  if i = 0 || i = 4 then ((List.range 64).find? fun k => f.keepPhys k == phys).map fun k => (i == 4, k) else none

/-- BLOCK_ERASE (R318, R322): a block that waits for its erase. -/
def State.blockErase (s : State) (i phys : Nat) : State :=
  if !(s.flashCtl i).stale.contains phys then s else
    let s := match (s.flashCtl i).appendBlock? phys with
      | some k => s.moveAppend i k
      | none => s
    (s.eraseBlock i phys).discardErased i phys

/-! ## Retirement (R309) -/

/-- Spares left (R309, R330). -/
def Flash.sparesLeft (f : Flash) : Nat :=
  1536 - ((f.spares.filter fun x => poolOf x.1 == 2).length + (f.retired.filter fun p => poolOf p == 2 &&
    f.spares.all fun x => x.1 != p).length)

/-- Fewer than 64 spares are left (R309). -/
def Flash.sparesLow (f : Flash) : Bool := decide (f.sparesLeft < 64)

/-- The next spare: a block of the spare pool, or on a stack without keep-store blocks one of those (R308). -/
def Flash.spareNext (f : Flash) (i : Nat) : Option Nat :=
  let ok := fun (p : Nat) => !f.retired.contains p && f.spares.all fun x => x.1 != p
  match firstFrom 0 (fun k => ok (64 * (72 + k / 64) + k % 64)) 1536 with
  | some k => some (64 * (72 + k / 64) + k % 64)
  | none =>
    if i = 0 || i = 4 then none
    else ((List.range 64).map fun k => 64 * (k / 16) + k % 16).find? ok

/-- Blocks of a stack (R305). -/
def stackBlocks : Nat := 79488

/-- The current pages of a failing data or log block move as a refresh (R309). A copy of its logical block that runs already is the one
that moves them; another keeps running. `none` where no data block is free. -/
def State.rescue (s : State) (i : Nat) (b : LBlock) : Option State :=
  let f := s.flashCtl i
  if f.copy.any fun c => c.lb == b.lb && c.dest != b.phys then some (s.compostComplete i)
  else
    (f.leastWorn 0).map fun d =>
      let c := s.copyOf i b .refresh d
      State.applyDue ((s.updFlash i fun f => { f with nextMove := (f.nextMove + 1) % 2 ^ 32 }).finishCopy i c) c.lb

/-- The current pages of a failing block move: data and log pages as a refresh, append records to the log head, keep-store records to
the other bank (R309). -/
def State.vacate (s : State) (i phys : Nat) : Option State :=
  let f := s.flashCtl i
  match f.map.find? fun b => b.phys == phys || b.log == some phys with
  | some b => s.rescue i b
  | none =>
    match f.appendBlock? phys, f.keepBlock? i phys with
    | some k, _ => some (s.moveAppend i k)
    | none, some (bank, k) =>
      let next := (k + 1) % 64
      let s := if (s.keep.pageOf bank).1 / 512 = k then
          State.keepReclaim { s with keep := s.keep.setPage bank (512 * next, 0) } bank next
        else s
      some (s.keepReclaim bank k)
    | none, none => some s

/-- A block takes the role of another (R309): where that is a fixed system block, under its number. -/
def Flash.takeRole (f : Flash) (phys p : Nat) : Flash :=
  let fixed := match f.subst.find? fun x => x.2 == phys with | some x => x.1 | none => phys
  { f with spares := (p, f.roleOf phys) :: f.spares.filter fun x => x.1 != phys && x.1 != p
           subst := if f.roleOf phys = 3 then (fixed, p) :: f.subst.filter fun x => x.1 != fixed else f.subst }

/-- A retirement without a spare (R309): the Mulch loses a free logical block, and a data block takes the role of a block of another
pool. With no logical block free the stack is lost. -/
def State.retireBare (s : State) (i phys : Nat) : State :=
  let f := s.flashCtl i
  let room := decide (s.lbMapped i + f.lostLogical < 73472)
  let s := s.updFlash i fun f => { f with lostLogical := f.lostLogical + 1 }
  let s := match f.leastWorn 0 with
    | some p => if f.roleOf phys = 0 then s else s.updFlash i fun f => f.takeRole phys p
    | none => s
  if room then s else s.raise { source := if i % 4 = 0 then 0x44 else 0x27, location := 16 + i }

/-- A block is retired: a spare takes its role (R309). -/
def State.retireBlock (s : State) (i phys : Nat) : State :=
  let spare := (s.flashCtl i).spareNext i
  let s := s.updFlash i fun f => { f with
    retired := phys :: f.retired, stale := f.stale.filter fun p => p != phys
    copy := f.copy.filter fun c => c.dest != phys }
  let s := s.setStatus F.FL_STATUS_BAD_BLOCK i
  let s := match spare with
    | some p => s.updFlash i fun f => f.takeRole phys p
    | none => s.retireBare i phys
  let low := (s.flashCtl i).sparesLow
  let s := if low then s.setStatus F.FL_STATUS_SPARES_LOW i else s
  if s.keep.ready then s.keepSave (s.poolRecord i) else s

/-- FLASH_OP_FAILURE (R309): the block's current pages move, then a spare takes its role. Where no data block is free for the pages, they
wait as a refresh. -/
def State.flashOpFailure (s : State) (i phys : Nat) : State :=
  if (s.flashCtl i).retired.contains phys || decide (stackBlocks ≤ phys) then s
  else match s.vacate i phys with
    | some s => (s.discardErased i phys).retireBlock i phys
    | none => s.updFlash i fun f => { f with refresh := (f.refresh ++ ((f.map.filter fun b => b.phys == phys || b.log == some phys).map
        fun b => b.lb)).eraseDups }

/-! ## Lost pages and the flash Rake (R321) -/

/-- An uncorrectable page of a logical block: the transcript or the set that it belongs to is lost (R321). -/
def State.blockPageLost (s : State) (i phys page : Nat) (b : LBlock) : State :=
  let lpage := if b.phys = phys then page else b.logMap.getD page 0
  let current := if b.phys = phys then !b.logMap.contains page
    else !(b.logMap.drop (page + 1)).contains lpage
  if !current then s else
  match b.kind with
  | .record =>
    match s.ses.transcripts.find? fun t => t.pages.any fun p => p.place == b.lb * 1536 + lpage with
    | some t => s.transcriptLost t.sid
    | none => s
  | _ =>
    let s := s.updFlash i fun f => { f with bad := b.lb :: f.bad }
    match s.tiers.sets.find? fun t => t.state != .free && t.tier == 2 && decide (t.mulch.toNat / lbBytes ≤ b.lb) &&
        decide (b.lb < t.mulch.toNat / lbBytes + lbCount t.length) with
    | some t => s.loseSet t.ix
    | none => s

/-- An uncorrectable keep-store page: the records in it are torn (R321, R326). -/
def State.keepPageLost (s : State) (i page : Nat) (bank : Bool) (k : Nat) : State :=
  let hit := fun (r : KeepRec) => r.bank == bank && r.page == 512 * k + page
  let s := if s.keep.records.any hit then s.setStatus F.FL_STATUS_KEEP_TORN i else s
  { s with keep := { s.keep with records := s.keep.records.filter fun r => !hit r } }

/-- What the loss of a page means (R321); the second uncorrectable page read of a block since its last erase retires it (R309). -/
def State.pageLost (s : State) (i phys page : Nat) : State :=
  let f := s.flashCtl i
  let n := Table.get f.unc 0 phys + 1
  let s := (s.setStatus F.FL_STATUS_UNCORRECTED i).bump .FL_UNCORRECTED i
  let s := s.updFlash i fun f => { f with unc := Table.set f.unc 0 phys n }
  let s := match f.map.find? fun b => b.phys == phys || b.log == some phys with
    | some b => s.blockPageLost i phys page b
    | none =>
      match f.keepBlock? i phys with
      | some (bank, k) => s.keepPageLost i page bank k
      | none => s
  if 2 ≤ n then s.flashOpFailure i phys else s

/-- Programmed pages of a stack in ascending physical block order. -/
def State.programmed (s : State) (i : Nat) : List PageRun :=
  sortBy (fun a b => decide (a.phys * 1536 + a.page ≤ b.phys * 1536 + b.page)) (s.flashCtl i).prog

/-- A page of a run, in the order of the Rake. -/
def PageRun.at_ (r : PageRun) : Nat := r.phys * 1536 + r.page

/-- FLASH_RAKE_PAGE (R321): the next programmed page is read; `bits` is the largest number of errors corrected in one of its
LDPC blocks, `bad` that it stays uncorrectable after read-retry. -/
def State.flashRakePage (s : State) (i bits : Nat) (bad : Bool) : State :=
  if s.flt.flashOff.contains i then s else
  let ps := s.programmed i
  let pos := (s.flashCtl i).rake
  let next := match ps.find? fun r => decide (pos < r.at_ + r.count) with
    | some r => some (r, max pos r.at_)
    | none => ps.head?.map fun r => (r, r.at_)
  match next with
  | none => s
  | some (r, a) =>
    let before := ((ps.filter fun y => y.at_ < r.at_).map fun y => y.count).sum + (a - r.at_) + 1
    let s := s.updFlash i fun f => { f with rake := a + 1 }
    let s := s.fset F.FL_RAKE_POS_PERCENT (before * 100 / max 1 (ps.map fun y => y.count).sum) i
    let s := s.flashRead i r.phys 1
    let limit := min 120 (s.fget F.FL_REFRESH_BITS_VALUE i)
    let s := if limit < bits then
        match (s.flashCtl i).map.find? fun b => b.phys == r.phys || b.log == some r.phys with
        | some b => s.updFlash i fun f => { f with
            refresh := if f.refresh.contains b.lb then f.refresh else f.refresh ++ [b.lb] }
        | none => s
      else s
    if bad then s.pageLost i r.phys (a - r.phys * 1536) else s

end Sys2Proof.Machine
end

