-- ==== Sys2Proof/Machine/FrameTime.lean ====
section
/-! DEFINITION. Frame Time (R39 to R58, R508) and the region clocks (R30 to R34). -/

namespace Sys2Proof.Machine

/-! ## States (R44) -/

namespace Fs
def free : Nat := 0
def acquiring : Nat := 1
def locked : Nat := 2
def holdover : Nat := 3
end Fs

/-- The state of the hub state machine (R55). -/
def State.ftState (s : State) : Nat := s.fget F.FT_STATUS_STATE 0

/-- FT_CTRL.SOURCE as it behaves: 0 fabric, 1 host, 2 free-running (R54). -/
def State.ftSource (s : State) : Nat := min 2 (s.fget F.FT_CTRL_SOURCE 0)

/-- A 32-bit register as a signed number. -/
def State.rdInt (s : State) (n : RN) : Int := (s.rd ⟨n, 0, 0⟩).toInt

/-- F, in parts per 10^9 (R508). -/
def State.freq (s : State) : Int := s.rdInt .FT_FREQ_OFFSET

/-- The largest correction (R42). -/
def maxPpb : Int := 500000

/-- The node is serving (R43). -/
def State.serving (s : State) : Bool :=
  (s.ses.entries.any fun e => (e.isOwner && e.state != .free) || e.isHome) ||
  (List.range 17).any fun fn => s.fget F.IF_STATE_OPEN fn == 1

/-- Change the Frame Time part. -/
def State.updTime (s : State) (f : FrameTime → FrameTime) : State := { s with time := f s.time }

/-! ## Journal entries (R86) -/

/-- A Frame Time entry: DETAIL, the FT before and after a step. -/
def State.ftEntry (s : State) (origin : Nat × Nat) (detail : Nat) (old new : W64) : State :=
  let j := s.jDev 0x0009 0xFF detail 0 (BitVec.ofNat 128 old.toNat) (BitVec.ofNat 128 new.toNat)
  s.journal { j with originType := origin.1, originId := origin.2 }

/-- The origin of what the fabric, the physical function and the device do (R44, R85). -/
def State.byFabric (s : State) : Nat × Nat := (3, s.fget F.FT_REF_NODE_NODE_ID 0)
def byPf : Nat × Nat := (1, 0)
def byDevice : Nat × Nat := (0, 0)

/-- The state machine enters a state (R44); the entry of a state it is in changes nothing. Time in FREE or HOLDOVER ends the
pair of exchanges of R508. -/
def State.ftGo (s : State) (new : Nat) (origin : Nat × Nat) : State :=
  let old := s.ftState
  if old = new then s else
    let s := s.fset F.FT_STATUS_STATE new 0
    let s := s.updTime fun t => { t with
      lockRun := 0, since := t.hub, prev := if new = Fs.free || new = Fs.holdover then none else t.prev }
    s.ftEntry origin (1 + 256 * old + 65536 * new) 0 0

/-! ## Advance, steps and slewing (R42, R43, R508) -/

/-- What a nominal advance becomes under a correction in parts per 10^9. The spec fixes no rounding within a time word: each advance is
rounded down to whole fraction units, a DESIGN CHOICE (log entry 103). -/
def corrected (dt : Nat) (ppb : Int) : Int := (dt : Int) * (1000000000 + ppb) / 1000000000

/-- The applied correction (R508). -/
def State.applied (s : State) : Int :=
  if 0 < s.time.slew then -maxPpb else if s.time.slew < 0 then maxPpb else s.freq

/-- A replica takes a time word: a synchronised one steers to the hub and never decreases (R49); one that a reset left loads the
word and is synchronised with the third (R51, R56). -/
def steer (hub : W64) (r : Replica) : Replica :=
  if r.failed then r
  else if r.synced then (if ftLater hub r.count then { r with count := hub } else r)
  else if r.track = 0 then r
  else { r with count := hub, track := r.track - 1, synced := r.track == 1 }

/-- Every replica takes a time word (R49); a stopped or resynchronising region's does not. -/
def State.steerAll (s : State) : State :=
  s.updTime fun t => { t with regions := t.regions.map (steer t.hub), dies := t.dies.map (steer t.hub) }

/-- The hub FT advances by `dt` fraction units of the nominal rate (R42). A slew in progress moves towards zero by what the
applied correction removes, and stops there (R508). -/
def State.advance (s : State) (dt : Nat) : State :=
  let underF := corrected dt s.freq
  let cut := underF - corrected dt s.applied
  let rest := s.time.slew
  let cut := if 0 < rest then min cut rest else if rest < 0 then max cut rest else 0
  s.updTime fun t => { t with
    hub := t.hub + BitVec.ofInt 64 (underF - cut), slew := t.slew - cut, removed := t.removed + cut }

/-- TIME_WORD (R49): the hub FT has advanced since the last word, and every replica takes it. -/
def State.timeWord (s : State) (dt : Nat) : State := (s.advance dt).steerAll

/-- SLEW_END (R508): the nominal time that the rest of the slew takes passes, and the applied correction is F again. -/
def State.slewEnd (s : State) : State :=
  let rest := s.time.slew
  let rate := (s.freq - s.applied).natAbs
  if rest = 0 || rate = 0 then s else
    let dt := (rest.natAbs * 1000000000 + rate - 1) / rate
    let s := s.updTime fun t => { t with
      hub := t.hub + BitVec.ofInt 64 (corrected dt s.freq - rest), slew := 0, removed := t.removed + rest }
    s.steerAll

/-- A step of the hub FT (R43): journalled with the FT before and after; it ends the slew (R508). -/
def State.ftStep (s : State) (delta : Int) (origin : Nat × Nat) : State :=
  let old := s.time.hub
  let new := old + BitVec.ofInt 64 delta
  let s := s.updTime fun t => { t with hub := new, slew := 0, prev := none }
  (s.ftEntry origin 0 old new).steerAll

/-- STEP_NOW (R43, R54). -/
def State.stepNow (s : State) : State :=
  s.hostWrite fun s =>
    let θ : Int := (BitVec.ofNat 64 (s.rd64 .FT_OFFSET_LO .FT_OFFSET_HI 0)).toInt
    if 0 < θ && s.serving then s.setStatus F.FT_STATUS_STEP_REFUSED 0 else s.ftStep (-θ) byPf

/-! ## Exchanges (R44, R508) -/

/-- A quotient whose rounding the spec does not fix: the floor, or one more where the quotient is no whole number (free, log
entry 36). -/
def State.freeDiv (s : State) (a b : Int) : Int × State :=
  if b = 0 || a % b = 0 then (a / b, s) else
    let r := s.draw 36
    (a / b + (r.1.toNat % 2 : Nat), r.2)

/-- The frequency correction of two consecutive exchanges (R508). T of an exchange is the hub FT at its completion, when its
response arrives: R508 names no other moment, so this is a DESIGN CHOICE (log entry 103). -/
def State.learn (s : State) (θ : Int) : State :=
  let st := s.ftState
  if st != Fs.acquiring && st != Fs.locked then s.updTime fun t => { t with prev := none, removed := 0 } else
    let s := match s.time.prev with
      | none => s
      | some (θ0, t0) =>
        let dt := ((s.time.hub - t0).toNat : Int)
        if dt = 0 then s else
          let x := s.freeDiv (-(θ - θ0 + s.time.removed) * 1000000000) (8 * dt)
          let f := max (-maxPpb) (min maxPpb (s.freq + x.1))
          x.2.wr ⟨.FT_FREQ_OFFSET, 0, 0⟩ (BitVec.ofInt 32 f)
    s.updTime fun t => { t with prev := some (θ, t.hub), removed := 0 }

/-- An offset is corrected by slewing; it replaces a slew in progress (R508). -/
def State.slewTo (s : State) (θ : Int) : State := s.updTime fun t => { t with slew := θ }

/-- OFFSET_RANGE when an offset is beyond FT_STEP_LIMIT (R44). -/
def State.rangeStatus (s : State) (big : Bool) : State := if big then s.setStatus F.FT_STATUS_OFFSET_RANGE 0 else s

/-- A completed exchange with offset θ (R44). With source free-running the state stays FREE. -/
def State.exchanged (s : State) (θ : Int) (origin : Nat × Nat) : State :=
  let s := s.wr64 .FT_OFFSET_LO .FT_OFFSET_HI (BitVec.ofInt 64 θ).toNat 0
  let s := s.learn θ
  let big : Bool := decide (s.rdN .FT_STEP_LIMIT 0 < θ.natAbs)
  let near : Bool := decide (θ.natAbs ≤ s.rdN .FT_LOCK_THRESH 0)
  let s := match s.ftState with
    | 0 =>
      let s := s.ftGo Fs.acquiring origin
      if decide (θ < 0) || !s.serving then s.ftStep (-θ) origin else (s.slewTo θ).rangeStatus big
    | 1 =>
      let s := (s.slewTo θ).rangeStatus big
      let run := if near && !big then s.time.lockRun + 1 else 0
      let s := s.updTime fun t => { t with lockRun := run }
      if 16 ≤ run then (s.ftGo Fs.locked origin).setStatus F.FT_STATUS_LOCK_GAINED 0 else s
    | 2 => if big then ((s.ftGo Fs.acquiring origin).slewTo θ).rangeStatus big else s.slewTo θ
    | _ => ((s.ftGo Fs.acquiring origin).slewTo θ).rangeStatus big
  s.updTime fun t => { t with lastDone := t.hub }

/-- The port that may carry the exchange: the lowest in the mask with its link up (R47). -/
def State.timePort (s : State) : Option Nat :=
  (List.range 8).find? fun p => bitSet (s.fget F.FT_REF_PORT_MASK_MASK 0) p && s.portState p == Pst.active

/-- A time message comes from the reference node of the domain, and the fabric is the source (R42, R47). -/
def State.timeFits (s : State) (m : TimeMsg) : Bool :=
  s.ftSource == 0 && m.version == 1 && m.domain == s.fget F.FT_REF_NODE_DOMAIN 0 &&
  m.sender == s.fget F.FT_REF_NODE_NODE_ID 0

/-- BEACON (R47): an accepted one is stamped t2 and starts an exchange; an exchange in progress ignores it. -/
def State.beacon (s : State) (p : Nat) (m : TimeMsg) : State :=
  if s.timeFits m && s.timePort == some p && s.time.exch.isNone then
    let t2 := s.dieFt (p / 2)
    s.updTime fun t => { t with exch := some { port := p, seq := m.seq, t1 := m.time, t2 := t2, corr := m.corr } }
  else s

/-- DELAY_REQUEST (R47): sent on the beacon's port, its departure stamped t3. -/
def State.delayRequest (s : State) : State :=
  match s.time.exch with
  | some x =>
    if x.t3.isSome then s else
      let node := s.fget F.FT_REF_NODE_NODE_ID 0
      let t3 := s.dieFt (x.port / 2)
      let s := s.updTime fun t => { t with exch := some { x with t3 := some t3 } }
      let m : TimeMsg := { version := 1, domain := s.fget F.FT_REF_NODE_DOMAIN 0, sender := s.node, seq := x.seq, time := 0
                           corr := 0, target := node }
      s.emit { dest := node, port := some x.port, msg := .time 2 m }
  | none => s

/-- DELAY_RESPONSE (R47): the exchange completes, with θ and the path delay. -/
def State.delayResponse (s : State) (m : TimeMsg) : State :=
  match s.time.exch with
  | some x =>
    match x.t3 with
    | some t3 =>
      if s.timeFits m && m.target == s.node && m.seq == x.seq && !ftLater (s.dieFt (x.port / 2)) (ftAdd t3 48) then
        let inb := ftDiff x.t2 x.t1 - x.corr.toInt
        let out := ftDiff m.time t3 - m.corr.toInt
        let a := s.freeDiv (inb - out) 2
        let b := a.2.freeDiv (inb + out) 2
        let s := b.2.updTime fun t => { t with exch := none }
        let s := s.wrN .FT_PATH_DELAY (min (2 ^ 32 - 1) b.1.toNat) 0
        s.exchanged (a.1 - s.rdInt .FT_ASYM_CORR) s.byFabric
      else s
    | none => s
  | none => s

/-- EXCHANGE_ABANDON (R47): no response within 48 ft of t3. -/
def State.exchangeAbandon (s : State) : State :=
  match s.time.exch with
  | some x =>
    match x.t3 with
    | some t3 => if ftReached (s.dieFt (x.port / 2)) (ftAdd t3 48) then s.updTime fun t => { t with exch := none } else s
    | none => s
  | none => s

/-- FT_HOST_COMMIT (R48): the committed value of the FT_HOST pair is one exchange; discarded while SOURCE is not host. -/
def State.ftHostCommit (s : State) (v : W64) : State :=
  s.hostWrite fun s =>
    if s.ftSource != 1 then s else
      let s := s.wr64 .FT_HOST_LO .FT_HOST_HI v.toNat 0
      let s := s.wrN .FT_PATH_DELAY 0 0
      s.exchanged (ftDiff s.time.hub v - s.rdInt .FT_ASYM_CORR) byPf

/-- FT_BEACON_TIMEOUT (R44). -/
def State.beaconTimeout (s : State) : State :=
  let due := ftReached s.time.hub (ftAdd s.time.lastDone (48 * max 1 (s.rdN .FT_BEACON_TIMEOUT 0)))
  if !due then s else
    match s.ftState with
    | 1 => (s.ftGo Fs.free byDevice).setStatus F.FT_STATUS_REF_LOST 0
    | 2 => (s.ftGo Fs.holdover byDevice).setStatus F.FT_STATUS_REF_LOST 0
    | _ => s

/-- HOLDOVER_EXPIRED (R44). -/
def State.holdoverExpired (s : State) : State :=
  if s.ftState = Fs.holdover && ftReached s.time.hub (ftAdd s.time.since (s.rdN .FT_HOLDOVER_LIMIT 0)) then
    (s.ftGo Fs.free byDevice).setStatus F.FT_STATUS_HOLDOVER_EXPIRED 0
  else s

/-- FT_SOURCE_WRITE (R44): a new SOURCE value sends the machine to FREE; FT and the frequency correction stay. Where the spec is
silent, a new value discards an exchange that waits for its response, and a write of the value already held changes nothing, so
that it keeps the pair of exchanges of R508: DESIGN CHOICE (log entry 103). -/
def State.ftSourceWrite (s : State) (v : Nat) : State :=
  s.hostWrite fun s =>
    let old := s.fget F.FT_CTRL_SOURCE 0
    if old = v % 4 then s else
      let s := s.fset F.FT_CTRL_SOURCE v 0
      let s := s.updTime fun t => { t with exch := none, prev := none }
      (s.ftEntry byPf (2 + 256 * old + 65536 * (v % 4)) 0 0).ftGo Fs.free byPf

/-! ## Replicas (R51, R52) -/

/-- Change a region's replica. -/
def State.updReplica (s : State) (r : Nat) (f : Replica → Replica) : State :=
  s.updTime fun t => { t with regions := t.regions.modify r f }

/-- REPLICA_WORD_LOSS (R52): three consecutive time words are lost. -/
def State.replicaLoss (s : State) (x : ReplicaOf) : State :=
  match x with
  | .region r =>
    let s := s.updReplica r fun x => { x with failed := true, synced := false, track := 0 }
    s.raise { source := 0x20, bed := s.bedOfRegion r, location := r }
  | .die q =>
    let s := s.updTime fun t => { t with dies := t.dies.modify q fun x => { x with failed := true, synced := false, track := 0 } }
    s.raise { source := 0x28, location := q }

/-- REPLICA_RESYNC (R51): a restarted region's replica loads a time word, tracks two more, and allows stamps. -/
def State.replicaResync (s : State) (r : Nat) : State :=
  if s.fget F.RGN_CLK_STATUS_RESYNC_PENDING r = 1 then
    let s := s.updReplica r fun x => { x with count := s.time.hub, synced := true, track := 0, failed := false }
    s.fset F.RGN_CLK_STATUS_RESYNC_PENDING 0 r
  else s

/-- FT_REPLICA_STATUS (R56). -/
def State.replicaStatus (s : State) : Nat :=
  let bitsOf := fun (l : List Replica) => ((l.zipIdx).map fun x => if x.1.synced && !x.1.failed then 2 ^ x.2 else 0).sum
  bitsOf s.time.regions + 2 ^ 16 * bitsOf s.time.dies

/-! ## Region clocks (R30 to R34) -/

/-- GATE_REQ (R31, R32): requests or withdraws the stop. -/
def State.gateReq (s : State) (r : Nat) (on : Bool) : State :=
  s.hostWrite fun s => s.fset F.RGN_CLK_CTRL_GATE_REQ (if on then 1 else 0) r

/-- Near memory of a Bed that a command in flight names lies in a region. -/
def State.copyMeets (s : State) (r : Nat) (c : RemoteCopy) : Bool :=
  (bufRanges c.d).any fun x => (s.pieces c.bed x.1 x.2).any fun p => (s.bufPa c.bed p.1).any fun pa => paRegion pa == r

/-- A query in flight walks an index that lies in a region. -/
def State.searchMeets (s : State) (r : Nat) (q : VsQuery) : Bool :=
  q.walk.isNone && s.vs.versions.any fun v =>
    v.bed == q.bed && v.id == q.id && v.version == q.version && v.near.any fun a => paRegion a == r

/-- A request in flight uses a region's stack (R31): an admitted piece of a move, a request or a recall of an export that it serves, a
remote copy, a search, a handoff copy of a sequence there, or its self-test. -/
def State.requestsIn (s : State) (r : Nat) : Bool :=
  (s.tiers.moves.any fun m => m.region == r && m.admitted != 0) ||
  (s.exp.exports.any fun e => e.region == r && !(e.queue.isEmpty && e.recalls.isEmpty)) ||
  (s.exp.copies.any fun c => s.copyMeets r c) || (s.vs.queries.any fun q => s.searchMeets r q) ||
  (s.plw.tx.any fun x => !x.gone && s.kv.seqs.any fun q => q.sid == x.sid && q.region == r) ||
  s.flt.regionTests.any fun x => x.1 == r

/-- A region is quiescent: no live sequence, no command and no request in flight (R31). -/
def State.quiescent (s : State) (r : Nat) : Bool :=
  (s.sch.slots.all fun t => t.region != r) && (s.sch.work.all fun w => w.region != r) && !s.requestsIn r

/-- REGION_CLOCK_STOP (R31). -/
def State.clockStop (s : State) (r : Nat) : State :=
  if s.fget F.RGN_CLK_CTRL_GATE_REQ r = 1 && s.fget F.RGN_CLK_STATUS_STOPPED r = 0 &&
      s.fget F.RGN_CLK_STATUS_RESYNC_PENDING r = 0 && s.quiescent r then
    let s := s.fset F.RGN_CLK_STATUS_STOPPED 1 r
    let s := s.updReplica r fun x => { x with synced := false, track := 0 }
    s.showClock r 0
  else s

/-- SUPPLY_DROOP (R30): the clock stretches to `mhz`, or the droop is beyond ride-through. A stopped region has no clock to
stretch. -/
def State.supplyDroop (s : State) (r mhz : Nat) : State :=
  if s.fget F.RGN_CLK_STATUS_STOPPED r = 1 then s
  else if mhz < 1200 then s.raise { source := 0x21, bed := s.bedOfRegion r, location := r }
  else s.showClock r (min mhz 1800)

end Sys2Proof.Machine
end

