-- ==== Sys2Proof/Machine/Plowald.lean ====
section
/-! DEFINITION. Plowald Link (R351 to R383): ports and training, frames, link control, message queueing, job keys and queue
sampling. -/

namespace Sys2Proof.Machine

/-! ## Training (R360 to R362) -/

/-- The lanes of a mask, counted. -/
def laneCount (m : Nat) : Nat := ((List.range 8).filter fun k => bitSet m k).length

/-- W: 8, 4, 2 or 1 lanes (R355). -/
def widthOf (n : Nat) : Nat := if 8 ≤ n then 8 else if 4 ≤ n then 4 else if 2 ≤ n then 2 else min n 1

/-- A write of PLW_CTRL.ENABLE (R360); a fenced port stays DISABLED. -/
def State.enablePort (s : State) (p : Nat) (on : Bool) : State :=
  if on then
    if s.portState p = Pst.disabled && !s.flt.ports.contains p then s.portGo p Pst.optical else s
  else s.plwOff p

/-- The journal entry of a Plowald register (R381, R382): the class of R87, the register's offset in its block, its old and
new value. -/
def State.plwEntry (s : State) (cls p off : Nat) (old new : W32) : JEntry :=
  let j := s.jDev 0x0008 0xFF (off + cls * 2 ^ 24) p (digest128 (leBytes 4 old.toNat)) (digest128 (leBytes 4 new.toNat))
  { j with originType := 1 }

/-- PLW_ENABLE: a write of PLW_CTRL.ENABLE, journalled (R360, R381). -/
def State.plwEnable (s : State) (p : Nat) (on : Bool) : State :=
  s.hostWrite fun s =>
    let old := s.rd ⟨.PLW_CTRL, p, 0⟩
    let s := s.fset F.PLW_CTRL_ENABLE (if on then 1 else 0) p
    (s.journal (s.plwEntry 1 p 0 old (s.rd ⟨.PLW_CTRL, p, 0⟩))).enablePort p on

/-- LANE_LOCK (R360): signal and codeword lock on lanes; one of LANE_MASK moves OPTICAL to NEGOTIATE. -/
def State.laneLock (s : State) (p lanes : Nat) : State :=
  let use := (lanes &&& s.fget F.PLW_CTRL_LANE_MASK p) % 256
  if s.portState p = Pst.optical && use != 0 && !ftLater s.now (ftAdd (s.port p).since 4) then
    (s.portGo p Pst.negotiate).updPort p fun q => { q with lanes := use }
  else s

/-- The version of the link (R361, R362): the highest common major, with the lower of its minors. -/
def State.commonVersion (s : State) (p : Nat) (t : Train) : Option Nat :=
  let only1 := s.fget F.PLW_CTRL_MAJOR_MAX p = 1
  if bitSet t.majors 1 && !only1 then some (0x20 + min 0 t.minor2)
  else if bitSet t.majors 0 then some (0x10 + min 2 t.minor1)
  else none

/-- The link runs at 200 Gbit/s (R361, R362). -/
def State.slowRate (s : State) (p : Nat) (t : Train) (version : Nat) : Bool :=
  !bitSet t.rates 1 || s.fget F.PLW_CTRL_RATE_200 p == 1 || version / 16 == 1

/-- TRAIN_BLOCK (R360, R361, R381): the partner is shown; once both ends have acknowledged, version, rate, width and credits
are set and the link is ACTIVE. -/
def State.trainBlock (s : State) (p : Nat) (t : Train) : State :=
  if !t.good then s else
    let s := s.fset F.PLW_STATE_ROLE t.role p
    let s := (s.fset F.PLW_PARTNER_PORT t.port p).fset F.PLW_PARTNER_NODE t.node p
    if s.portState p != Pst.negotiate then s else
      match s.commonVersion p t with
      | none => (s.fset F.PLW_STATE_VERSION 0 p).portDown p
      | some v =>
        let lanes := (s.port p).lanes &&& t.lanes
        if !t.ack || lanes = 0 then s else
          let s := s.fset F.PLW_STATE_VERSION v p
          let s := s.fset F.PLW_STATE_RATE (if s.slowRate p t v then 1 else 0) p
          let s := (s.fset F.PLW_STATE_WIDTH (widthOf (laneCount lanes)) p).portGo p Pst.active
          s.updPort p fun q => { q with
            lanes := lanes, agreed := t.lanes, credits := (List.range 8).map fun v => t.credits.getD v 0, seen := List.replicate 8 0
            returned := List.replicate 8 0, lastCtl := none, txSeq := 0, rxSeq := 0, replay := [], replayAt := none, replays := 0 }

/-- PORT_TRAINING_TIMEOUT (R360): OPTICAL, NEGOTIATE or RETRAIN has lasted 4 ft. -/
def State.trainingTimeout (s : State) (p : Nat) : State :=
  let st := s.portState p
  if !ftReached s.now (ftAdd (s.port p).since 4) then s
  else if st = Pst.negotiate then (s.fset F.PLW_STATE_VERSION 0 p).portDown p
  else if st = Pst.optical || st = Pst.retrain then s.portDown p
  else s

/-- LANE_LOST (R360): lanes lose codeword lock, or every lane loses its signal. -/
def State.laneLost (s : State) (p lanes : Nat) (allSignal : Bool) : State :=
  if s.portState p != Pst.active then s
  else if allSignal then s.portDown p
  else
    let s := (s.portGo p Pst.retrain).setStatus F.PLW_STATUS_LANE_LOST p
    s.updPort p fun q => { q with lanes := q.lanes &&& (255 - lanes % 256) }

/-- RETRAIN_RELOCK (R360): the port returns to ACTIVE and replays from the last acknowledged frame. Its lanes are those of
LANE_MASK that the partner can use too (R361). -/
def State.relock (s : State) (p lanes : Nat) : State :=
  let use := (lanes &&& s.fget F.PLW_CTRL_LANE_MASK p &&& (s.port p).agreed) % 256
  if s.portState p = Pst.retrain && use != 0 && !ftLater s.now (ftAdd (s.port p).since 4) then
    let s := (s.portGo p Pst.active).setStatus F.PLW_STATUS_RETRAINED p
    let s := s.fset F.PLW_STATE_WIDTH (widthOf (laneCount use)) p
    s.updPort p fun q => { q with lanes := use, replayAt := q.replay.head?.map fun f => f.lseq, replays := 0 }
  else s

/-- DOWN_RETRY (R360): 480 ft in DOWN with ENABLE 1. -/
def State.downRetry (s : State) (p : Nat) : State :=
  if s.portState p = Pst.down && s.fget F.PLW_CTRL_ENABLE p = 1 && ftReached s.now (ftAdd (s.port p).since 480) then
    s.portGo p Pst.optical
  else s

/-! ## Frames and blocks (R354, R356, R361, R364, R373) -/

/-- The first 28 bytes of a frame's header (R356). -/
def frameHead (f : Frame) : List Byte :=
  leBytes 1 (0x40 + 8 * f.vc + (if f.enc then 4 else 0) + (if f.bcast then 2 else 0)) ++ leBytes 1 f.typ ++ leBytes 2 f.dest ++
  leBytes 2 f.src ++ leBytes 2 f.lseq ++ leBytes 2 f.len ++ leBytes 2 (f.seg + if f.last then 0x8000 else 0) ++
  leBytes 2 f.flow ++ leBytes 2 0 ++ leBytes 4 f.msgId.toNat ++ leBytes 4 f.keyId.toNat ++ leBytes 4 f.msgLen

/-- A frame's header: HCRC covers the 28 bytes before it (R356). -/
def frameHeader (f : Frame) : List Byte := frameHead f ++ leBytes 4 (crc32c (frameHead f))

/-- A frame as its port carries it: header, payload, zero padding to 4 bytes, PCRC, and zeros to the end of its last block
(R356). -/
def frameImage (f : Frame) (payload : List Byte) : List Byte :=
  let body := frameHeader f ++ payload ++ List.replicate ((4 - payload.length % 4) % 4) 0
  let whole := body ++ leBytes 4 (crc32c body)
  whole ++ List.replicate ((32 - whole.length % 32) % 32) 0

/-- The IV of a segment (R373): SRC, MSG_ID, the SEG field and four zero bytes. -/
def segmentIv (f : Frame) : List Byte :=
  leBytes 2 f.src ++ leBytes 4 f.msgId.toNat ++ leBytes 2 (f.seg + if f.last then 0x8000 else 0) ++ leBytes 4 0

/-- The additional data of a segment (R373): header bytes 0 to 5 and 8 to 27. -/
def segmentAad (f : Frame) : List Byte := (frameHead f).take 6 ++ (frameHead f).drop 8

/-- The 32 bytes of a train block (R361). -/
def trainImage (t : Train) : List Byte :=
  let head := leBytes 1 0xC3 ++ leBytes 1 t.role ++ leBytes 2 t.node ++ leBytes 1 t.port ++ leBytes 1 t.lanes ++
    leBytes 1 t.rates ++ leBytes 1 t.majors ++ leBytes 1 t.minor1 ++ leBytes 1 t.minor2 ++
    leBytes 1 (if t.ack then 1 else 0) ++ leBytes 1 0 ++ ((List.range 8).map fun v => leBytes 2 (t.credits.getD v 0)).flatten
  head ++ leBytes 4 (crc32c head)

/-- The 32 bytes of a link-control block (R364). -/
def ctlImage (c : CtlBlock) : List Byte :=
  let head := leBytes 1 0xC2 ++ leBytes 1 (if c.nak then 1 else 0) ++ leBytes 2 c.seq ++ leBytes 2 0 ++
    ((List.range 8).map fun v => leBytes 2 (c.returned.getD v 0)).flatten ++ leBytes 6 0
  head ++ leBytes 4 (crc32c head)

/-- Receive buffers of a VC in credits (R363). -/
def vcBuffer : Nat → Nat
  | 0 => 256 | 1 => 2048 | 3 => 2048 | 4 => 4096 | 5 => 4096 | 2 => 16384 | 6 => 16384 | _ => 0

/-- The buffers that this device advertises in its train blocks, in credits (R361, R363), with what it offers (R362): both
rates, both majors unless MAJOR_MAX withholds the second, minors 2 and 0. -/
def State.ownTrain (s : State) (p : Nat) (ack : Bool) : Train :=
  { role := 0, node := s.node, port := p, lanes := s.fget F.PLW_CTRL_LANE_MASK p, rates := 3
    majors := if s.fget F.PLW_CTRL_MAJOR_MAX p = 1 then 1 else 3, minor1 := 2, minor2 := 0, ack := ack
    credits := (List.range 8).map vcBuffer }

/-- Bytes of a frame: header, payload, padding, PCRC (R356). -/
def frameBytes (len : Nat) : Nat := 36 + (len + 3) / 4 * 4

/-- Credits of a frame (R363). -/
def frameCredits (len : Nat) : Nat := (frameBytes len + 63) / 64

/-- Bytes of the blocks that a frame occupies (R356, R375). -/
def frameBlocks (len : Nat) : Nat := (frameBytes len + 31) / 32 * 32

/-- The largest payload of a link (R362). -/
def State.segMax (s : State) (p : Nat) : Nat := if s.portMajor p = 1 then 2048 else 4096

/-- Message bytes a full segment carries (R358). -/
def State.segBytes (s : State) (p : Nat) (key : Option W32) : Nat :=
  if key.isSome then s.segMax p - 16 else s.segMax p

/-- A token bucket after `dt` fraction units: 1/(6 × 2^24) byte units (R375). -/
def fillBucket (level : Int) (mbps kib dt : Nat) : Int :=
  min ((max 1 kib * 1024 * 6 * ftUnit : Nat) : Int) (level + (min mbps 400000 * 125 * dt : Nat))

/-- The buckets of a port fill up to now (R375, R376). -/
def State.fillBuckets (s : State) (p : Nat) : State :=
  let t := s.dieFt (p / 2)
  let dt := (t - (s.port p).filled).toNat
  s.updPort p fun q => { q with
    filled := t
    shape := q.shape.zipIdx.map fun x =>
      fillBucket x.1 (s.fget F.PLW_SHAPE_RATE_MBPS p x.2) (s.fget F.PLW_SHAPE_BURST_KIB p x.2) dt
    police := q.police.zipIdx.map fun x =>
      fillBucket x.1 (s.fget F.PLW_POLICE_RATE_MBPS p x.2) (s.fget F.PLW_POLICE_BURST_KIB p x.2) dt }

/-- A shaper permits a frame (R375). -/
def State.shaperFree (s : State) (p vc : Nat) : Bool :=
  vc < 2 || s.fget F.PLW_SHAPE_RATE_MBPS p vc == 0 || decide (0 < (s.port p).shape.getD vc 0)

/-- Payload bytes of the next frame of a message, and whether it is the last (R358). -/
def State.nextSegment (s : State) (p : Nat) (m : EgMsg) : Nat × Bool :=
  let n := min (m.len - m.sent) (s.segBytes p m.key)
  (n + (if m.key.isSome then 16 else 0), decide (m.len ≤ m.sent + n))

/-- Bytes of the replay buffer (R366). -/
def replayBytes (q : Port) : Nat := (q.replay.map fun f => f.bytes).sum

/-- The replay buffer has room (R366). -/
def State.replayRoom (s : State) (p len : Nat) : Bool :=
  decide (replayBytes (s.port p) + frameBytes len ≤ 1048576) && decide ((s.port p).replay.length < 32768)

/-- A VC may send its next frame (R365). -/
def State.vcEligible (s : State) (p vc : Nat) : Bool :=
  match (s.port p).queues.getD vc [] with
  | [] => false
  | m :: _ =>
    let n := (s.nextSegment p m).1
    decide (frameCredits n ≤ (s.port p).credits.getD vc 0) && s.shaperFree p vc && s.replayRoom p n

/-- The order in which VCs are looked at (R365): VC 0 to 2, then 3 to 6 from the one whose turn it is. -/
def vcOrder (turn : Nat) : List Nat := [0, 1, 2] ++ (List.range 4).map fun k => 3 + (turn - 3 + k) % 4

/-- The message trace of a first segment (R480, R483). -/
def State.traceMsg (s : State) (kind p : Nat) (bed : Option Nat) (typ vc : Nat) (msgId : W32) (peer flow segs : Nat)
    (key : W32) : State :=
  if typ ≤ 3 || msgId.toNat % 2 ^ s.fget F.TRC_CTRL_MSG_LOG2 0 != 0 then s else
    s.trace 2 kind 6 p (.die (p / 2)) bed (typ + 256 * p + 2048 * vc)
      (leBytes 4 msgId.toNat ++ leBytes 2 peer ++ leBytes 2 flow ++ leBytes 2 segs ++ leBytes 4 key.toNat ++ [0, 0])

/-- Segments of a message. -/
def segCount (len per : Nat) : Nat := max 1 ((len + per - 1) / max 1 per)

/-- Send the next frame of a VC: it spends credits, tokens where its shaper is on, and waits in the replay buffer (R363, R366,
R375). -/
def State.sendFrame (s : State) (p vc : Nat) (m : EgMsg) : State :=
  let x := s.nextSegment p m
  let s := if m.next = 0 then
      s.traceMsg 5 p m.bed m.typ vc m.msgId m.dest m.flow (segCount m.len (s.segBytes p m.key)) (m.key.getD 0) else s
  let cost : Int := ((frameBlocks x.1 + s.fget F.PLW_OVERHEAD_BYTES p) * 6 * ftUnit : Nat)
  let per := s.segBytes p m.key
  let off := decide (vc < 2) || s.fget F.PLW_SHAPE_RATE_MBPS p vc == 0
  let s := s.updPort p fun q =>
    let f : TxFrame := { lseq := q.txSeq, vc := vc, msgId := m.msgId, bytes := frameBytes x.1, key := m.key }
    let rest := (q.queues.getD vc []).drop 1
    let m' := { m with next := m.next + 1, sent := m.sent + min (m.len - m.sent) per }
    { q with
      queues := q.queues.set vc (if x.2 then rest else m' :: rest)
      credits := q.credits.modify vc fun c => c - frameCredits x.1
      shape := if off then q.shape else q.shape.modify vc fun b => b - cost
      txSeq := (q.txSeq + 1) % 65536, replay := q.replay ++ [f], turn := if 3 ≤ vc then 3 + (vc - 2) % 4 else q.turn }
  (s.bump64 .PLW_TX_BYTES_LO .PLW_TX_BYTES_HI p (frameBytes x.1)).count (20 + p) 0x30 0 m.bed 1

/-- FRAME_SEND (R365, R366): a replay goes on in order; else the next eligible frame is sent. What the spec counts as idle
blocks is counted in free amounts (log entry 30). -/
def State.frameSend (s : State) (p : Nat) : State :=
  if s.portState p != Pst.active then s else
  match (s.port p).replayAt with
  | some l =>
    s.updPort p fun q =>
      let rest := (q.replay.dropWhile fun f => f.lseq != l).drop 1
      { q with replayAt := rest.head?.map fun f => f.lseq }
  | none =>
    let s := s.fillBuckets p
    match (vcOrder (s.port p).turn).find? fun v => s.vcEligible p v with
    | some v => match (s.port p).queues.getD v [] with
      | m :: _ => s.sendFrame p v m
      | [] => s
    | none =>
      let heads := (List.range 7).filter fun v => !((s.port p).queues.getD v []).isEmpty
      let s := if heads.any fun v => s.shaperFree p v then s.countFree (20 + p) 0x32 0 none else s
      if heads.any fun v => !s.shaperFree p v then s.countFree (20 + p) 0x33 0 none else s

/-! ## Receiving (R357, R358, R363, R366, R368, R374, R376) -/

/-- A frame's context: the message it continues, of one source, VC, TYPE, key and MSG_ID (R358). -/
def State.rxCtx? (s : State) (p : Nat) (f : Frame) : Option RxCtx :=
  (s.port p).ctxs.find? fun c => c.src == f.src && c.vc == f.vc && c.msgId == f.msgId && c.typ == f.typ && c.key == f.keyId

/-- The context of a frame ends. -/
def State.dropCtx (s : State) (p : Nat) (c : RxCtx) : State :=
  s.updPort p fun q => { q with ctxs := q.ctxs.filter fun x => x != c }

/-- The replay window of a key and a source (R374): a MSG_ID below it, or accepted before, is a replay. -/
def windowRefuses (w : Option (Nat × Nat × List Nat)) (id : Nat) : Bool :=
  match w with
  | none => false
  | some (_, hi, got) => decide (id + 1024 < hi) || got.contains id

/-- A MSG_ID is accepted. -/
def windowTake (ws : List (Nat × Nat × List Nat)) (src id : Nat) : List (Nat × Nat × List Nat) :=
  match ws.find? fun w => w.1 == src with
  | none => (src, id, [id]) :: ws
  | some (_, hi, got) =>
    let hi' := max hi id
    (src, hi', id :: got.filter fun x => decide (hi' ≤ x + 1024)) :: ws.filter fun w => w.1 != src

/-- What refuses a frame that the link accepted, at its first segment (R357, R368, R374, R376); the order of checks that the
spec does not give is a DESIGN CHOICE (log entry 38). -/
def State.frameRefusal (s : State) (p : Nat) (f : Frame) : Option Nat :=
  if f.bcast && f.typ != 1 then some Dr.badType
  else if vcOf f.typ != some f.vc || (4 ≤ f.vc && s.portMajor p == 1) then some Dr.badType
  else if !f.bcast && f.dest != s.node then some Dr.misdirected
  else if f.enc then
    match s.keySlot? f.keyId with
    | none => some Dr.unknownKey
    | some k =>
      if !f.auth then some Dr.authFail
      else if f.seg = 0 && windowRefuses (k.windows.find? fun w => w.1 == f.src) f.msgId.toNat then some Dr.replay
      else if bedOwned f.typ != k.owner.isSome then some Dr.unknownKey
      else none
  else if s.fget F.PLW_GCTRL_REQUIRE_ENC 0 = 1 && 3 < f.typ then some Dr.clearRefused
  else none

/-- The Bed of a received frame: its key's owner. -/
def State.frameBed (s : State) (f : Frame) : Option Nat :=
  if f.enc then (s.keySlot? f.keyId).bind fun k => k.owner else none

/-- A dropped message: what is still to come of it is dropped with it. -/
def State.dropMessage (s : State) (p : Nat) (f : Frame) (reason : Nat) : State :=
  let s := s.plwDrop p reason
  let s := match s.rxCtx? p f with | some c => s.dropCtx p c | none => s
  if f.last then s else
    let c : RxCtx := { src := f.src, typ := f.typ, vc := f.vc, msgId := f.msgId, flow := f.flow, key := f.keyId
                       msgLen := f.msgLen, next := f.seg + 1, got := 0, last := s.now, drop := true }
    s.updPort p fun q => { q with ctxs := q.ctxs ++ [c] }

/-- The first segment of a message (R358, R376). -/
def State.firstSegment (s : State) (p : Nat) (f : Frame) : State :=
  let s := s.fillBuckets p
  let per := if f.enc then s.segMax p - 16 else s.segMax p
  let s := s.traceMsg 6 p (s.frameBed f) f.typ f.vc f.msgId f.src f.flow (segCount f.msgLen per) f.keyId
  let on := 2 ≤ f.vc && s.fget F.PLW_POLICE_RATE_MBPS p f.vc != 0
  if on && decide ((s.port p).police.getD f.vc 0 ≤ 0) then
    (s.bump .PLW_POLICED p 1 f.vc).dropMessage p f Dr.policed
  else
    let s := if on then s.updPort p fun q => { q with
        police := q.police.modify f.vc fun b => b - (f.msgLen * 6 * ftUnit : Nat) } else s
    let s := if f.enc then s.updKey f.keyId fun k => { k with windows := windowTake k.windows f.src f.msgId.toNat } else s
    let inUse := ((s.port p).ctxs.filter fun c => !c.drop).length
    if 1024 ≤ inUse then s.dropMessage p f Dr.noContext
    else if f.last then s
    else
      let c : RxCtx := { src := f.src, typ := f.typ, vc := f.vc, msgId := f.msgId, flow := f.flow, key := f.keyId
                         msgLen := f.msgLen, next := 1, got := f.len, last := s.now }
      s.updPort p fun q => { q with ctxs := q.ctxs ++ [c] }

/-- A later segment (R358). -/
def State.nextSegmentIn (s : State) (p : Nat) (f : Frame) : State :=
  match s.rxCtx? p f with
  | none => s.dropMessage p f Dr.segment
  | some c =>
    if c.drop then
      if f.last then s.dropCtx p c
      else s.updPort p fun q => { q with ctxs := updFirst (fun x => x == c) (fun x => { x with last := s.now }) q.ctxs }
    else if c.next != f.seg then s.dropMessage p f Dr.segment
    else if f.last then s.dropCtx p c
    else s.updPort p fun q => { q with
      ctxs := updFirst (fun x => x == c) (fun x => { x with next := x.next + 1, got := x.got + f.len, last := s.now }) q.ctxs }

/-- Credits of a VC that the sender has spent beyond what the last link-control block returned, before this frame (R363,
R364). -/
def creditsOut (q : Port) (vc : Nat) : Nat :=
  let told := match q.lastCtl with | some c => c.returned.getD vc 0 | none => 0
  (q.returned.getD vc 0 + 65536 - told) % 65536

/-- A frame that the link accepted (R363, R366). The message that its last segment completes arrives as its own command. -/
def State.frameAccept (s : State) (p : Nat) (f : Frame) : State :=
  let cost := frameCredits f.len
  let excess := decide (vcBuffer f.vc < creditsOut (s.port p) f.vc + cost)
  let s := s.bump64 .PLW_RX_BYTES_LO .PLW_RX_BYTES_HI p (frameBytes f.len)
  let s := s.count (20 + p) 0x31 0 (s.frameBed f) 1
  let s := s.updPort p fun q => { q with returned := q.returned.modify f.vc fun r => (r + cost) % 65536 }
  if excess then s.plwDrop p Dr.creditOverrun
  else match s.frameRefusal p f with
    | some r =>
      match s.rxCtx? p f with
      | some c => if c.drop then (if f.last then s.dropCtx p c else s) else s.dropMessage p f r
      | none => s.dropMessage p f r
    | none => if f.seg = 0 && (s.rxCtx? p f).isNone then s.firstSegment p f else s.nextSegmentIn p f

/-- FRAME_RECEIVE (R353, R366): accepted in LSEQ order with both CRCs correct; else discarded with a NAK. -/
def State.frameReceive (s : State) (p : Nat) (f : Frame) : State :=
  if s.portState p != Pst.active then s else
    let s := s.bump64 .PLW_FEC_CORR_LO .PLW_FEC_CORR_HI p f.fecCorr
    let s := if f.fecBad then (s.bump .PLW_FEC_UNCORR p).setStatus F.PLW_STATUS_FEC_UNCORR p else s
    if !f.good || f.fecBad || f.lseq != (s.port p).rxSeq then
      s.updPort p fun q => { q with nakDue := true, ctlDue := true }
    else
      (s.updPort p fun q => { q with rxSeq := (q.rxSeq + 1) % 65536, nakDue := false }).frameAccept p f

/-- REASSEMBLY_TIMEOUT (R358): no segment of a message has come for 48 ft. -/
def State.reassemblyTimeout (s : State) (p : Nat) : State :=
  match (s.port p).ctxs.find? fun c => ftReached s.now (ftAdd c.last 48) with
  | some c => if c.drop then s.dropCtx p c else (s.dropCtx p c).plwDrop p Dr.segment
  | none => s

/-! ## Link control (R364, R366) -/

/-- Start a replay at an LSEQ; the eighth in a row at one LSEQ retrains (R366). -/
def State.startReplay (s : State) (p l : Nat) : State :=
  if (s.port p).replay.all fun f => f.lseq != l then s else
    let n := if (s.port p).replayFrom = l then (s.port p).replays + 1 else 1
    let s := s.bump .PLW_REPLAYS p
    let s := s.updPort p fun q => { q with replayAt := some l, replays := n, replayFrom := l }
    if 8 ≤ n then
      ((s.portGo p Pst.retrain).setStatus F.PLW_STATUS_REPLAY p).updPort p fun q => { q with replays := 0 }
    else s

/-- LINK_CONTROL_BLOCK (R364, R366): acknowledgements, credits, and a NAK that starts a replay. -/
def State.linkControl (s : State) (p : Nat) (c : CtlBlock) : State :=
  if !c.good || s.portState p != Pst.active then s else
    let s := s.updPort p fun q => { q with
      credits := (List.range 8).map fun v => q.credits.getD v 0 +
        (c.returned.getD v 0 + 65536 - q.seen.getD v 0) % 65536
      seen := (List.range 8).map fun v => c.returned.getD v 0 }
    let upto := if c.nak then (c.seq + 65535) % 65536 else c.seq
    let s := s.updPort p fun q =>
      if q.replay.any fun f => f.lseq == upto then
        { q with replay := (q.replay.dropWhile fun f => f.lseq != upto).drop 1 }
      else q
    let s := s.updPort p fun q => { q with
      replayAt := match q.replayAt with
        | some l => if q.replay.any fun f => f.lseq == l then some l else q.replay.head?.map fun f => f.lseq
        | none => none }
    if c.nak then s.startReplay p c.seq else s

/-- LINK_CONTROL_SEND (R364). -/
def State.linkControlSend (s : State) (p : Nat) : State :=
  if s.portState p != Pst.active then s else
    s.updPort p fun q => { q with
      lastCtl := some { nak := q.nakDue, seq := if q.nakDue then q.rxSeq else (q.rxSeq + 65535) % 65536
                        returned := q.returned }
      nakDue := false, ctlDue := false }

/-! ## Messages (R369 to R372) -/

/-- The ports that may carry a message (R369). -/
def State.routes (s : State) (dest vc : Nat) (enc : Bool) : List Nat :=
  let m := bits (s.rdN .PLW_ROUTE 0 (dest / 4)) (8 * (dest % 4) + 7) (8 * (dest % 4))
  (List.range 8).filter fun p => s.portState p == Pst.active && (m == 0 || bitSet m p) &&
    (decide (vc ≤ 3) || decide (2 ≤ s.portMajor p)) && (!enc || decide (2 ≤ s.portMajor p))

/-- The durable mark of a key (R372); a record without payload stands for one that is erased. -/
def State.keyMark (s : State) (k : W32) : Option Nat :=
  ((s.keepCur 0x0060 (BitVec.ofNat 64 k.toNat)).filter fun r => !r.payload.isEmpty).map fun r => bytesAt r.payload 0 8

/-- The marks that are held (R372). -/
def State.keyMarks (s : State) : List KeepRec := (s.keepAll 0x0060).filter fun r => !r.payload.isEmpty

/-- What erases every mark, at zeroisation and at an owner transfer or release (R372, R437, R445). -/
def State.markErases (s : State) : List KeepWrite := s.keyMarks.map fun r => { typ := 0x0060, key := r.key, payload := [] }

/-- The record of a mark. -/
def markWrite (k : W32) (mark : Nat) : KeepWrite :=
  { typ := 0x0060, key := BitVec.ofNat 64 k.toNat, payload := leBytes 8 mark }

/-- A mark of a key waits to be programmed. -/
def State.markPending (s : State) (k : W32) : Bool :=
  s.keep.queue.any fun i => i.writes.any fun w => w.typ == 0x0060 && w.key == BitVec.ofNat 64 k.toNat

/-- Ask for the next mark when the counter comes near the durable one; how near is the device's own (R372, log entry 38). -/
def State.askMark (s : State) (k : KeySlot) : State :=
  let near := match s.keyMark k.keyId with | some m => decide (m ≤ k.ctr.toNat + 32768) | none => true
  if near && !s.markPending k.keyId && s.keep.ready && k.ctr.toNat != 0xFFFFFFFF then
    s.submit { writes := [markWrite k.keyId (k.ctr.toNat + 65536)] }
  else s

/-- The key that a message takes (R371): its owner's SEND key; time exchange is never encrypted. -/
def State.sendKey (s : State) (m : OutMsg) : Option KeySlot :=
  let typ := msgType m.msg
  if typ ≤ 3 then none else
    let owner := if bedOwned typ then m.bed else none
    s.plw.slots.find? fun k => k.send && k.owner == owner

/-- Bytes in an egress queue. -/
def queueBytes (q : List EgMsg) : Nat := (q.map fun m => m.len - m.sent).sum

/-- FLOW of a message: of the session it names, else of its MSG_ID (R359). -/
def msgFlow (m : OutMsg) (msgId : W32) : Nat :=
  match msgSid m.msg with | some sid => sid.toNat % 65536 | none => msgId.toNat % 65536

/-- The port that a message takes (R369). -/
def State.msgPort (s : State) (m : OutMsg) (msgId : W32) (enc : Bool) : Option Nat :=
  let ps := s.routes m.dest ((vcOf (msgType m.msg)).getD 0) enc
  match m.port with
  | some p => if s.portState p = Pst.active then some p else none
  | none => ps[msgFlow m msgId % max 1 ps.length]?

/-- A message is queued at its port, with its MSG_ID taken first, then its FLOW (R371). -/
def State.queueAt (s : State) (m : OutMsg) (msgId : W32) (key : Option W32) : State :=
  let typ := msgType m.msg
  let vc := (vcOf typ).getD 0
  let port := s.msgPort m msgId key.isSome
  let worn := key.any fun k => (s.keySlot? k).any fun (x : KeySlot) => x.ctr == 0xFFFFFC00#32
  let s := if worn then s.setStatus F.PLW_STATUS_KEY_WEAR (port.getD 0) else s
  match port with
  | none => s.plwDrop 0 Dr.noRoute
  | some p =>
    let e : EgMsg := { typ := typ, vc := vc, dest := m.dest, bed := m.bed, msgId := msgId, flow := msgFlow m msgId, key := key
                       len := msgBytes m.msg, queued := s.dieFt (p / 2) }
    s.updPort p fun q => { q with queues := q.queues.modify vc fun l => l ++ [e] }

/-- A message can be queued now: its key's counter lies below the durable mark (R372), and the egress queue of the port it
takes is not full (R365). -/
def State.canQueue (s : State) (m : OutMsg) : Bool :=
  let id := match s.sendKey m with | some k => k.ctr | none => s.plw.clearId
  (match s.sendKey m with
   | some k => k.ctr == 0xFFFFFFFF#32 || (match s.keyMark k.keyId with | some x => decide (k.ctr.toNat < x) | none => false)
   | none => true) &&
  (match s.msgPort m id (s.sendKey m).isSome with
   | some p => decide (queueBytes ((s.port p).queues.getD ((vcOf (msgType m.msg)).getD 0) []) < 524288)
   | none => true)

/-- Queue one message. The messages of a stopped Bed are not sent (R462). -/
def State.queueMsg (s : State) (m : OutMsg) : State :=
  if m.bed.any fun b => s.flt.fatalBeds.contains b then s else
  match s.sendKey m with
  | none =>
    let id := s.plw.clearId
    let s := { s with plw := { s.plw with clearId := id + 1 } }
    s.queueAt m id none
  | some k =>
    if k.ctr = 0xFFFFFFFF#32 then s.plwDrop 0 Dr.keyExhausted else
      let s := s.updKey k.keyId fun x => { x with ctr := x.ctr + 1 }
      s.queueAt m k.ctr (some k.keyId)

/-- Two messages whose order counts (R359): one destination, VC and FLOW, where both name a session. -/
def sameFlow (a b : OutMsg) : Bool :=
  a.dest == b.dest && vcOf (msgType a.msg) == vcOf (msgType b.msg) &&
  (match msgSid a.msg, msgSid b.msg with
   | some x, some y => x.toNat % 65536 == y.toNat % 65536
   | _, _ => false)

/-- The first waiting message that can be queued now and follows no message of its flow that cannot (R359). -/
def State.nextMsg (s : State) (held : List OutMsg) : List OutMsg → Option OutMsg
  | [] => none
  | m :: rest => if s.canQueue m && held.all (fun x => !sameFlow x m) then some m else s.nextMsg (m :: held) rest

/-- MESSAGE_SEND (R359, R371): the first waiting message that can be queued in its flow's order is queued; one that waits for
its mark asks for it. -/
def State.messageSend (s : State) : State :=
  let s := s.toSend.foldl (fun s m => match s.sendKey m with | some k => s.askMark k | none => s) s
  match s.nextMsg [] s.toSend with
  | none => s
  | some m => ({ s with toSend := s.toSend.erase m }).queueMsg m

/-- QUEUE_SAMPLE (R377, R483). -/
def State.queueSample (s : State) (p : Nat) : State :=
  let per := s.rdN .PLW_SAMPLE_PERIOD p
  let t := s.dieFt (p / 2)
  if per = 0 || !ftReached t (ftAdd (s.port p).sampled per) then s else
    let s := s.updPort p fun q => { q with sampled := t }
    (List.range 7).foldl (fun s v =>
      let q := (s.port p).queues.getD v []
      let wait := match q.head? with | some m => (t - m.queued).toNat / 65536 | none => 0
      let s := (s.wrN .PLW_Q_DEPTH (queueBytes q) p v).wrN .PLW_Q_DELAY wait p v
      let s := s.wrN .PLW_Q_DELAY_MAX (max (s.rdN .PLW_Q_DELAY_MAX p v) (wait % 2 ^ 32)) p v
      s.trace 3 7 6 p (.die (p / 2)) none (p + 16 * v)
        (leBytes 4 (queueBytes q) ++ leBytes 4 wait ++ List.replicate 8 0)) s

/-! ## Job keys (R370, R372, R380, R431) -/

/-- The owner of the keys that an issuer reaches (R380). -/
def keyOwner (d : Desc) : Option Nat := dBed d

/-- The identifier record of a key (R453). -/
def keyRecord (cls bed id : Nat) : List Byte := [BitVec.ofNat 8 cls, BitVec.ofNat 8 bed, 0, 0] ++ leBytes 4 id ++ leBytes 8 0

/-- A journal entry of a job key (R370, R453). -/
def State.keyEntry (s : State) (d : Desc) (detail : Nat) (k : W32) (old new refused : Bool) : JEntry :=
  let bed := (dBed d).getD 0xFF
  let dig := digest128 (keyRecord 7 bed k.toNat)
  s.jCmd d 0x0002 bed detail k.toNat (if old then dig else 0) (if new then dig else 0) refused

/-- The KEY_ID of the ARGS. -/
def dKey (d : Desc) : W32 := BitVec.ofNat 32 (dArg d 48 4)

/-- The key that the wrapped record of a load holds, if the record names its KEY_ID and its issuer (R431). -/
def State.keyUnwraps (s : State) (d : Desc) : Option (List Byte) :=
  let own := (dBed d).getD 0xFF
  if dLen0 d != 48 then none else
    match s.sec.kwk.find? fun x => x.1 == own with
    | none => none
    | some x => match Config.kwUnwrap x.2 (s.buf0N d 48) with
      | none => none
      | some r =>
        if r.length == 40 && bytesAt r 0 4 == (dKey d).toNat && bytesAt r 4 1 == own && bytesAt r 5 3 == 0 then some (r.drop 8)
        else none

/-- The lowest free slot. -/
def State.freeKeySlot (s : State) : Option Nat := (List.range 256).find? fun i => s.plw.slots.all fun k => k.ix != i

/-- PLW_KEY_LOAD (R370, R372, R380). -/
def State.plwKeyLoad (s : State) (d : Desc) : State :=
  let k := dKey d
  let marks := s.keyMarks.length
  if k = 0 || (s.keyUnwraps d).isNone then s.complete d St.signature
  else if (s.keySlot? k).isSome then s.complete d 0x80
  else if s.freeKeySlot.isNone || ((s.keyMark k).isNone && 1048576 ≤ marks) then s.complete d St.noResource
  else s.submitCmd d [s.keyEntry d 0 k false true false] [] (.cmd d ((s.keyUnwraps d).getD []) 0)

/-- PLW_KEY_LOAD once durable: the slot is in RECEIVE, its counter starts at its mark. -/
def State.plwKeyLoadDone (s : State) (d : Desc) (key : List Byte) : State :=
  let k := dKey d
  match s.freeKeySlot with
  | none => s.complete d St.noResource
  | some i =>
    let ctr := BitVec.ofNat 32 (min 0xFFFFFFFF ((s.keyMark k).getD 0))
    let x : KeySlot := { ix := i, keyId := k, key := key, owner := keyOwner d, ctr := ctr }
    (State.showKeys { s with plw := { s.plw with slots := s.plw.slots ++ [x] } }).complete d St.ok i

/-- The slot that an issuer holds under the KEY_ID of its ARGS. -/
def State.myKey (s : State) (d : Desc) : Option KeySlot := (s.keySlot? (dKey d)).filter fun k => k.owner == keyOwner d

/-- PLW_KEY_SEND (R370). -/
def State.plwKeySend (s : State) (d : Desc) : State :=
  match s.myKey d with
  | none => s.complete d St.notFound
  | some k => s.submitCmd d [s.keyEntry d 1 k.keyId true true false] [] (.cmd d [] 0)

/-- PLW_KEY_SEND once durable: RESULT is the previous send key. -/
def State.plwKeySendDone (s : State) (d : Desc) : State :=
  match s.myKey d with
  | none => s.complete d St.notFound
  | some k =>
    let prev := s.plw.slots.find? fun x => x.send && x.owner == k.owner
    let slots := s.plw.slots.map fun x => if x.owner == k.owner then { x with send := x.keyId == k.keyId } else x
    let s := { s with plw := { s.plw with slots := slots } }
    s.complete d St.ok (match prev with | some x => x.keyId.toNat | none => 0)

/-- PLW_KEY_DROP (R370). -/
def State.plwKeyDrop (s : State) (d : Desc) : State :=
  match s.myKey d with
  | none => s.complete d St.notFound
  | some k => s.submitCmd d [s.keyEntry d 2 k.keyId true false false] [] (.cmd d [] 0)

/-- PLW_KEY_DROP once durable: the slot is erased; a message bound to the key keeps it (R371). -/
def State.plwKeyDropDone (s : State) (d : Desc) : State :=
  match s.myKey d with
  | none => s.complete d St.notFound
  | some k =>
    let s := { s with plw := { s.plw with slots := s.plw.slots.filter fun x => x.keyId != k.keyId } }
    (s.showKeys).complete d St.ok k.ctr.toNat

end Sys2Proof.Machine
end

