-- ==== Sys2Proof/Machine/Image.lean ====
section
/-! DEFINITION. The handoff copy of a session: what is sent, its acknowledgement and its timers (R104, R289, R379). -/

namespace Sys2Proof.Machine

/-- What a handoff sends: the profile, POSITION, the output context, the pages and the token IDs. -/
structure ImgSource where
  p : Profile
  position : Nat
  ctx : Option OutCtx
  pages : List (Nat × Nat × Bool × List Byte)
  toks : List W32

/-- The transcript of a session held as a sequence (R218): the tokens at its positions, the recompute positions that Prune took, and
those of them that stand in PENDING already. -/
def State.script (s : State) (q : Seq) : List W32 :=
  q.tokens ++ q.recompute ++ match s.idle? q.sid with
    | some t => t.pend.take t.known
    | none => []

/-- The image of a session, in near memory or in a tensor set (R289). -/
def State.imgSource (s : State) (e : Entry) : Option ImgSource :=
  match s.profile? e.bed e.profile with
  | none => none
  | some p =>
    match s.seq? e.sid with
    | some q => some
        { p := p, position := e.position, ctx := s.ctx? e.sid, toks := s.script q
          pages := q.leaves.map fun l => (l.layer, l.page, l.sv, s.nearRead l.frame p.pageBytes) }
    | none => (s.setOf e.kvHandle).map fun t =>
        { p := p, position := e.position, ctx := t.ctx, pages := t.pages
          toks := match t.seq with | some q => s.script q | none => [] }

/-- The offset of a page in an image (R289). -/
def pageOffset (x : ImgSource) (layer page : Nat) : Nat :=
  20480 + (layer * capacityOf x.position + page) * x.p.pageBytes

/-- Image bytes that the pieces done so far have read: all of them once the move is gone (R290). -/
def State.imgReady (s : State) (x : ImgSource) (t : ImgTx) : Nat :=
  match s.moveOf (.handoff t.sid t.dest) with
  | some m => if m.doneP = 0 then 0 else (pieceRange x.p x.position (m.doneP - 1)).2
  | none => t.image

/-- Change a copy being sent. -/
def State.updTx (s : State) (sid : W64) (f : ImgTx → ImgTx) : State :=
  { s with plw := { s.plw with tx := updFirst (fun t => t.sid == sid) f s.plw.tx } }

/-- A place of a copy as a byte count over both objects. -/
def imgLin (t : ImgTx) (x : Nat × Nat) : Nat := x.2 + if x.1 = 0 then 0 else if x.1 = 1 then t.image else t.image + t.trx

/-- The most payload of one message (R358). -/
def imgMax : Nat := 16777216 - 32

/-- The message that carries bytes of the image or the transcript from a place on. -/
def imgMsg (x : ImgSource) (t : ImgTx) (node obj off n : Nat) : ImgMsg :=
  { object := obj, sender := node, sid := t.sid, epoch := t.epoch, offset := off, total := if obj = 0 then t.image else t.trx
    len := n, position := x.position
    ctx := if obj = 0 && off ≤ 4096 && 4096 < off + n then x.ctx else none
    pages := if obj = 0 then x.pages.filter fun g =>
        decide (off ≤ pageOffset x g.1 g.2.1) && decide (pageOffset x g.1 g.2.1 < off + n) else []
    toks := if obj = 1 then (x.toks.drop (off / 4)).take (n / 4) else [] }

/-- Send what the window, and for the image the pieces done, allow (R379): at most 64 MiB unacknowledged. -/
def State.imgPump (fuel : Nat) (s : State) (sid : W64) : State :=
  match fuel with
  | 0 => s
  | fuel + 1 =>
    match s.plw.tx.find? (fun t => t.sid == sid), s.owner? sid with
    | some t, some e =>
      match s.imgSource e with
      | none => s
      | some x =>
        let obj := t.cur.1
        let off := t.cur.2
        let total := if obj = 0 then t.image else t.trx
        let room := 67108864 - (imgLin t t.cur - imgLin t t.ack)
        let ready := if obj = 0 then s.imgReady x t - off else total - off
        let n := min (min imgMax (total - off)) (min room ready)
        if 2 ≤ obj || (n = 0 && off < total) then s else
          let s := s.emit { dest := t.dest, bed := some t.bed, msg := .imgData (imgMsg x t s.node obj off n) }
          let next := if total ≤ off + n then (obj + 1, 0) else (obj, off + n)
          State.imgPump fuel ((s.updTx sid fun t => { t with cur := next }).touchOwn sid) sid
    | _, _ => s

/-- A bound on the messages of one pump: 64 MiB in messages of nearly 16 MiB, and one for an empty transcript. -/
def pumpMax : Nat := 8

/-- Start the copy of a handoff (R104, R290): a move of class 2 reads the image, and IMG_DATA carries it. -/
def State.startHandoff (s : State) (e : Entry) (node : Nat) : State :=
  match s.imgSource e with
  | none => s
  | some x =>
    let t : ImgTx := { sid := e.sid, epoch := e.epoch + 1, dest := node, bed := e.bed, image := imageLength x.p x.position
                       trx := 4 * x.toks.length, advanced := s.now, resent := s.now }
    let region := match s.seq? e.sid with | some q => q.region | none => (s.regionsOf e.bed).headD 0
    let txs := t :: s.plw.tx.filter fun y => y.sid != e.sid
    let s := { s with plw := { s.plw with tx := txs } }
    s.addMove { ix := 0, what := .handoff e.sid node, cls := 2, bed := e.bed, region := region, fromTier := tierNum e.tier
                toTier := 3, pieces := x.p.layers }

/-- A piece of a handoff is read: what it makes ready is sent. -/
def State.handoffPiece (s : State) (sid : W64) : State := s.imgPump pumpMax sid

/-- The copy ends. -/
def State.endTx (s : State) (sid : W64) : State :=
  let f := fun (m : Move) => match m.what with | .handoff x _ => x == sid | _ => false
  let txs := s.plw.tx.filter fun t => t.sid != sid
  { s with plw := { s.plw with tx := txs }, tiers := { s.tiers with moves := s.tiers.moves.filter fun m => !f m } }

/-- IMG_ACK (R379): one that advances moves the window; one beyond the place resent from goes on from there. -/
def State.imgAck (s : State) (m : ImgMsg) : State :=
  let s := s.touchOwn m.sid
  match s.plw.tx.find? fun t => t.sid == m.sid && t.epoch == m.epoch with
  | none => s
  | some t =>
    let total := if m.object = 0 then t.image else t.trx
    let pos := if total ≤ m.offset then (m.object + 1, 0) else (m.object, m.offset)
    if imgLin t pos + pos.1 ≤ imgLin t t.ack + t.ack.1 then s else
      let cur := if imgLin t t.cur + t.cur.1 < imgLin t pos + pos.1 then pos else t.cur
      let s := s.updTx m.sid fun t => { t with ack := pos, cur := cur, advanced := s.now, resent := s.now }
      if 2 ≤ pos.1 then s.endTx m.sid else s.imgPump pumpMax m.sid

/-- IMG_RESEND_TIMER (R379): 48 ft without an advancing acknowledgement. -/
def State.imgResend (s : State) (sid : W64) : State :=
  match s.plw.tx.find? fun t => t.sid == sid with
  | some t =>
    if ftReached s.now (ftAdd t.resent 48) then
      (s.updTx sid fun t => { t with cur := t.ack, resent := s.now }).imgPump pumpMax sid
    else s
  | none => s

/-- IMG_GIVE_UP (R379): 480 ft without an advancing acknowledgement. -/
def State.imgGiveUp (s : State) (sid : W64) : State :=
  match s.plw.tx.find? fun t => t.sid == sid with
  | some t => if ftReached s.now (ftAdd t.advanced 480) then s.endTx sid else s
  | none => s

/-! ## Receiving -/

/-- Change a copy being received. -/
def State.updRx (s : State) (sid : W64) (f : ImgRx → ImgRx) : State :=
  { s with plw := { s.plw with rx := updFirst (fun t => t.sid == sid) f s.plw.rx } }

/-- The record of a copy being received, made at its first message. -/
def State.openRx (s : State) (m : ImgMsg) : ImgRx × State :=
  match s.plw.rx.find? fun t => t.sid == m.sid && t.epoch == m.epoch with
  | some t => (t, s)
  | none =>
    let t : ImgRx := { sid := m.sid, epoch := m.epoch }
    let rxs := t :: s.plw.rx.filter fun y => y.sid != m.sid
    (t, { s with plw := { s.plw with rx := rxs } })

/-- Acknowledge an object. -/
def State.sendImgAck (s : State) (m : ImgMsg) (off : Nat) : State :=
  let bed := (s.owner? m.sid).map fun e => e.bed
  let a : ImgMsg := { object := m.object, sender := s.node, sid := m.sid, epoch := m.epoch, offset := off, total := m.total }
  (s.emit { dest := m.sender, bed := bed, msg := .imgAck a }).touchOwn m.sid

/-- Everything is here (R104): the session's tensors and its output context are placed, and the claim goes to the home. Transcript tokens
at or above POSITION are the recompute positions (R218). -/
def State.imgHeld (s : State) (e : Entry) (t : ImgRx) (from_ : Nat) : State :=
  match s.profile? e.bed e.profile with
  | none => s
  | some p =>
    match s.placePages e.sid p true t.pages with
    | none => s.setStatus F.TIER_STATUS_NO_ROOM e.bed
    | some s =>
      let s := s.updSeq e.sid fun q => { q with tokens := t.toks.take e.position, recompute := t.toks.drop e.position }
      let s := match t.ctx with
        | some c => s.updCtx e.sid fun o => { c with bed := o.bed, sid := o.sid, near := o.near }
        | none => s
      (s.updRx e.sid fun t => { t with claimed := true, claimFt := s.now, pages := [] }).sendHome e.sid .claim
        { epoch := e.epoch - 1, node := from_ }

/-- IMG_DATA (R379): taken in order for an AWAITING entry at the offered epoch; acknowledged after every 16 MiB and at TOTAL;
one below the next byte is answered at once. -/
def State.imgData (s : State) (m : ImgMsg) : State :=
  let s := s.touchOwn m.sid
  match (s.owner? m.sid).filter fun e => e.own == .awaiting && e.epoch == m.epoch with
  | none => s
  | some e =>
    if 1 < m.object then s else
    let r := s.openRx m
    let t := r.1
    let s := r.2
    let want := if m.object = 0 then t.image else t.trx
    if m.offset < want then s.sendImgAck m want
    else if want < m.offset then s
    else
      let got := want + m.len
      let s := s.updRx m.sid fun t =>
        if m.object = 0 then { t with image := got, imageTotal := some m.total, ctx := m.ctx <|> t.ctx, pages := t.pages ++ m.pages }
        else { t with trx := got, trxTotal := some m.total, toks := t.toks ++ m.toks }
      let s := if want / 16777216 < got / 16777216 || m.total ≤ got then s.sendImgAck m got else s
      match s.plw.rx.find? fun x => x.sid == m.sid with
      | some x =>
        let full := (x.imageTotal.any fun n => decide (n ≤ x.image)) && x.trxTotal.any fun n => decide (n ≤ x.trx)
        if full && !x.claimed then s.imgHeld e x m.sender else s
      | none => s

end Sys2Proof.Machine
end

