-- ==== Sys2Proof/Machine/Sessions.lean ====
section
/-! DEFINITION. The session commands (R94, R98, R104, R113 to R117, R513, R514) and the changes that wait for a session's
step boundary. -/

namespace Sys2Proof.Machine

/-- The issuing Bed of a session command; the physical function has none. -/
def State.cmdBed (d : Desc) : Nat := (dBed d).getD 0

/-- Furrow `n` belongs to a Bed. -/
def State.ownsFurrow (s : State) (bed n : Nat) : Bool := (s.furrow? n).any fun f => f.bed == bed

/-! ## SES_OPEN -/

/-- SES_OPEN (R98, R117): the checks, then CLAIM with NEW; the CONFIRM makes the entry. -/
def State.sesOpen (s : State) (d : Desc) : State :=
  let bed := State.cmdBed d
  let sid := d.target
  if (s.entry? sid).isSome || s.ses.waits.any (fun w => w.sid == sid && w.why == SesWhy.open) then
    s.complete d SesSt.sidExists
  else if (s.profile? bed (dArg d 48 2)).isNone || !s.ownsFurrow bed (dArg d 52 2) then s.complete d St.notFound
  else if !s.dirQuotaOk bed || !s.liveQuotaOk bed then s.complete d St.overQuota
  else match s.homeOf sid with
    | none => s.complete d SesSt.homeUnreachable
    | some _ =>
      (s.addWait { sid := sid, why := .open, since := s.now, d := some d }).sendHome sid .claim { flagNew := true }

/-! ## SES_CLOSE, SES_PAUSE, SES_RESUME, SES_PARK -/

/-- A session is closed and the commands that wait on it end (R98). -/
def State.closeNow (s : State) (sid : W64) (d : Option Desc) : State :=
  let s := s.finishWaits sid (fun w => w == .resume || w == .open || w == .revive || w == .move) SesSt.wrongState
  ((s.endInput sid SesSt.wrongState).closeSession sid).complete? d St.ok

/-- SES_CLOSE (R98): at the next boundary for a LIVE session, else at once. -/
def State.sesClose (s : State) (d : Desc) : State :=
  match s.heldEntry d d.target with
  | .error st => s.complete d st
  | .ok e =>
    match e.state with
    | .live => s.addBoundary e.sid (.close (some d))
    | .closed => s.complete d St.ok
    | _ => s.closeNow e.sid (some d)

/-- SES_PAUSE (R98). -/
def State.sesPause (s : State) (d : Desc) : State :=
  match s.heldEntry d d.target with
  | .error st => s.complete d st
  | .ok e =>
    if e.state == .live then s.addBoundary e.sid (.pause (dArg d 48 1 % 4) d) else s.complete d SesSt.wrongState

/-- A pause at its boundary. -/
def State.pauseNow (s : State) (e : Entry) (reason : Nat) (d : Desc) : State :=
  let s := s.idleSlot e.sid
  let s := s.updEntry e.sid fun e => { e with
    state := .paused, slot := none, pauseReason := reason, expiry := s.expiryAfter (s.rdN .SES_TTL_PAUSED e.bed) }
  s.complete d St.ok

/-- A SES_RESUME of a session for which this node holds no entry (R110). The profile is the Bed's lowest and the Furrow is
that of the ARGS, because the entry that names them is elsewhere: DESIGN CHOICE (log entry 15). -/
def State.resumeAbroad (s : State) (d : Desc) : State :=
  let bed := State.cmdBed d
  if (minNat? ((s.profilesOf bed).map fun p => p.id)).isNone || !s.ownsFurrow bed (dArg d 48 2) then s.complete d St.notFound
  else if !s.dirQuotaOk bed || !s.liveQuotaOk bed then s.complete d St.overQuota
  else s.startRevival d.target 0 (some d)

/-- SES_RESUME (R98, R100, R110, R113, R115). -/
def State.sesResume (s : State) (d : Desc) : State :=
  match s.owner? d.target with
  | none => s.resumeAbroad d
  | some _ =>
    match s.heldEntry d d.target with
    | .error st => s.complete d st
    | .ok e =>
      if e.state == .live || e.state == .closed then s.complete d SesSt.wrongState
      else if !s.liveQuotaOk e.bed && !s.liveWaits e.sid then s.complete d St.overQuota
      else
        let f := dArg d 48 2
        let s := if f != 0xFFFF && s.ownsFurrow e.bed f then s.updEntry e.sid fun e => { e with furrow := some f } else s
        let e := (s.owner? e.sid).getD e
        match s.wake e (some d) with
        | .ok s => s
        | .error st =>
          let s := if e.state == .parked && (st == St.notFound || st == St.tableVersion) then
            s.setStatus F.SES_STATUS_REVIVE_REFUSED e.bed else s
          (s.noRegion e.bed st).complete d st

/-- A park begins (R513): the intake stream is flushed, the slot is released, the entry reads PAUSED with reason host. -/
def State.parkNow (s : State) (e : Entry) (tier : Nat) (d : Desc) : State :=
  let s1 := (s.flushIntake e.sid).idleSlot e.sid
  match s1.startDown e tier (some d) with
  | .error st => s.complete d st
  | .ok s => s.updEntry e.sid fun e => { e with state := .paused, slot := none, pauseReason := 3, expiry := 0 }

/-- A change that copies a session's KV waits: for the slot the session asks for, or for the move of it that runs (R219). -/
def State.copyWaits (s : State) (sid : W64) : Bool := s.liveWaits sid || (s.moveOf (.session sid)).isSome

/-- SES_PARK (R513, R294). A tier other than 1 and 2 completes with WRONG_STATE: the spec gives no status for it, DESIGN CHOICE (log
entry 106). A further copy of a session waits for the one that runs (R219). -/
def State.sesPark (s : State) (d : Desc) : State :=
  match s.heldEntry d d.target with
  | .error st => s.complete d st
  | .ok e =>
    let tier := tierOf (dArg d 48 1)
    if tier != .cxl && tier != .mulch then s.complete d SesSt.wrongState
    else match e.state with
      | .live => s.addBoundary e.sid (.park tier d)
      | .paused => if s.copyWaits e.sid then s.addBoundary e.sid (.park tier d) else s.parkNow e (tierNum tier) d
      | _ => s.complete d SesSt.wrongState

/-! ## SES_CUT -/

/-- The position P of a cut (R114): mode 0 gives it, mode 1 finds the first audio token of the turn that does not play
before T; P is not below TURN_START, and nothing is removed at POSITION or above. What RESULT and the CUT event report then, and
where mode 1 finds no token, is POSITION: the spec does not say, DESIGN CHOICE (log entry 106). -/
def State.cutPoint (s : State) (e : Entry) (mode p : Nat) (t : W64) : Nat :=
  let want := if mode = 0 then p else
    match s.ctx? e.sid, s.profile? e.bed e.profile with
    | some c, some pr => (playCut c.playLog pr t).getD e.position
    | _, _ => e.position
  min (max want e.turnStart) e.position

/-- A cut takes effect (R114): RESULT gives P and the positions removed. -/
def State.cutNow (s : State) (e : Entry) (mode p : Nat) (t : W64) (d : Desc) : State :=
  let q := s.cutPoint e mode p t
  (s.applyCut e q).complete d St.ok (q + (e.position - q) * 2 ^ 32)

/-- SES_CUT (R114). -/
def State.sesCut (s : State) (d : Desc) : State :=
  match s.heldEntry d d.target with
  | .error st => s.complete d st
  | .ok e =>
    let mode := dArg d 48 1
    let p := dArg d 56 8 % 2 ^ 23
    let t := BitVec.ofNat 64 (dArg d 56 8)
    match e.state with
    | .live => s.addBoundary e.sid (.cut mode p t d)
    | .paused => s.cutNow e mode p t d
    | _ => s.complete d SesSt.wrongState

/-! ## SES_MOVE, SES_ACCEPT -/

/-- A handoff begins (R104): the intake stream is flushed, the entry is OFFERED, OFFER goes to the target and the copy
starts. -/
def State.moveNow (s : State) (e : Entry) (node : Nat) (d : Desc) : State :=
  let s := s.flushIntake e.sid
  let s := s.updEntry e.sid fun e => { e with own := .offered }
  let e := (s.owner? e.sid).getD e
  let s := (s.sendOwn node (some e.bed) .offer
    { sid := e.sid, code := SesNum e.state, entry := some e }).touchOwn e.sid
  (s.startHandoff e node).addWait { sid := e.sid, why := .move, since := s.now, d := some d }

/-- SES_MOVE (R104); like any further copy it waits for a copy of the session that runs (R219). -/
def State.sesMove (s : State) (d : Desc) : State :=
  match s.heldEntry d d.target with
  | .error st => s.complete d st
  | .ok e =>
    let node := dArg d 48 2
    if s.ses.map.isNone then s.complete d SesSt.homeUnreachable else
    match e.state with
    | .live => s.addBoundary e.sid (.move node d)
    | .paused | .parked =>
      if s.copyWaits e.sid || s.ckCovered e.bed e.sid then s.addBoundary e.sid (.move node d) else s.moveNow e node d
    | _ => s.complete d SesSt.wrongState

/-- SES_ACCEPT (R104). -/
def State.sesAccept (s : State) (d : Desc) : State :=
  let a := s.ses.armed.filter fun x => x != (State.cmdBed d, d.target)
  let a := if dArg d 48 1 % 2 = 1 then a else a ++ [(State.cmdBed d, d.target)]
  ({ s with ses := { s.ses with armed := a } }).complete d St.ok

/-! ## SES_QUERY (R514) -/

/-- Bit 63 of RESULT: an owner entry was copied (R514). -/
def copiedBit (copied : Bool) : Nat := if copied then 2 ^ 63 else 0

/-- RESULT of a SES_QUERY from the home's answer: epoch, owner and STATE of its record, or none. -/
def queryResult (copied : Bool) (r : Option (W32 × Nat × Nat)) : Nat :=
  copiedBit copied +
  match r with
  | some (ep, node, st) => ep.toNat + (node % 512) * 2 ^ 32 + st * 2 ^ 48
  | none => 2 ^ 62

/-- SES_QUERY ends with the home's answer (R514). -/
def State.queryEnd (s : State) (d : Desc) (copied : Bool) (r : Option (W32 × Nat × Nat)) : State :=
  s.complete d (if !copied && r.isNone then St.notFound else St.ok) (queryResult copied r)

/-- SES_QUERY. -/
def State.sesQuery (s : State) (d : Desc) : State :=
  let e := s.view? d d.target
  let bs := match e with | some e => entryBytes e | none => List.replicate 64 0
  let s := s.writeAddr d d.addr0 bs
  match s.homeOf d.target with
  | none => s.complete d SesSt.homeUnreachable (copiedBit e.isSome)
  | some h =>
    if h = s.node then
      s.queryEnd d e.isSome ((s.record? d.target).map fun r => (r.recEpoch, r.recNode, SesNum (homeState r)))
    else
      (s.sendHome d.target .query {}).addWait
        { sid := d.target, why := .query, since := s.now, d := some d, path := if e.isSome then 1 else 0 }

/-! ## SES_SET_LIMIT -/

/-- The register of a limit kind (R117). -/
def limitReg (kind : Nat) : RN :=
  match kind with
  | 0 => .SES_QUOTA_DIR | 1 => .SES_QUOTA_LIVE | 2 => .SES_TTL_PAUSED | 3 => .SES_TTL_CXL | 4 => .SES_TTL_MULCH
  | _ => .SES_TTL_DROPPED

/-- The Bed whose limit is set: the issuer's, or the one the physical function names. -/
def limitBed (d : Desc) : Nat := match dBed d with | some b => b | none => dArg d 50 1

/-- SES_SET_LIMIT (R117, R512). A kind that the issuer may not set is unchecked input (R84) and sets nothing. -/
def State.sesSetLimit (s : State) (d : Desc) : State :=
  let kind := dArg d 48 1
  let bed := limitBed d
  if !s.bedConfigured bed then s.complete d St.bedAbsent
  else if 5 < kind || (kind < 2) != (dFn d == 0) then s.complete d St.ok
  else
    let old := s.rdN (limitReg kind) bed
    s.submitCmd d [s.jCmd d 0x0003 bed kind bed (dig32 old) (dig32 (dArg d 52 4))] [] (.cmd d [] old)

/-- SES_SET_LIMIT once durable. -/
def State.sesSetLimitDone (s : State) (d : Desc) : State :=
  let r := limitReg (dArg d 48 1)
  let old := s.rdN r (limitBed d)
  (s.wrN r (dArg d 52 4) (limitBed d)).complete d St.ok old

/-! ## SES_MAP_LOAD (R93, R94) -/

/-- The home map that a table of R93 spells, if it breaks no rule of the table. -/
def parseMap (bs : List Byte) : Option HomeMap :=
  let nodes := (List.range 4096).map fun k => bytesAt bs (64 + 2 * k) 2
  let m : HomeMap :=
    { version := BitVec.ofNat 32 (bytesAt bs 8 4), renew := bytesAt bs 12 4, lease := bytesAt bs 16 4
      guardFt := bytesAt bs 20 4, tombstone := bytesAt bs 24 4, nodes := nodes, table := bs }
  if bs.length == 8256 && bytesAt bs 0 4 == 0x504D4853 && bytesAt bs 4 1 == 1 && bytesAt bs 5 3 == 0 &&
     m.version != 0 && decide (0 < m.renew) && decide (4 * m.renew ≤ m.lease) &&
     decide (m.guardFt + m.renew < m.lease) && bytesAt bs 28 36 == 0 && nodes.all (fun n => decide (n < 512)) then some m
  else none

/-- SES_MAP_LOAD (R94). -/
def State.sesMapLoad (s : State) (d : Desc) : State :=
  let bs := s.buf0 d
  match parseMap bs with
  | none => s.complete d St.tableVersion
  | some m =>
    let held := match s.ses.map with | some h => h.version | none => 0
    if s.ses.map.any fun h => h.version == m.version && h.table == bs then s.complete d St.ok m.version.toNat
    else if m.version.toNat ≤ held.toNat then s.complete d St.versionRefused
    else
      let old := match s.ses.map with | some h => digest128 h.table | none => 0
      s.submitCmd d [s.jCmd d 0x0004 0xFF (7 * 256) m.version.toNat old (digest128 bs)]
        [{ typ := 0x0040, key := 0, payload := bs }] (.cmd d bs 0)

/-- The transfer of one message of a bucket given up (R94). -/
def State.sendXfer (s : State) (x : Xfer) : State :=
  let seq := s.ses.msgSeq
  let s := match x.entry with
    | some e => s.sendOwn x.dest none .homeXfer { sid := e.sid, entry := some e }
    | none => match x.toks with
      | some (sid, pos, ts) => s.sendOwn x.dest none .trxData { sid := sid, position := pos, tokens := ts }
      | none => s.sendOwn x.dest none .homeXferEnd { node := x.bucket }
  let xs := s.ses.xferOut ++ [{ x with seq := seq, refused := false, lastSent := s.now }]
  { s with ses := { s.ses with xferOut := xs } }

/-- A home record leaves this node with its bucket and its transcript copy: an entry that this node also owns stays as the
owner's. -/
def State.dropRecord (s : State) (sid : W64) : State :=
  let s := s.discardTranscript sid
  match s.entry? sid with
  | some e => if e.isOwner then s.updEntry sid fun e => { e with isHome := false, transcript := 0 } else s.freeEntry sid
  | none => s

/-- Send the transcript copy of a record that leaves, 64 token IDs in each TRX_DATA. -/
def State.sendCopy (s : State) (sid : W64) (k dest : Nat) : State :=
  match s.ses.transcripts.find? fun t => t.sid == sid with
  | none => s
  | some t => (List.range (ceilDiv t.tokens.length 64)).foldl (fun s i => s.sendXfer
      { bucket := k, dest := dest, seq := 0, lastSent := 0, entry := none
        toks := some (sid, 64 * i, (t.tokens.drop (64 * i)).take 64) }) s

/-- Give a bucket up: its records, then its end (R94). A record's transcript copy follows it in TRX_DATA: the spec does not say how it
travels, DEDUCED (log entry 97). -/
def State.giveBucket (s : State) (k dest : Nat) : State :=
  let rs := s.ses.entries.filter fun e => e.isHome && homeBucket e.sid == k
  let s := rs.foldl (fun s e => ((s.sendXfer
    { bucket := k, dest := dest, seq := 0, lastSent := 0
      entry := some { e with state := homeState e, isOwner := false, own := .confirmed, epoch := e.recEpoch
                             ownerNode := e.recNode } }).sendCopy e.sid k dest).dropRecord e.sid) s
  s.sendXfer { bucket := k, dest := dest, seq := 0, entry := none, lastSent := 0 }

/-- A map is held; SES_MAP_VERSION and SES_LEASE of every Bed show it (R119, `State.view`). -/
def State.holdMap (s : State) (m : HomeMap) : State := { s with ses := { s.ses with map := some m } }

/-- SES_MAP_LOAD once durable: buckets change hands (R94). -/
def State.sesMapLoadDone (s : State) (d : Desc) (bs : List Byte) : State :=
  match parseMap bs with
  | none => s.complete d St.tableVersion
  | some m =>
    let old := s.ses.map
    let s := s.holdMap m
    let me := s.node
    let s := match old with
      | none => s
      | some o =>
        let ks := List.range 4096
        let up := (ks.filter fun k => m.nodes.getD k 0 == me && o.nodes.getD k 0 != me).map fun k =>
          (k, o.nodes.getD k 0, s.now)
        let s := { s with ses := { s.ses with takeUp := s.ses.takeUp ++ up } }
        (ks.filter fun k => o.nodes.getD k 0 == me && m.nodes.getD k 0 != me).foldl (fun s k =>
          s.giveBucket k (m.nodes.getD k 0)) s
    s.complete d St.ok m.version.toNat

/-! ## Changes at a boundary -/

/-- A session does not take the slot it waits for: its commands end with the status; one that was being opened is closed, any other
stays PAUSED with its time-to-live begun again. -/
def State.notLive (s : State) (e : Entry) (st : Nat) : State :=
  let opened := s.ses.waits.any fun w => w.sid == e.sid && w.why == SesWhy.open
  let s := s.finishWaits e.sid (fun w => w == .open || w == .resume) st
  if opened then s.closeNow e.sid none
  else s.updEntry e.sid fun e => { e with expiry := s.expiryAfter (s.rdN .SES_TTL_PAUSED e.bed) }

/-- A session takes its slot, or keeps waiting: a quota that refuses a revival by input holds it (R115); no free slot ends
the commands that wait with NO_RESOURCE, an IN_SUBMIT that asked for the transition among them (R126). A downward move that began
while it waited is cancelled (R100). -/
def State.liveNow (s : State) (e : Entry) : State :=
  let asked := s.ses.waits.any fun w => w.sid == e.sid && w.d.isSome && (w.why == SesWhy.open || w.why == SesWhy.resume)
  if !s.liveQuotaOk e.bed then
    if asked then s.notLive e St.overQuota
    else (s.setStatus F.SES_STATUS_QUOTA_REFUSED e.bed).addBoundary e.sid .setLive
  else
    match (s.cancelMoves e.sid).takeSlot e.sid (s.liveJob e.sid) with
    | some s => ((s.finishLive e.sid).prefixLookup e.sid).pumpIntake e.sid
    | none => (s.notLive e St.noResource).endInput e.sid St.noResource

/-- A revival that input asked for while QUOTA_LIVE had no room is tried again (R115). -/
def State.retryWake (s : State) (e : Entry) : State :=
  if s.ses.waits.any fun w => w.sid == e.sid && w.why == SesWhy.revive then s
  else match s.wakeByInput e with
    | .ok s => s
    | .error st => (s.noRegion e.bed st).endInput e.sid st

/-- One change of a session at its boundary. A cut and a handoff wait for a step in progress (R114, R104), a
handoff also for a checkpoint that covers the session (R410), a park and a handoff for a copy that runs (R219); a session that is
no longer held drops the change. -/
def State.boundaryOp (s : State) (sid : W64) (op : BoundaryOp) : State :=
  match s.owner? sid with
  | none => s
  | some e =>
    let busy := s.sch.work.any fun w => w.sid == sid
    if e.own != .confirmed then s.addBoundary sid op else
    match op with
    | .setLive => match e.state with
      | .paused => s.liveNow e
      | .parked | .dropped => s.retryWake e
      | _ => s
    | .pause r d => if e.state == .live then s.pauseNow e r d else s.complete d SesSt.wrongState
    | .park t d =>
      if e.state == .paused && s.copyWaits sid then s.addBoundary sid op
      else if e.state == .live || e.state == .paused then s.parkNow e (tierNum t) d
      else s.complete d SesSt.wrongState
    | .close d => s.closeNow sid d
    | .cut m p t d =>
      if e.state != .live then s.complete d SesSt.wrongState
      else if busy then s.addBoundary sid op else s.cutNow e m p t d
    | .move n d =>
      if s.ckCovered e.bed sid || busy || s.copyWaits sid then s.addBoundary sid op
      else if e.state == .live || e.state == .paused || e.state == .parked then s.moveNow e n d
      else s.complete d SesSt.wrongState

/-- A change of a session waits for a later boundary, other than its asking for a slot. -/
def State.opWaits (s : State) (sid : W64) : Bool :=
  s.ses.boundary.any fun p => p.1 == sid && (match p.2 with | .setLive => false | _ => true)

/-- The changes of the sessions of a profile at its boundary, in the order they were asked for: one that must wait keeps the later
ones of its session waiting too (R83). -/
def State.applyBoundary (s : State) (bed pid : Nat) : State :=
  let mine := fun (x : W64 × BoundaryOp) => (s.owner? x.1).any fun e => e.bed == bed && e.profile == pid
  let now_ := s.ses.boundary.filter mine
  let s := { s with ses := { s.ses with boundary := s.ses.boundary.filter fun x => !mine x } }
  now_.foldl (fun s x => if s.opWaits x.1 then s.addBoundary x.1 x.2 else s.boundaryOp x.1 x.2) s

end Sys2Proof.Machine
end

