-- ==== Sys2Proof/Machine/Checkpoint.lean ====
section
/-! DEFINITION. Checkpoints (R404 to R418): arming, the cut, shards and the manifest. -/

namespace Sys2Proof.Machine

/-! ## Statuses and codes (R407, R425) -/

namespace CkSt
def notArmed : Nat := 0x80
def busy : Nat := 0x81
def mixedStep : Nat := 0x82
def digest : Nat := 0x83
def aborted : Nat := 0x84
def deadline : Nat := 0x85
def profileMismatch : Nat := 0x86
def notStaged : Nat := 0x87
end CkSt

namespace CkCode
def notArmed : Nat := 1
def late : Nat := 2
def busy : Nat := 3
def deadline : Nat := 4
def shardFailed : Nat := 5
def refused : Nat := 6
end CkCode

/-- Send a checkpoint message: control messages are the device's, shard bytes the Bed's (R407). -/
def State.ckSend (s : State) (dest : Nat) (bed : Option Nat) (t : CkType) (m : CkMsg) : State :=
  s.emit { dest := dest, bed := bed, msg := .ck t { m with sender := s.node } }

/-- The arming of a Bed. -/
def State.ckArm? (s : State) (bed : Nat) : Option CkArm := s.ck.arms.find? fun a => a.bed == bed

/-- The checkpoint that a Bed coordinates. -/
def State.ckRound? (s : State) (bed : Nat) : Option CkRound := s.ck.rounds.find? fun r => r.bed == bed

/-- Change it. -/
def State.updRound (s : State) (bed : Nat) (f : CkRound → CkRound) : State :=
  { s with ck := { s.ck with rounds := updFirst (fun r => r.bed == bed) f s.ck.rounds } }

/-! ## CK_ARM (R404) -/

/-- A list of participants: node and Bed. -/
def parseParts (bs : List Byte) : List (Nat × Nat) :=
  (List.range (min 4096 (bs.length / 4))).map fun i => (bytesAt bs (4 * i) 4 % 512, bits (bytesAt bs (4 * i) 4) 19 16)

/-- CK_ARM. While a checkpoint of the Bed is in progress a new arming is refused as a disarm is: DEDUCED (log entry 44). -/
def State.ckArm (s : State) (d : Desc) : State :=
  let bed := (dBed d).getD 0
  if (s.ckPart? bed).isSome || (s.ckRound? bed).isSome then s.complete d CkSt.busy else
  let rest := s.ck.arms.filter fun a => a.bed != bed
  if dArg d 57 1 % 2 = 1 then State.complete { s with ck := { s.ck with arms := rest } } d St.ok
  else if (s.profile? bed (dArg d 54 2)).isNone then s.complete d St.notFound
  else
    let coord := dArg d 52 2 % 512
    let a : CkArm :=
      { bed := bed, job := BitVec.ofNat 32 (dArg d 48 4), coord := coord, profile := dArg d 54 2, dest := dArg d 56 1
        orch := dArg d 58 2, d := d
        parts := if coord = s.node then parseParts (s.readAddr d d.addr1 (dLen1 d)) else [] }
    State.complete { s with ck := { s.ck with arms := rest ++ [a] } } d St.ok

/-! ## Notice and cut (R405, R406, R408) -/

/-- The first boundary of a job profile at least CK_LEAD ft after now (R405). -/
def State.ckBoundary (s : State) (p : Profile) : Nat :=
  let lead := s.rdN .CK_LEAD p.bed
  firstBoundary p.anchor p.period (ftSample (s.now + BitVec.ofNat 64 (ftUnit - 1))) (if lead = 0 then 48 else lead)

/-- CKPT_ID of a job's checkpoint at the boundary of a SAMPLE (R406). -/
def ckptId (job : W32) (b : Nat) : W64 := BitVec.ofNat 64 (job.toNat * 2 ^ 32 + b % 2 ^ 32)

/-- CK_PREPARE to every participant. -/
def State.ckPrepareAll (s : State) (a : CkArm) (r : CkRound) : State :=
  a.parts.foldl (fun s x => s.ckSend x.1 none .prepare
    { evict := r.evict, bed := x.2, ckpt := r.ckpt, job := a.job, cut := r.cut, deadline := r.deadline }) s

/-- CK_ABORT to every participant. -/
def State.ckAbortAll (s : State) (a : CkArm) (r : CkRound) (code : Nat) : State :=
  a.parts.foldl (fun s x => s.ckSend x.1 none .abort { code := code, bed := x.2, ckpt := r.ckpt, job := a.job }) s

/-- A checkpoint ends at its coordinator: the commands that started or joined it complete. -/
def State.endRound (s : State) (r : CkRound) (st res : Nat) : State :=
  let s := { s with ck := { s.ck with rounds := s.ck.rounds.filter fun x => x.bed != r.bed } }
  r.starts.foldl (fun s d => s.complete d st res) s

/-- A checkpoint starts, or a notice merges into the running one (R405, R406). -/
def State.ckBegin (s : State) (a : CkArm) (deadline : W64) (evict : Bool) (start : Option Desc) : State :=
  match s.ckRound? a.bed with
  | some r =>
    let r := { r with deadline := if ftLater r.deadline deadline then deadline else r.deadline, evict := r.evict || evict
                      starts := r.starts ++ start.toList }
    (s.updRound a.bed fun _ => r).ckPrepareAll a r
  | none =>
    match s.profile? a.bed a.profile with
    | none => s.complete? start St.notFound
    | some p =>
      let b := s.ckBoundary p
      let r : CkRound :=
        { bed := a.bed, ckpt := ckptId a.job b, cut := ftOfSample b, deadline := deadline, evict := evict, starts := start.toList }
      State.ckPrepareAll { s with ck := { s.ck with rounds := s.ck.rounds ++ [r] } } a r

/-- This node coordinates the Bed's job. -/
def State.coordinates (s : State) (a : CkArm) : Bool := a.coord == s.node && !a.parts.isEmpty

/-- CK_START (R405, R425). -/
def State.ckStart (s : State) (d : Desc) : State :=
  match (s.ckArm? ((dBed d).getD 0)).filter s.coordinates with
  | none => s.complete d CkSt.notArmed
  | some a => s.ckBegin a (BitVec.ofNat 64 (dArg d 56 8)) (dArg d 48 1 % 2 == 1) (some d)

/-- CK_NOTICE (R404, R405): from the orchestrator named alone. -/
def State.ckNotice (s : State) (m : CkMsg) : State :=
  match (s.ckArm? m.bed).filter fun a => s.coordinates a && a.job == m.job && a.orch == m.sender && a.orch != 0xFFFF with
  | none => s
  | some a => s.ckBegin a m.deadline m.evict none

/-- An attempt fails (R408): CK_ABORT, and the next boundary, at most three times. -/
def State.ckRetry (s : State) (r : CkRound) (code : Nat) : State :=
  match s.ckArm? r.bed with
  | none => s.endRound r CkSt.aborted 0
  | some a =>
    let s := s.ckAbortAll a r code
    match s.profile? a.bed a.profile with
    | none => s.endRound r CkSt.aborted 0
    | some p =>
      if 3 ≤ r.attempt then s.endRound r CkSt.aborted 0 else
        let b := s.ckBoundary p
        let b := if ftLater (ftOfSample b) r.cut then b else nextGrid p (ftSample r.cut)
        let r := { r with ckpt := ckptId a.job b, cut := ftOfSample b, attempt := r.attempt + 1, readies := [], dones := [] }
        (s.updRound r.bed fun _ => r).ckPrepareAll a r

/-- Every participant has answered: CK_READY names its node, so that a node with several Beds answers as often (log entry
44). -/
def CkRound.allReady (r : CkRound) (a : CkArm) : Bool :=
  a.parts.all fun x => decide ((a.parts.filter fun y => y.1 == x.1).length ≤ (r.readies.filter fun n => n == x.1).length)

/-- The checkpoint that an answer is for: its sender is a participant (R408, R416). -/
def State.roundOf (s : State) (m : CkMsg) : Option CkRound :=
  (s.ck.rounds.find? fun r => r.ckpt == m.ckpt).filter fun r =>
    (s.ckArm? r.bed).any fun a => a.parts.any fun x => x.1 == m.sender

/-- CK_READY (R408). -/
def State.ckReady (s : State) (m : CkMsg) : State :=
  match s.roundOf m with
  | none => s
  | some r => if m.code = 0 then s.updRound r.bed fun r => { r with readies := r.readies ++ [m.sender] } else s.ckRetry r m.code

/-- CK_PREPARE (R406, R408): a further one of the same checkpoint brings merged values and is not answered again. -/
def State.ckPrepare (s : State) (m : CkMsg) : State :=
  let answer := fun (s : State) (code : Nat) =>
    s.ckSend m.sender none .ready { code := code, ckpt := m.ckpt, job := m.job, cut := m.cut, deadline := m.deadline }
  match s.ckPart? m.bed with
  | some p =>
    if p.ckpt == m.ckpt then s.updPart m.bed fun p => { p with deadline := m.deadline, evict := m.evict }
    else answer s CkCode.busy
  | none =>
    if !((s.ckArm? m.bed).any fun a => a.job == m.job) then answer s CkCode.notArmed
    else if !ftLater (m.cut - BitVec.ofNat 64 (4 * ftUnit)) s.now then answer s CkCode.late
    else
      let p : CkPart :=
        { bed := m.bed, ckpt := m.ckpt, job := m.job, cut := m.cut, deadline := m.deadline, evict := m.evict, coord := m.sender }
      answer { s with ck := { s.ck with parts := s.ck.parts ++ [p] } } 0

/-- A Bed's part ends: its snapshots are released. -/
def State.endPart (s : State) (bed : Nat) : State :=
  State.dropSnapshots { s with ck := { s.ck with parts := s.ck.parts.filter fun p => p.bed != bed } } bed

/-- A checkpoint is aborted on a participant (R416). -/
def State.ckAborted (s : State) (p : CkPart) (late : Bool) : State :=
  (s.endPart p.bed).setStatus (if late then F.CK_STATUS_DEADLINE else F.CK_STATUS_ABORTED) p.bed

/-! ## The snapshot (R409, R411) -/

/-- Wire order of SIDs. -/
def bySid (l : List Entry) : List Entry := sortBy (fun a b => decide (a.sid.toNat < b.sid.toNat)) l

/-- The sessions that a checkpoint covers (R409), ascending by SID. -/
def State.ckSessions (s : State) (bed : Nat) : List Entry :=
  bySid (s.ses.entries.filter fun e => e.isOwner && e.bed == bed && e.own == .confirmed &&
    (e.state == .live || e.state == .paused || e.state == .parked || e.state == .dropped))

/-- The KV of a session is in near memory, as its STATE says. -/
def inNear (e : Entry) : Bool := e.state == .live || e.state == .paused

/-- An entry of a session is in flight, or its restored image is still being pulled. -/
def State.ckBusy (s : State) (sid : W64) : Bool :=
  (s.sch.work.any fun w => w.sid == sid) || (s.seq? sid).any fun q => q.pull.isSome

/-- What is known of a covered session at CUT. One that is IN_FLIGHT is captured later, and one whose restored image is still
being pulled when it is resident (log entry 44). -/
def State.ckSes (s : State) (e : Entry) : CkSes :=
  let graftV := match (if e.state == .live then (s.slotOf e.sid).map fun t => t.graftVersion else none) with
    | some v => v
    | none => match s.graftNow e.bed e.graft with | some g => g.2 | none => 0
  let busy := s.ckBusy e.sid
  { entry := e, captured := !(inNear e && busy), graftV := graftV
    image := if e.state == .parked then ((s.setOf e.kvHandle).filter fun t => t.state == .complete).map fun t => { ctx := t.ctx, pages := t.pages } else none
    turn := match s.seat? e.sid with | some t => t.turn | none => false
    home := (s.homeOf e.sid).getD 0 }

/-- The profile tables of a shard: those that its sessions name, and the job profile, ascending by PROFILE_ID (log entry 44). -/
def State.ckProfiles (s : State) (bed job : Nat) (es : List Entry) : List (List Byte) :=
  (sortBy (fun (a b : Profile) => decide (a.id < b.id))
    ((s.profilesOf bed).filter fun p => p.id == job || es.any fun e => e.profile == p.id)).map fun p => p.bytes

/-- The Graft versions of the covered sessions, ascending, with their tables. -/
def State.ckGrafts (s : State) (bed : Nat) (xs : List CkSes) : List (Nat × W32 × List Byte) :=
  let keys := (xs.filterMap fun x => x.entry.graft.map fun g => (g, x.graftV)).eraseDups
  let keys := sortBy (fun (a b : Nat × W32) => lex3 (a.1, a.2.toNat, 0) (b.1, b.2.toNat, 0)) keys
  keys.filterMap fun k => (s.graftV? bed k.1 k.2).map fun g => (k.1, k.2, g.table)

/-- The Bed's send key. -/
def State.sendKeyOf (s : State) (bed : Nat) : Option (W32 × List Byte) :=
  (s.plw.slots.find? fun k => k.send && k.owner == some bed).map fun k => (k.keyId, k.key)

/-- A prepared participant takes its snapshot (R408, R409). -/
def State.cutPart (s : State) (p : CkPart) : State :=
  let es := s.ckSessions p.bed
  let xs := es.map s.ckSes
  let job := match s.ckArm? p.bed with | some a => a.profile | none => 0
  let profiles := s.ckProfiles p.bed job es
  let grafts := s.ckGrafts p.bed xs
  let key := s.sendKeyOf p.bed
  let mapV := match s.ses.map with | some m => m.version | none => 0
  let s := s.updPart p.bed fun p => { p with
    phase := 2, sessions := xs, profiles := profiles, grafts := grafts, key := key, mapVersion := mapV }
  let s := (xs.filter fun x => x.captured && inNear x.entry).foldl (fun s x => s.takeSnapshot x.entry.sid x.entry.position) s
  xs.foldl (fun s x => s.ckAsk p.bed x.entry.sid) s

/-- The cut of a Bed at CUT (R408): the participant's snapshot, and at the coordinator the end of an attempt that lacks an
answer. -/
def State.ckCut (s : State) (bed : Nat) : State :=
  let s := match s.ckPart? bed with
    | some p => if p.phase = 1 && ftReached s.now p.cut then s.cutPart p else s
    | none => s
  match s.ckRound? bed, s.ckArm? bed with
  | some r, some a => if ftReached s.now r.cut && !r.allReady a then s.ckRetry r CkCode.late else s
  | _, _ => s

/-! ## Images (R289) -/

/-- Bytes cut or filled with zeros to a length. -/
def fitTo (n : Nat) (bs : List Byte) : List Byte := bs.take n ++ List.replicate (n - bs.length) 0

/-- Bytes padded to a multiple of 4 KiB. -/
def pad4k (bs : List Byte) : List Byte := fitTo (ceilDiv bs.length 4096 * 4096) bs

/-- The bytes of a session image. -/
def imageBytes (p : Profile) (sid : W64) (epoch : W32) (position : Nat) (ctx : Option OutCtx)
    (pages : List (Nat × Nat × Bool × List Byte)) : List Byte :=
  let cap := capacityOf position
  let head := leBytes 4 0x474D4953 ++ [1, BitVec.ofNat 8 p.kvFormat] ++ leBytes 2 p.layers ++ leBytes 2 p.id ++ leBytes 2 0
    ++ leBytes 4 p.pageBytes ++ leBytes 4 position ++ leBytes 4 cap ++ leBytes 8 sid.toNat ++ leBytes 4 epoch.toNat
  let page := fun (l g : Nat) => match pages.find? fun x => x.1 == l && x.2.1 == g with
    | some x => fitTo p.pageBytes x.2.2.2
    | none => List.replicate p.pageBytes 0
  fitTo 4096 head ++ fitTo 16384 (match ctx with | some c => Config.ctxBytes c | none => []) ++
    List.flatten ((List.range p.layers).map fun l => List.flatten ((List.range cap).map fun g => page l g))

/-- The pages of a layer of an image: those that POSITION reaches. A summary is held wherever the profile keeps them (R197). -/
def imagePages (p : Profile) (position : Nat) (bs : List Byte) (layer : Nat) : List (Nat × Nat × Bool × List Byte) :=
  (List.range (ceilDiv position 16)).map fun g =>
    (layer, g, !p.noSummary, (bs.drop (20480 + (layer * capacityOf position + g) * p.pageBytes)).take p.pageBytes)

/-! ## Shards (R411 to R414, R442) -/

/-- The image of a covered session: from its snapshot, or the copy of its set. -/
def State.ckImage (s : State) (bed : Nat) (x : CkSes) : List Byte :=
  match s.profile? bed x.entry.profile with
  | none => []
  | some p =>
    let e := x.entry
    if inNear e then
      match s.snap? bed e.sid with
      | some q => imageBytes p e.sid e.epoch e.position q.ctx
          (q.seq.leaves.map fun l => (l.layer, l.page, l.sv, s.nearRead l.frame p.pageBytes))
      | none => []
    else match x.image with
      | some i => imageBytes p e.sid e.epoch e.position i.ctx i.pages
      | none => []

/-- A source of the shard carries poison, lies in a fenced region, or is gone. -/
def State.ckPoison (s : State) (p : CkPart) : Bool :=
  p.sessions.any fun x =>
    if inNear x.entry then
      match s.snap? p.bed x.entry.sid with
      | some q => q.seq.leaves.any fun l => s.flt.regions.contains (paRegion l.frame) ||
          ((s.profile? p.bed x.entry.profile).any fun f => s.nearPoison l.frame f.pageBytes)
      | none => true
    else x.entry.state == .parked && x.image.isNone

/-- Places of consecutive pieces, each padded to 4 KiB, from a start. -/
def places : Nat → List (List Byte) → List Nat
  | _, [] => []
  | n, b :: r => n :: places (n + (pad4k b).length) r

/-- An index entry (R412). -/
def indexEntry (x : CkSes) (image trx : List Byte) (imgOff trxOff : Nat) : List Byte :=
  let e := x.entry
  leBytes 8 e.sid.toNat ++ leBytes 4 e.epoch.toNat ++
  [BitVec.ofNat 8 (SesNum e.state),
   BitVec.ofNat 8 ((if image.isEmpty then 0 else 1) + (if x.trx.isSome then 2 else 0) + if x.turn then 4 else 0)] ++
  leBytes 2 e.profile ++ leBytes 2 (graftField e.graft) ++ leBytes 2 x.home ++ leBytes 4 x.graftV.toNat ++
  leBytes 4 e.position ++ leBytes 4 (trx.length / 4) ++ leBytes 8 (if image.isEmpty then 0 else imgOff) ++
  leBytes 8 image.length ++ leBytes 8 (if x.trx.isSome then trxOff else 0) ++ leBytes 2 (e.furrow.getD 0) ++ leBytes 6 0

/-- The bytes of a shard (R411). -/
def State.shardBytes (s : State) (p : CkPart) (job : Nat) : List Byte :=
  let prof := pad4k p.profiles.flatten
  let graft := List.flatten (p.grafts.map fun g => pad4k g.2.2)
  let imgs := p.sessions.map (s.ckImage p.bed)
  let trxs := p.sessions.map fun x => List.flatten ((x.trx.getD []).map fun t => leBytes 4 t.toNat)
  let graftOff := 4096 + prof.length
  let indexOff := graftOff + graft.length
  let imgOff := indexOff + ceilDiv (64 * p.sessions.length) 4096 * 4096
  let imgAll := List.flatten (imgs.map pad4k)
  let trxOff := imgOff + imgAll.length
  let trxAll := List.flatten (trxs.map pad4k)
  let at_ := (p.sessions.zip (imgs.zip trxs)).zip ((places imgOff imgs).zip (places trxOff trxs))
  let index := pad4k (List.flatten (at_.map fun y => indexEntry y.1.1 y.1.2.1 y.1.2.2 y.2.1 y.2.2))
  let len := trxOff + trxAll.length
  let head := leBytes 4 0x44524853 ++ [1, if p.evict then 1 else 0, BitVec.ofNat 8 p.bed, 0] ++ leBytes 8 p.ckpt.toNat ++
    leBytes 4 p.job.toNat ++ leBytes 2 s.node ++ leBytes 2 job ++ leBytes 8 p.cut.toNat ++ leBytes 4 p.sessions.length ++
    leBytes 4 p.grafts.length ++ leBytes 4 p.profiles.length ++ leBytes 4 p.mapVersion.toNat ++ leBytes 8 len ++
    leBytes 8 graftOff ++ leBytes 8 indexOff
  fitTo 4096 head ++ prof ++ graft ++ index ++ imgAll ++ trxAll

/-- The IV of a chunk (R442). -/
def chunkIv (ckpt : W64) (i : Nat) : List Byte := leBytes 8 ckpt.toNat ++ leBytes 4 i

/-- A shard as it stands in host memory (R442). -/
def sealShard (key : W32 × List Byte) (ckpt : W64) (bs : List Byte) : List Byte :=
  leBytes 4 0x48534B43 ++ leBytes 4 key.1.toNat ++ leBytes 8 0 ++
  List.flatten ((List.range (ceilDiv bs.length 65536)).map fun i =>
    Config.gcmSeal key.2 (chunkIv ckpt i) ((bs.drop (65536 * i)).take 65536))

/-- A manifest entry (R415). -/
def State.shardEntry (s : State) (p : CkPart) (place location : Nat) (bs : List Byte) : List Byte :=
  leBytes 2 s.node ++ [BitVec.ofNat 8 p.bed, BitVec.ofNat 8 place] ++ leBytes 4 p.sessions.length ++ leBytes 8 p.cut.toNat ++
  leBytes 8 bs.length ++ leBytes 8 location ++ sha256 bs

/-- CK_DONE goes to the coordinator. -/
def State.ckDoneSend (s : State) (p : CkPart) (code : Nat) : State :=
  (s.updPart p.bed fun p => { p with phase := 3, storing := false }).ckSend p.coord none .done
    { code := code, ckpt := p.ckpt, job := p.job, cut := p.cut, deadline := p.deadline
      payload := if code = 0 then p.entry else List.replicate 64 0 }

/-- Put bytes into the Mulch as a tensor set of KIND 2 in KEPT blocks (R414, R417); none where quota or room refuses. -/
def State.keepInMulch (s : State) (bed : Nat) (ckpt : W64) (manifest : Bool) (bs : List Byte) : Option (W64 × State) :=
  if s.rdN .TIER_QUOTA_MULCH bed < s.useMulch bed + mulchCharge bs.length then none else
  match s.freeSetIx, s.mulchTake .kept bs.length with
  | some ix, some (addr, s) =>
    let t : TensorSet :=
      { ix := ix, state := .complete, kind := 2, tier := 2, bed := bed, owner := ckpt, length := bs.length, mulch := addr
        bytes := bs }
    let s := (s.putSet t).writeMulch addr bs.length bs.length
    let x : CkStored :=
      { bed := bed, ckpt := ckpt, manifest := manifest, place := 0, set := some ix, addr := addr, bytes := bs }
    some (addr, { s with ck := { s.ck with stored := s.ck.stored ++ [x] } })
  | _, _ => none

/-- Put a shard into the CXL tier (R414). -/
def State.keepInCxl (s : State) (bed : Nat) (ckpt : W64) (bs : List Byte) : Option (W64 × State) :=
  let region := (s.regionsOf bed).headD 0
  if (s.tierRefusal bed region bs.length 1).isSome then none else
  let t : TensorSet := { ix := 0, kind := 2, tier := 1, bed := bed, owner := ckpt, length := bs.length, bytes := bs }
  match s.takeSet t region with
  | none => none
  | some (ix, s) =>
    let s := s.updSet ix fun t => { t with state := .complete }
    match s.setIx? ix with
    | none => none
    | some t =>
      let s := s.countPorts t 0 bs.length true
      let x : CkStored := { bed := bed, ckpt := ckpt, manifest := false, place := 1, set := some ix, addr := setHandle t, bytes := bs }
      some (setHandle t, { s with ck := { s.ck with stored := s.ck.stored ++ [x] } })

/-- The keep-store record of a Mulch shard (R414); LENGTH 0 marks it freed. -/
def shardRecord (bed : Nat) (cut ckpt : W64) (len : Nat) (addr : W64) (dig : List Byte) : KeepWrite :=
  { typ := 0x0030, key := ckpt
    payload := BitVec.ofNat 8 bed :: leBytes 7 0 ++ leBytes 8 cut.toNat ++ leBytes 8 len ++ leBytes 8 addr.toNat ++ fitTo 32 dig }

/-- A shard is written to its destination (R413, R414, R442). -/
def State.writeShard (s : State) (p : CkPart) (a : CkArm) : State :=
  if s.ckPoison p then s.ckDoneSend p CkCode.shardFailed else
  let bs := s.shardBytes p a.profile
  let done := fun (s : State) (place location : Nat) =>
    let e := s.shardEntry p place location bs
    let s := s.updPart p.bed fun p => { p with entry := e, length := bs.length }
    s.ckDoneSend { p with entry := e } 0
  match a.dest with
  | 0 =>
    match if s.keep.ready then s.keepInMulch p.bed p.ckpt false bs else none with
    | none => s.ckDoneSend p CkCode.shardFailed
    | some (addr, s) =>
      let e := s.shardEntry p 0 addr.toNat bs
      let s := s.updPart p.bed fun p => { p with entry := e, length := bs.length, storing := true }
      s.submit { writes := [shardRecord p.bed p.cut p.ckpt bs.length addr (sha256 bs)], eff := .shardDone p.bed p.ckpt }
  | 1 =>
    match s.keepInCxl p.bed p.ckpt bs with
    | none => s.ckDoneSend p CkCode.shardFailed
    | some (h, s) => done s 1 h.toNat
  | _ =>
    match p.key with
    | none => s.ckDoneSend p CkCode.shardFailed
    | some k =>
      if dLen0 a.d < bs.length then s.ckDoneSend p CkCode.shardFailed
      else done (s.storeAddr a.d a.d.addr0 ((sealShard k p.ckpt bs).take (dLen0 a.d))) 2 0

/-- SHARD_WRITE_COMPLETE (R413, R414): every session is captured, and every transcript is here or 480 ft have passed since CUT (log
entry 44). A session whose tensors went before its capture fails the shard. -/
def State.shardWrite (s : State) (bed : Nat) : State :=
  match s.ckPart? bed, s.ckArm? bed with
  | some p, some a =>
    let late := ftReached s.now (ftAdd p.cut 480)
    if p.phase = 2 && !p.storing && p.sessions.all fun x => (x.captured || !s.ckBusy x.entry.sid) && (x.resolved || late) then s.writeShard p a else s
  | _, _ => s

/-- A shard's record is durable. -/
def State.shardDurable (s : State) (bed : Nat) (ckpt : W64) : State :=
  match (s.ckPart? bed).filter fun p => p.ckpt == ckpt && p.storing with
  | some p => s.ckDoneSend p 0
  | none => s

/-! ## The manifest (R415 to R417) -/

/-- A checkpoint is aborted at its coordinator (R416). -/
def State.ckAbortRound (s : State) (r : CkRound) (code st : Nat) : State :=
  let s := match s.ckArm? r.bed with | some a => s.ckAbortAll a r code | none => s
  s.endRound r st 0

/-- The bytes of a manifest (R415). -/
def State.manifestBytes (s : State) (a : CkArm) (r : CkRound) : List Byte :=
  let mapV := match s.ses.map with | some m => m.version.toNat | none => 0
  let head := leBytes 4 0x54534E4D ++ [1, if r.evict then 1 else 0] ++ leBytes 2 s.node ++ leBytes 8 r.ckpt.toNat ++
    leBytes 4 a.job.toNat ++ leBytes 2 a.profile ++ leBytes 2 a.parts.length ++ leBytes 8 r.cut.toNat ++
    leBytes 8 s.now.toNat ++ leBytes 4 mapV
  let entry := fun (x : Nat × Nat) =>
    (r.dones.find? fun b => bytesAt b 0 2 == x.1 && bytesAt b 2 1 == x.2).getD (List.replicate 64 0)
  let body := fitTo 128 head ++ List.flatten (a.parts.map entry)
  body ++ sha256 body

/-- The keep-store record of a manifest (R417); a length of 0 marks it freed. -/
def manifestRecord (ckpt : W64) (addr : W64) (len : Nat) (dig : List Byte) : KeepWrite :=
  { typ := 0x0031, key := ckpt, payload := leBytes 8 addr.toNat ++ leBytes 8 len ++ fitTo 32 dig }

/-- The coordinator stores the manifest (R417); a Mulch that refuses it aborts the checkpoint. -/
def State.storeManifest (s : State) (a : CkArm) (r : CkRound) : State :=
  let bs := s.manifestBytes a r
  match if s.keep.ready then s.keepInMulch r.bed r.ckpt true bs else none with
  | none => s.ckAbortRound r CkCode.shardFailed CkSt.aborted
  | some (addr, s) =>
    let s := s.updRound r.bed fun r => { r with manifest := some bs }
    s.submit { writes := [manifestRecord r.ckpt addr bs.length (bs.drop (bs.length - 32))], eff := .manifestDone r.bed }

/-- CK_DONE (R415, R416). -/
def State.ckDone (s : State) (m : CkMsg) : State :=
  match (s.roundOf m).filter fun r => r.manifest.isNone with
  | none => s
  | some r =>
    if m.code != 0 then s.ckAbortRound r m.code CkSt.aborted else
    match s.ckArm? r.bed with
    | none => s
    | some a =>
      let key := fun (b : List Byte) => (bytesAt b 0 2, bytesAt b 2 1)
      let r := { r with dones := m.payload :: r.dones.filter fun b => key b != key m.payload }
      let s := s.updRound r.bed fun _ => r
      if a.parts.all fun x => r.dones.any fun b => key b == x then s.storeManifest a r else s

/-- The manifest is durable (R415): it goes to the CK_START buffers, CK_COMMIT to every participant, and CK_START completes. -/
def State.manifestDurable (s : State) (bed : Nat) : State :=
  match s.ckRound? bed, s.ckArm? bed with
  | some r, some a =>
    let bs := r.manifest.getD []
    let s := r.starts.foldl (fun s d => s.writeAddr d d.addr0 (bs.take (dLen0 d))) s
    let s := a.parts.foldl (fun s x => s.ckSend x.1 none .commit
      { evict := r.evict, bed := x.2, ckpt := r.ckpt, job := a.job, cut := r.cut, deadline := r.deadline }) s
    s.endRound r St.ok r.ckpt.toNat
  | _, _ => s

/-- CK_DEADLINE (R416). -/
def State.ckDeadline (s : State) (bed : Nat) : State :=
  match s.ckRound? bed with
  | some r =>
    if r.manifest.isNone && ftReached s.now r.deadline then s.ckAbortRound r CkCode.deadline CkSt.deadline else s
  | none => s

/-- CK_ORPHAN_TIMEOUT (R416). -/
def State.ckOrphan (s : State) (bed : Nat) : State :=
  match s.ckPart? bed with
  | some p => if ftReached s.now (ftAdd p.deadline 480) then s.ckAborted p true else s
  | none => s

/-- A covered session leaves with its checkpoint (R418): DROP_NOTE, its state and its owner entry; commands that wait on it end
with NOT_OWNER. -/
def State.ckEvict (s : State) (sid : W64) : State :=
  match s.owner? sid with
  | none => s
  | some e =>
    if e.state == .closed then s else
    let s := (s.finishWaits sid (fun w => w != .query) St.notOwner).sendNote sid false
    let xs := s.intake.submits.filter fun x => x.sid == sid
    let s := { s with intake := { s.intake with submits := s.intake.submits.filter fun x => x.sid != sid } }
    let s := xs.foldl (fun s x => s.complete x.d St.notOwner) s
    s.freeOwner sid .held s.node e.epoch

/-- CK_COMMIT (R415, R418). -/
def State.ckCommit (s : State) (m : CkMsg) : State :=
  match (s.ckPart? m.bed).filter fun p => p.ckpt == m.ckpt with
  | none => s
  | some p =>
    let s := s.wr64 .CK_ID_LO .CK_ID_HI p.ckpt.toNat p.bed
    let s := s.wr64 .CK_CUT_LO .CK_CUT_HI p.cut.toNat p.bed
    let s := (s.wrN .CK_SESSIONS p.sessions.length p.bed).wr64 .CK_BYTES_LO .CK_BYTES_HI p.length p.bed
    let s := (s.setStatus F.CK_STATUS_COMMITTED p.bed).endPart p.bed
    if m.evict then p.sessions.foldl (fun s x => s.ckEvict x.entry.sid) s else s

/-! ## CK_SHARD_FREE and CK_MANIFEST_READ (R414, R417, R425) -/

/-- Release what is stored. -/
def State.dropStored (s : State) (x : CkStored) : State :=
  let s := { s with ck := { s.ck with stored := s.ck.stored.filter fun y => y != x } }
  match x.set with
  | some ix => s.releaseSet ix
  | none => if x.place = 0 then s.mulchRelease x.addr x.bytes.length (some x.bed) else s

/-- What a Bed holds of a checkpoint. -/
def State.storedOf (s : State) (bed : Nat) (ckpt : W64) : List CkStored :=
  s.ck.stored.filter fun x => x.bed == bed && x.ckpt == ckpt

/-- Free what a Bed holds of a checkpoint. -/
def State.freeStored (s : State) (d : Desc) : State :=
  let xs := s.storedOf ((dBed d).getD 0) (BitVec.ofNat 64 (dArg d 56 8))
  (xs.foldl (fun s x => s.dropStored x) s).complete d St.ok (xs.map fun x => x.bytes.length).sum

/-- CK_SHARD_FREE. A checkpoint in progress blocks it: DEDUCED (log entry 44). -/
def State.ckShardFree (s : State) (d : Desc) : State :=
  let bed := (dBed d).getD 0
  let ckpt := BitVec.ofNat 64 (dArg d 56 8)
  let xs := s.storedOf bed ckpt
  if ((s.ckPart? bed).any fun p => p.ckpt == ckpt) || (s.ckRound? bed).any fun r => r.ckpt == ckpt then
    s.complete d CkSt.busy
  else if xs.isEmpty then s.complete d St.notFound
  else
    let ws := (xs.filter fun x => x.place == 0).map fun x =>
      if x.manifest then manifestRecord ckpt 0 0 [] else shardRecord bed 0 ckpt 0 0 []
    if ws.isEmpty then s.freeStored d else s.submitCmd d [] ws (.cmd d [] 0)

/-- CK_MANIFEST_READ. -/
def State.ckManifestRead (s : State) (d : Desc) : State :=
  let bed := (dBed d).getD 0
  let ckpt := BitVec.ofNat 64 (dArg d 56 8)
  match (s.ck.stored.filter fun x => x.bed == bed && x.manifest && (ckpt == 0 || x.ckpt == ckpt)).getLast? with
  | none => s.complete d St.notFound
  | some x =>
    let n := min (dLen0 d) x.bytes.length
    (s.writeAddr d d.addr0 (x.bytes.take n)).complete d St.ok (n + x.bytes.length * 2 ^ 32)

end Sys2Proof.Machine
end

