-- ==== Sys2Proof/Machine/Restore.lean ====
section
/-! DEFINITION. Shards that pass between nodes, restore, and the regrouping of accelerators (R407, R419 to R424). -/

namespace Sys2Proof.Machine

/-! ## Sending a shard (R407, R379) -/

/-- The shard of a checkpoint that a Bed of this node stores. -/
def State.shard? (s : State) (bed : Nat) (ckpt : W64) : Option CkStored :=
  s.ck.stored.find? fun x => x.bed == bed && x.ckpt == ckpt && !x.manifest

/-- Two names of one copy. -/
def isTx (dest : Nat) (ckpt : W64) (bed : Nat) (t : CkTx) : Bool := t.dest == dest && t.ckpt == ckpt && t.bed == bed

/-- Change a copy. -/
def State.updCkTx (s : State) (dest : Nat) (ckpt : W64) (bed : Nat) (f : CkTx → CkTx) : State :=
  { s with ck := { s.ck with txs := updFirst (isTx dest ckpt bed) f s.ck.txs } }

/-- A copy ends. -/
def State.endCkTx (s : State) (dest : Nat) (ckpt : W64) (bed : Nat) : State :=
  { s with ck := { s.ck with txs := s.ck.txs.filter fun t => !isTx dest ckpt bed t } }

/-- The most shard bytes of one message (R358, R407). -/
def ckMax : Nat := 16777216 - 48

/-- Send what the window allows: at most 64 MiB unacknowledged, then CK_DATA_END at the shard's length. -/
def State.ckPump (fuel : Nat) (s : State) (dest : Nat) (ckpt : W64) (bed : Nat) : State :=
  match fuel with
  | 0 => s
  | fuel + 1 =>
    match s.ck.txs.find? (isTx dest ckpt bed), s.shard? bed ckpt with
    | some t, some x =>
      let total := x.bytes.length
      let n := min (min ckMax (total - t.cur)) (67108864 - (t.cur - t.ack))
      let m : CkMsg := { bed := bed, ckpt := ckpt, offset := t.cur }
      if total ≤ t.cur then
        if t.ended then s
        else (s.ckSend dest (some bed) .dataEnd m).updCkTx dest ckpt bed fun t => { t with ended := true }
      else if n = 0 then s
      else
        let s := s.ckSend dest (some bed) .data { m with payload := (x.bytes.drop t.cur).take n }
        State.ckPump fuel (s.updCkTx dest ckpt bed fun t => { t with cur := t.cur + n }) dest ckpt bed
    | _, _ => s

/-- CK_FETCH (R407, R425): a shard that is not held is answered with CK_ABORT. -/
def State.ckFetch (s : State) (m : CkMsg) : State :=
  match s.shard? m.bed m.ckpt with
  | none => s.ckSend m.sender none .abort { code := CkCode.refused, bed := m.bed, ckpt := m.ckpt, job := m.job }
  | some _ =>
    let s := s.endCkTx m.sender m.ckpt m.bed
    let t : CkTx :=
      { dest := m.sender, ckpt := m.ckpt, bed := m.bed, cur := m.offset, ack := m.offset, advanced := s.now, resent := s.now }
    State.ckPump pumpMax { s with ck := { s.ck with txs := s.ck.txs ++ [t] } } m.sender m.ckpt m.bed

/-- CK_DATA_ACK (R407, R379). -/
def State.ckDataAck (s : State) (m : CkMsg) : State :=
  match s.ck.txs.find? (isTx m.sender m.ckpt m.bed), s.shard? m.bed m.ckpt with
  | some t, some x =>
    if t.ended && decide (x.bytes.length ≤ m.offset) then s.endCkTx m.sender m.ckpt m.bed
    else if m.offset ≤ t.ack then s
    else
      let s := s.updCkTx m.sender m.ckpt m.bed fun t => { t with
        ack := m.offset, cur := max t.cur m.offset, advanced := s.now, resent := s.now }
      s.ckPump pumpMax m.sender m.ckpt m.bed
  | _, _ => s

/-- IMG_RESEND_TIMER of a shard (R379, R407). -/
def State.ckResend (s : State) (dest : Nat) (ckpt : W64) (bed : Nat) : State :=
  match s.ck.txs.find? (isTx dest ckpt bed) with
  | some t =>
    if ftReached s.now (ftAdd t.resent 48) then
      (s.updCkTx dest ckpt bed fun t => { t with cur := t.ack, ended := false, resent := s.now }).ckPump pumpMax dest ckpt bed
    else s
  | none => s

/-- IMG_GIVE_UP of a shard (R379, R407). -/
def State.ckGiveUp (s : State) (dest : Nat) (ckpt : W64) (bed : Nat) : State :=
  match s.ck.txs.find? (isTx dest ckpt bed) with
  | some t => if ftReached s.now (ftAdd t.advanced 480) then s.endCkTx dest ckpt bed else s
  | none => s

/-! ## Reading shards (R419) -/

/-- The fields of a manifest entry (R415). -/
def manEntry (man : List Byte) (i : Nat) : List Byte := (man.drop (128 + 64 * i)).take 64
def manShards (man : List Byte) : Nat := bytesAt man 22 2
def manCkpt (man : List Byte) : W64 := BitVec.ofNat 64 (bytesAt man 8 8)
def manCut (man : List Byte) : Nat := bytesAt man 24 8
def entBed (e : List Byte) : Nat := bytesAt e 2 1
def entPlace (e : List Byte) : Nat := bytesAt e 3 1
def entStep (e : List Byte) : Nat := bytesAt e 8 8
def entLength (e : List Byte) : Nat := bytesAt e 16 8
def entLocation (e : List Byte) : Nat := bytesAt e 24 8
def entDigest (e : List Byte) : List Byte := (e.drop 32).take 32

/-- Check 1: MAGIC, FORMAT, the count and the trailing SHA-256. -/
def manifestOk (man : List Byte) : Bool :=
  let n := manShards man
  let body := 128 + 64 * n
  bytesAt man 0 4 == 0x54534E4D && bytesAt man 4 1 == 1 && inR n 1 4096 && decide (body + 32 ≤ man.length) &&
  (man.drop body).take 32 == sha256 (man.take body)

/-- Check 2: every entry's STEP equals CUT. -/
def stepsOk (man : List Byte) : Bool := (List.range (manShards man)).all fun i => entStep (manEntry man i) == manCut man

/-- What is stored at a LOCATION can be read: no port or stack that holds it is fenced, and no block of it is bad. -/
def State.storedReadable (s : State) (x : CkStored) : Bool :=
  if x.place = 0 then
    let lb := x.addr.toNat / lbBytes
    (List.range (lbCount x.bytes.length)).all fun k =>
      !s.flt.flashOff.contains ((lb + k) % 8) && !(s.flashCtl ((lb + k) % 8)).bad.contains (lb + k)
  else match x.set.bind s.setIx? with
    | some t => t.state == .complete && t.runs.all fun r => !s.flt.ports.contains (8 + r.1)
    | none => false

/-- A shard at its LOCATION on this node; a Bed reads its own. -/
def State.localShard (s : State) (bed : Nat) (e : List Byte) : Option CkStored :=
  (s.ck.stored.find? fun x => x.bed == bed && !x.manifest && x.place == entPlace e && x.addr.toNat == entLocation e).filter
    s.storedReadable

/-- A shard opened from its sealed form in host memory (R442). -/
def openShard (key : List Byte) (ckpt : W64) (len : Nat) (bs : List Byte) : Option (List Byte) :=
  (List.range (ceilDiv len 65536)).foldl (fun acc i =>
    match acc with
    | none => none
    | some l => (Config.gcmOpen key (chunkIv ckpt i) ((bs.drop (16 + 65552 * i)).take (min 65536 (len - 65536 * i) + 16))).map
        fun c => l ++ c) (some [])

/-- A shard in host memory (R442): its key may be in any state. -/
def State.hostShard (s : State) (bed : Nat) (man e : List Byte) (addr : W64) : Option (List Byte) :=
  let len := entLength e
  let bs := Mem.readBytes s.mem.host (addr.toNat % 2 ^ 62) (16 + len + 16 * ceilDiv len 65536)
  if bytesAt bs 0 4 != 0x48534B43 then none else
    match s.plw.slots.find? fun k => k.owner == some bed && k.keyId.toNat == bytesAt bs 4 4 with
    | none => none
    | some k => openShard k.key (manCkpt man) len bs

/-- Change the restore that a Bed reads. -/
def State.updRestore (s : State) (bed : Nat) (f : CkRestore → CkRestore) : State :=
  { s with ck := { s.ck with restores := updFirst (fun r => r.bed == bed) f s.ck.restores } }

/-! ## Checking and staging (R419 to R421) -/

/-- The header of a shard. -/
def shCut (b : List Byte) : Nat := bytesAt b 24 8
def shSessions (b : List Byte) : Nat := bytesAt b 32 4
def shGrafts (b : List Byte) : Nat := bytesAt b 36 4
def shProfiles (b : List Byte) : Nat := bytesAt b 40 4
def shGraftOff (b : List Byte) : Nat := bytesAt b 56 8
def shIndexOff (b : List Byte) : Nat := bytesAt b 64 8

/-- The profile tables of a shard. -/
def shProfileTables (b : List Byte) : List (List Byte) :=
  (List.range (shProfiles b)).map fun i => (b.drop (4096 + 256 * i)).take 256

/-- The Graft tables of a shard, from an offset on. -/
def graftTables (b : List Byte) : Nat → Nat → List (List Byte)
  | 0, _ => []
  | n + 1, off =>
    let len := bytesAt b (off + 24) 4
    (b.drop off).take len :: graftTables b n (off + ceilDiv len 4096 * 4096)

/-- A session as its index entry and the sections say (R412). -/
def shSession (b : List Byte) (i : Nat) : CkStSes :=
  let o := shIndexOff b + 64 * i
  let flags := bytesAt b (o + 13) 1
  let g := bytesAt b (o + 16) 2
  let img := (b.drop (bytesAt b (o + 32) 8)).take (bytesAt b (o + 40) 8)
  { sid := BitVec.ofNat 64 (bytesAt b o 8), epoch := BitVec.ofNat 32 (bytesAt b (o + 8) 4), profile := bytesAt b (o + 14) 2
    graft := if bitSet g 15 then none else some (g % 4096), graftV := BitVec.ofNat 32 (bytesAt b (o + 20) 4), furrow := bytesAt b (o + 56) 2
    position := bytesAt b (o + 24) 4 % 2 ^ 23, turn := bitSet flags 2, image := if flags % 2 = 1 then img else []
    trx := if bitSet flags 1 then
        some ((List.range (bytesAt b (o + 28) 4)).map fun k => BitVec.ofNat 32 (bytesAt b (bytesAt b (o + 48) 8 + 4 * k) 4))
      else none }

/-- The sessions of a shard. -/
def shIndex (b : List Byte) : List CkStSes := (List.range (shSessions b)).map (shSession b)

/-- A profile table equals one that the Bed holds (check 5). -/
def State.profileHeld (s : State) (bed : Nat) (t : List Byte) : Bool := (s.profilesOf bed).any fun p => p.bytes == t

/-- A restore is refused as a whole (R419). -/
def State.ckRefuse (s : State) (d : Desc) (st : Nat) : State :=
  (s.setStatus F.CK_STATUS_RESTORE_REFUSED ((dBed d).getD 0)).complete d st

/-- Plots that the images of sessions are charged as (R421): each takes whole plots, DESIGN CHOICE (log entry 44). -/
def stPlots (xs : List CkStSes) : Nat := (xs.map fun x => ceilDiv x.image.length plotBytes).sum

/-- Sessions are staged, and the command completes (R421). -/
def State.ckStage (s : State) (d : Desc) (xs : List CkStSes) (marked : Nat) : State :=
  let bed := (dBed d).getD 0
  if !s.nearQuotaOk bed (stPlots xs) then s.complete d St.overQuota else
    let x : CkStaged := { bed := bed, since := s.now, sessions := xs }
    State.complete { s with ck := { s.ck with staged := s.ck.staged ++ [x] } } d St.ok (xs.length + marked * 2 ^ 32)

/-- The first of each SID. -/
def firstOfSid (xs : List CkStSes) : List CkStSes :=
  xs.foldl (fun acc x => if acc.any fun y => y.sid == x.sid then acc else acc ++ [x]) []

/-- What a restore has read: each listed shard's entry with its bytes, and those that passed check 3 and check 4 (R419). -/
def CkRestore.read (r : CkRestore) : List (List Byte × Option (List Byte)) :=
  (r.items.zip r.got).map fun x => (manEntry r.manifest x.1.1, x.2)

/-- A shard that was read has the digest of its entry (check 3). -/
def shardGood (x : List Byte × Option (List Byte)) : Bool :=
  match x.2 with
  | some b => b.length == entLength x.1 && sha256 b == entDigest x.1
  | none => false

def CkRestore.good (r : CkRestore) : List (List Byte) := (r.read.filter shardGood).filterMap fun x => x.2
def CkRestore.fresh (r : CkRestore) : List (List Byte) := r.good.filter fun b => shCut b == manCut r.manifest

/-- SALVAGE is set. -/
def CkRestore.salvage (r : CkRestore) : Bool := dArg r.d 48 1 % 2 == 1

/-- The restore that a Bed reads ends. -/
def State.endRestore (s : State) (bed : Nat) : State :=
  { s with ck := { s.ck with restores := s.ck.restores.filter fun x => x.bed != bed } }

/-- A restore is refused, and ends. -/
def State.refuseRestore (s : State) (r : CkRestore) (st : Nat) : State := (s.endRestore r.bed).ckRefuse r.d st

/-- A session is restored under SALVAGE (R420). -/
def State.salvaged (s : State) (r : CkRestore) (x : CkStSes) : Bool :=
  let holders := r.good.filter fun b => (shIndex b).any fun y => y.sid == x.sid
  holders.all (fun b => shCut b == manCut r.manifest && ((shIndex b).all fun y => y.sid != x.sid || y.epoch == x.epoch) &&
    (shProfileTables b).any fun t => bytesAt t 6 2 == x.profile && s.profileHeld r.bed t) &&
  (match x.graft with | none => true | some id => r.loaded.contains (id, x.graftV))

/-- The checks are made: the sessions are staged; under SALVAGE the others are marked Dropped, unless the quota refuses the staging
(R71, R420, R421). -/
def State.ckPassed (s : State) (r : CkRestore) : State :=
  let s := s.endRestore r.bed
  let known := firstOfSid (List.flatten (r.good.map shIndex))
  if !r.salvage then s.ckStage r.d known 0 else
    let lost := known.filter fun x => !s.salvaged r x
    if !s.nearQuotaOk r.bed (stPlots (known.filter (s.salvaged r))) then s.complete r.d St.overQuota else
    let s := lost.foldl (fun s x => match s.homeOf x.sid with
      | some h => s.sendOwn h (some r.bed) .dropNote { sid := x.sid, epoch := x.epoch }
      | none => s) s
    (s.setStatus F.CK_STATUS_SALVAGED r.bed).ckStage r.d (known.filter (s.salvaged r)) lost.length

/-- Check 6 goes on: each Graft table loads as R181 says, one after the other, each once its entry is durable (R88); a refusal
ends a restore without SALVAGE. `n` bounds the tables. -/
def State.ckGrafts6 (n : Nat) (s : State) (r : CkRestore) : State :=
  match n, r.grafts.getD [] with
  | 0, _ | _, [] => s.ckPassed r
  | n + 1, t :: rest =>
    let id := graftTabId t
    let e := fun (refused : Bool) =>
      s.graftEntry r.d r.bed 0 id (graftTabVersion t) (s.graftDigest r.bed id) (digest128 t) refused
    let next := { r with grafts := some rest }
    let refused := fun (s : State) (st : Nat) => if r.salvage then State.ckGrafts6 n s next else s.refuseRestore r st
    match s.graftVerdict r.bed t with
    | .same => State.ckGrafts6 n s { next with loaded := (id, graftTabVersion t) :: r.loaded }
    | .refuse st j => refused (if j then s.journal (e true) else s) st
    | .accept =>
      match s.takeWhole r.bed t.length with
      | none => refused s (s.roomRefusal r.bed t.length)
      | some (near, _, u) =>
        if !s.keep.ready then refused s St.noResource
        else (u.updRestore r.bed fun _ => next).submit { journal := [e false], eff := .load r.d t near none }

/-- A Graft of a restore is loaded, its entry being durable. -/
def State.ckGraftDone (s : State) (d : Desc) (t : List Byte) (near : List Nat) : State :=
  let s := s.graftInstall ((dBed d).getD 0) t near
  match s.ck.restores.find? fun r => r.d == d && r.grafts.isSome with
  | none => s
  | some r => State.ckGrafts6 ((r.grafts.getD []).length + 1) s { r with loaded := (graftTabId t, graftTabVersion t) :: r.loaded }

/-- The checks of R419 on what was read; an unreadable shard fails check 3. Without SALVAGE checks 3 to 5 refuse the set; check 6
follows. -/
def State.ckVerify (s : State) (r : CkRestore) : State :=
  let tables := (List.flatten (r.fresh.map fun b => graftTables b (shGrafts b) (shGraftOff b))).eraseDups
  if !r.salvage && !r.read.all shardGood then s.refuseRestore r CkSt.digest
  else if !r.salvage && r.fresh.length != r.good.length then s.refuseRestore r CkSt.mixedStep
  else if !r.salvage && !(List.flatten (r.good.map shProfileTables)).all (s.profileHeld r.bed) then
    s.refuseRestore r CkSt.profileMismatch
  else State.ckGrafts6 (tables.length + 1) s { r with grafts := some tables }

/-- Read the shards in order up to the next remote one, which is asked for; after the last they are checked. -/
def State.ckRead (fuel : Nat) (s : State) (bed : Nat) : State :=
  match fuel with
  | 0 => s
  | fuel + 1 =>
    match s.ck.restores.find? fun r => r.bed == bed with
    | none => s
    | some r =>
      match r.items[r.got.length]? with
      | none => if r.grafts.isSome then s else s.ckVerify r
      | some x =>
        let e := manEntry r.manifest x.1
        let push := fun (s : State) (b : Option (List Byte)) => s.updRestore bed fun r => { r with got := r.got ++ [b], rx := [] }
        if manShards r.manifest ≤ x.1 then State.ckRead fuel (push s none) bed
        else match x.2.1 with
          | 0 => State.ckRead fuel (push s ((s.localShard bed e).map fun y => y.bytes)) bed
          | 1 => State.ckRead fuel (push s (s.hostShard bed r.manifest e x.2.2.2)) bed
          | _ => s.ckSend (x.2.2.1) none .fetch
              { bed := entBed e, ckpt := manCkpt r.manifest, job := BitVec.ofNat 32 (bytesAt r.manifest 16 4) }

/-- The restore items of a list (R419). -/
def parseItems (bs : List Byte) : List (Nat × Nat × Nat × W64) :=
  (List.range (bs.length / 16)).map fun i =>
    (bytesAt bs (16 * i) 2, bytesAt bs (16 * i + 2) 1, bytesAt bs (16 * i + 4) 2 % 512, BitVec.ofNat 64 (bytesAt bs (16 * i + 8) 8))

/-- CK_RESTORE (R419): checks 1 and 2, then the shards are read. -/
def State.ckRestore (s : State) (d : Desc) : State :=
  let bed := (dBed d).getD 0
  if (s.ck.staged.any fun x => x.bed == bed) || s.ck.restores.any fun x => x.bed == bed then s.complete d CkSt.busy else
  let man := s.buf0 d
  let items := parseItems (s.readAddr d d.addr1 (dLen1 d))
  if !manifestOk man then s.ckRefuse d St.tableVersion
  else if !stepsOk man then s.ckRefuse d CkSt.mixedStep
  else
    let r : CkRestore := { bed := bed, d := d, manifest := man, items := items }
    State.ckRead (items.length + 1) { s with ck := { s.ck with restores := s.ck.restores ++ [r] } } bed

/-- The remote item that a restore waits for: its node, CKPT_ID and Bed there. -/
def CkRestore.waitsFor (r : CkRestore) : Option (Nat × W64 × Nat) :=
  (r.items[r.got.length]?).bind fun x =>
    if x.2.1 < 2 then none else some (x.2.2.1, manCkpt r.manifest, entBed (manEntry r.manifest x.1))

/-- The restore that a message about a shard is for. -/
def State.restoreFor (s : State) (m : CkMsg) : Option CkRestore :=
  s.ck.restores.find? fun r => r.waitsFor == some (m.sender, m.ckpt, m.bed)

/-- The remote item of a restore is read, or cannot be. -/
def State.ckItem (s : State) (r : CkRestore) (b : Option (List Byte)) : State :=
  (s.updRestore r.bed fun r => { r with got := r.got ++ [b], rx := [] }).ckRead (r.items.length + 1) r.bed

/-- Acknowledge the bytes of a shard received so far. -/
def State.ckAckTo (s : State) (r : CkRestore) (m : CkMsg) (off : Nat) : State :=
  s.ckSend m.sender (some r.bed) .dataAck { bed := m.bed, ckpt := m.ckpt, offset := off }

/-- CK_DATA (R407): taken in order, acknowledged after every 16 MiB; one below the next byte is answered at once. -/
def State.ckData (s : State) (m : CkMsg) : State :=
  match s.restoreFor m with
  | none => s
  | some r =>
    let want := r.rx.length
    if m.offset < want then s.ckAckTo r m want
    else if want < m.offset then s
    else
      let got := want + m.payload.length
      let s := s.updRestore r.bed fun r => { r with rx := r.rx ++ m.payload }
      if want / 16777216 < got / 16777216 then s.ckAckTo r m got else s

/-- CK_DATA_END (R407): OFFSET is the shard's length. -/
def State.ckDataEnd (s : State) (m : CkMsg) : State :=
  match s.restoreFor m with
  | none => s
  | some r =>
    let s := if m.offset ≤ r.rx.length then s.ckAckTo r m r.rx.length else s
    if m.offset = r.rx.length then s.ckItem r (some r.rx) else s

/-- CK_ABORT (R408, R416, R425): it releases a participant's snapshot, or ends the fetch of a shard that is not held. -/
def State.ckAbort (s : State) (m : CkMsg) : State :=
  match (s.ckPart? m.bed).filter fun p => p.ckpt == m.ckpt && m.code != CkCode.refused with
  | some p => s.ckAborted p (m.code == CkCode.deadline)
  | none =>
    if m.code != CkCode.refused then s else
    match s.restoreFor m with
    | some r => s.ckItem r none
    | none => s

/-! ## Commit, cancel, expiry (R421, R422) -/

/-- The staged restore of a Bed. -/
def State.staged? (s : State) (bed : Nat) : Option CkStaged := s.ck.staged.find? fun x => x.bed == bed

/-- Change it. -/
def State.updStaged (s : State) (bed : Nat) (f : CkStaged → CkStaged) : State :=
  { s with ck := { s.ck with staged := updFirst (fun x => x.bed == bed) f s.ck.staged } }

/-- A staged restore is released. -/
def State.dropStaged (s : State) (bed : Nat) : State :=
  { s with ck := { s.ck with staged := s.ck.staged.filter fun x => x.bed != bed } }

/-- CK_RESTORE_CANCEL (R421). One that is being committed cannot be cancelled: DEDUCED (log entry 44). -/
def State.ckCancel (s : State) (d : Desc) : State :=
  let bed := (dBed d).getD 0
  match s.staged? bed with
  | none => s.complete d CkSt.notStaged
  | some x => if x.commit.isSome then s.complete d CkSt.busy else (s.dropStaged bed).complete d St.ok x.sessions.length

/-- CK_STAGE_TTL_EXPIRY (R421): 0 behaves as 48,000 ft. -/
def State.ckStageTtl (s : State) (bed : Nat) : State :=
  let ttl := s.rdN .CK_STAGE_TTL bed
  match s.staged? bed with
  | some x =>
    if x.commit.isNone && ftReached s.now (ftAdd x.since (if ttl = 0 then 48000 else ttl)) then s.dropStaged bed else s
  | none => s

/-- Claim the next staged session (R422); after the last the command completes. A session whose home no map names is counted as
refused. -/
def State.ckClaimNext (fuel : Nat) (s : State) (bed : Nat) : State :=
  match fuel with
  | 0 => s
  | fuel + 1 =>
    match s.staged? bed with
    | none => s
    | some x =>
      match x.sessions with
      | [] => match x.commit with
        | some c => (s.dropStaged bed).complete c.1 St.ok (x.claimed + x.refused * 2 ^ 32)
        | none => s
      | y :: rest =>
        match s.homeOf y.sid with
        | none =>
          State.ckClaimNext fuel (s.updStaged bed fun x => { x with sessions := rest, refused := x.refused + 1 }) bed
        | some h =>
          let s := s.updStaged bed fun x => { x with claim := some { sid := y.sid, since := s.now } }
          (s.sendOwn h (some bed) .claim { sid := y.sid, flagRevive := true, epoch := y.epoch }).touchOwn y.sid

/-- CK_RESTORE_COMMIT (R422). -/
def State.ckRestoreCommit (s : State) (d : Desc) : State :=
  let bed := (dBed d).getD 0
  match s.staged? bed with
  | none => s.complete d CkSt.notStaged
  | some x =>
    if x.commit.isSome then s.complete d CkSt.busy
    else (s.updStaged bed fun x => { x with commit := some (d, dArg d 48 2) }).ckClaimNext (x.sessions.length + 1) bed

/-- FT of the home's last TRX_ACK for a session: the home's own, or the last this node saw; where it saw none the value is
free (log entry 18). -/
def State.lastAckFt (s : State) (sid : W64) : W64 × State :=
  match s.ses.transcripts.find? fun t => t.sid == sid with
  | some t => if s.isHome sid then (t.lastAck, s) else (Table.get s.ses.trxAcks t.lastAck sid, s)
  | none =>
    match s.ses.trxAcks.find? fun x => x.1 == sid with
    | some x => (x.2, s)
    | none => s.draw 18

/-- An owner entry for a session of a Bed, in the home record's entry if this node is the home. -/
def State.newOwner (s : State) (e : Entry) : Option State :=
  match s.entry? e.sid with
  | some h => some (s.updEntry e.sid fun _ => { e with
      dslot := h.dslot, isHome := h.isHome, transcript := h.transcript, recEpoch := h.recEpoch, recNode := h.recNode
      confirmed := max e.confirmed h.confirmed })
  | none => s.addEntry e

/-- The transcript of a claimed session (R422): that of the shard replaces the home's, or the home's is fetched; beyond POSITION it
is cut. -/
def State.restoreTrx (s : State) (x : CkStSes) : State :=
  match x.trx with
  | some toks =>
    let s := { s with ck := { s.ck with equal := (x.sid, toks) :: s.ck.equal.filter fun y => y.1 != x.sid } }
    s.truncateTrx x.sid x.position
  | none =>
    if s.isHome x.sid then
      let toks := match s.ses.transcripts.find? fun t => t.sid == x.sid with | some t => t.tokens | none => []
      (s.updSeq x.sid fun q => { q with tokens := toks.take x.position }).truncateTrx x.sid x.position
    else
      let fs := (x.sid, x.position, []) :: s.ck.fetches.filter fun y => y.1 != x.sid
      (State.sendHome { s with ck := { s.ck with fetches := fs } } x.sid .trxFetch {}).truncateTrx x.sid x.position

/-- The home confirmed a staged session (R422, R423): it enters PAUSED and its image is pulled. A session of the index without an
image, or one that near memory does not take, is DROPPED and can be revived (log entry 44). -/
def State.restoreSession (s : State) (bed dflt : Nat) (x : CkStSes) (epoch : W32) : Option State :=
  let f := if s.ownsFurrow bed x.furrow then x.furrow else dflt
  let e : Entry :=
    { sid := x.sid, state := .paused, isOwner := true, bed := bed, tier := .near, ownerNode := s.node, epoch := epoch
      profile := x.profile, furrow := some f, pauseReason := 3, position := x.position, graft := x.graft }
  match s.newOwner e with
  | none => none
  | some s =>
    if x.image.isEmpty then some (s.dropSession x.sid) else
    match s.enterNear e e.profile (Config.ctxOf ((x.image.drop 4096).take 16384)) with
    | .error st => some ((s.noRegion bed st).dropSession x.sid)
    | .ok s =>
      let s := s.updSeq x.sid fun q => { q with tokens := (x.trx.getD []).take x.position, runOpen := false, pull := some 0 }
      let s := s.updEntry x.sid fun e => { e with expiry := s.expiryAfter (s.rdN .SES_TTL_PAUSED bed) }
      let s := s.updIdle e fun t => { t with turn := x.turn }
      let s := { s with ck := { s.ck with pulls := x :: s.ck.pulls.filter fun y => y.sid != x.sid } }
      let a := (s.restoreTrx x).lastAckFt x.sid
      some (a.2.event x.sid 0x17 x.position 0 (leBytes 8 a.1.toNat ++ leBytes 8 s.now.toNat))

/-- The staged restore whose claim waits for a session. -/
def State.claimOf (s : State) (sid : W64) : Option (CkStaged × CkStSes × CkClaim) :=
  (s.ck.staged.find? fun x => x.claim.any fun c => c.sid == sid).bind fun x =>
    match x.sessions, x.claim with
    | y :: _, some c => some (x, y, c)
    | _, _ => none

/-- A claim is decided: the session leaves the staged restore, and the next one is claimed. -/
def State.claimDone (s : State) (x : CkStaged) (ok : Bool) : State :=
  let s := s.updStaged x.bed fun x => { x with
    sessions := x.sessions.drop 1, claim := none
    claimed := x.claimed + (if ok then 1 else 0), refused := x.refused + (if ok then 0 else 1) }
  s.ckClaimNext (x.sessions.length + 1) x.bed

/-- CONFIRM of a staged session's claim (R422); none where no claim waits for it. -/
def State.stagedConfirm (s : State) (m : OwnMsg) : Option State :=
  (s.claimOf m.sid).map fun (x, y, _) =>
    let dflt := match x.commit with | some c => c.2 | none => 0
    let s := s.updStaged x.bed fun x => { x with sessions := { y with image := [] } :: x.sessions.drop 1 }
    match s.restoreSession x.bed dflt y m.epoch with
    | some s => s.claimDone x true
    | none => s.claimDone x false

/-- REFUSE of a staged session's claim (R422): after NO_RECORD it is claimed with REBUILD at the next epoch. -/
def State.stagedRefuse (s : State) (m : OwnMsg) : Option State :=
  (s.claimOf m.sid).map fun (x, y, c) =>
    if m.code = 3 && !c.rebuild then
      let s := s.updStaged x.bed fun x => { x with claim := some { sid := y.sid, rebuild := true, since := s.now } }
      match s.homeOf y.sid with
      | some h => (s.sendOwn h (some x.bed) .claim
          { sid := y.sid, flagRebuild := true, epoch := y.epoch + 1, node := s.node }).touchOwn y.sid
      | none => s.claimDone x false
    else s.claimDone x false

/-- A claim of a staged session that its home does not answer within 480 ft is counted as refused (R117, R422). -/
def State.stagedTimeout (s : State) (sid : W64) : Option State :=
  match s.claimOf sid with
  | some (x, _, c) => if ftReached s.now (ftAdd c.since 480) then some (s.claimDone x false) else none
  | none => none

/-! ## Transcripts (R413, R422) -/

/-- TRX_ACK as checkpoints take it: a covered session's transcript may now be fetched, and a restored one's is appended to. -/
def State.ckTrxAck (s : State) (sid : W64) (n : Nat) : State :=
  let s := match s.owner? sid with | some e => s.ckAsk e.bed sid | none => s
  match s.ck.equal.find? fun x => x.1 == sid with
  | none => s
  | some x =>
    let s := { s with ck := { s.ck with equal := s.ck.equal.filter fun y => y.1 != sid } }
    let rest := x.2.drop n
    s.sendTrx sid n rest

/-- TRX_DATA for a checkpoint or a restored session; a message with fewer than 64 token IDs ends it (log entry 17). -/
def State.ckTrxData (s : State) (m : OwnMsg) : State :=
  match s.ck.fetches.find? fun x => x.1 == m.sid with
  | some x =>
    let toks := x.2.2.take m.position ++ m.tokens
    if m.tokens.length < 64 then
      let s := { s with ck := { s.ck with fetches := s.ck.fetches.filter fun y => y.1 != m.sid } }
      s.updSeq m.sid fun q => { q with tokens := toks.take x.2.1 ++ q.tokens.drop x.2.1 }
    else
      let fs := updFirst (fun (y : W64 × Nat × List W32) => y.1 == m.sid) (fun y => (y.1, y.2.1, toks)) s.ck.fetches
      { s with ck := { s.ck with fetches := fs } }
  | none =>
    match s.ck.parts.find? fun p => p.sessions.any fun x => x.entry.sid == m.sid && x.asked && !x.resolved with
    | none => s
    | some p =>
      match p.sessions.find? fun x => x.entry.sid == m.sid with
      | none => s
      | some x =>
        let toks := x.got.take m.position ++ m.tokens
        if m.tokens.length < 64 then s.ckTranscript p.bed m.sid toks
        else s.updCkSes p.bed m.sid fun x => { x with got := toks }

/-! ## RESTORE_LAYER_RESIDENT (R423) -/

/-- A layer of a restored image is resident, and the packets that waited for it proceed; `readable` is false when its source can
no longer be read, which loses the session's tensors. -/
def State.restoreLayer (s : State) (sid : W64) (readable : Bool) : State :=
  match s.ck.pulls.find? (fun x => x.sid == sid), s.owner? sid, (s.seq? sid).bind fun q => q.pull with
  | some x, some e, some n =>
    let drop := fun (s : State) => { s with ck := { s.ck with pulls := s.ck.pulls.filter fun y => y.sid != sid } }
    match s.profile? e.bed x.profile with
    | none => drop (s.lostTensors sid)
    | some p =>
      if !readable then drop (s.lostTensors sid) else
      match s.placePages sid p true (imagePages p x.position x.image n) with
      | none => s.setStatus F.TIER_STATUS_NO_ROOM e.bed
      | some s =>
        let whole := p.layers ≤ n + 1
        let s := s.updSeq sid fun q => { q with pull := if whole then none else some (n + 1) }
        let s := if whole then drop s else s
        let s := if whole && s.sch.work.all fun w => w.sid != sid then s.ckCapture e.bed sid else s
        s.wakeParts sid
  | _, _, _ => { s with ck := { s.ck with pulls := s.ck.pulls.filter fun y => y.sid != sid || (s.seq? sid).isSome } }

/-! ## CK_REGROUP (R424) -/

/-- The four register values that a CK_REGROUP gives its group. -/
def regroupValues (bs : List Byte) : List Nat :=
  let step := bytesAt bs 0 2
  if step = 0xFFFF then [0, 0, 0, 0] else
    let n := min 6 (bytesAt bs 2 1)
    let node := fun (i : Nat) => if i < n then bytesAt bs (4 + 2 * i) 2 % 512 + 2 ^ 15 else 0
    (step % 512 + 2 ^ 31) :: (List.range 3).map fun k => node (2 * k) + node (2 * k + 1) * 2 ^ 16

/-- CK_REGROUP. -/
def State.ckRegroup (s : State) (d : Desc) : State :=
  let bed := (dBed d).getD 0
  let g := dArg d 48 1
  match (s.ckArm? bed).bind fun a => s.profile? bed a.profile with
  | none => s.complete d CkSt.notArmed
  | some _ =>
    if 15 < g then s.complete d St.ok else
      let bs := s.buf0N d 16
      s.submitCmd d [s.jCmd d 0x0008 bed (5 * 2 ^ 24) g (groupDigest (s.groupRegs bed g)) (groupDigest (regroupValues bs))] []
        (.cmd d bs 0)

/-- CK_REGROUP once durable: B is the first boundary of the job profile at least CK_LEAD ft after the command, and a regrouping
of the same group that still waits is replaced. -/
def State.ckRegroupDone (s : State) (d : Desc) (bs : List Byte) : State :=
  let bed := (dBed d).getD 0
  let g := dArg d 48 1
  match (s.ckArm? bed).bind fun a => s.profile? bed a.profile with
  | none => s.complete d CkSt.notArmed
  | some p =>
    let b := s.ckBoundary p
    let x : CkRegroup := { bed := bed, group := g, at_ := b, mode := dArg d 49 1 % 2, values := regroupValues bs }
    let rs := s.ck.regroups.filter fun y => !(y.bed == bed && y.group == g)
    State.complete { s with ck := { s.ck with regroups := rs ++ [x] } } d St.ok (b * 2 ^ 24)

/-- A regrouping takes effect (R424): in drain mode entries admitted before keep the old group, in cut mode they are abandoned. -/
def State.regroupNow (s : State) (x : CkRegroup) : State :=
  let before := ftOfSample x.at_
  let uses := fun (w : Work) => w.bed == x.bed && ((s.profile? w.bed w.profile).any fun p => p.partnerGroup == x.group)
  let old : CkOldGroup := { bed := x.bed, group := x.group, before := before, values := s.groupRegs x.bed x.group }
  let s := if x.mode = 1 then s.abandonAll uses
    else { s with ck := { s.ck with olds := s.ck.olds ++ [old] } }
  s.setGroup x.bed x.group x.values

/-- The regroupings of a Bed that are due at a boundary; old groups that no entry uses are forgotten. -/
def State.applyRegroups (s : State) (bed : Nat) (b : Nat) : State :=
  let due := fun (x : CkRegroup) => x.bed == bed && ftReached (ftOfSample b) (ftOfSample x.at_)
  let xs := s.ck.regroups.filter due
  let s := { s with ck := { s.ck with regroups := s.ck.regroups.filter fun x => !due x } }
  let s := xs.foldl (fun s x => s.regroupNow x) s
  let used := fun (o : CkOldGroup) => s.sch.work.any fun w => w.bed == o.bed && ftLater o.before w.step
  { s with ck := { s.ck with olds := s.ck.olds.filter used } }

/-! ## Resets (R416, R421, R426) -/

/-- A partition reset: the Bed's checkpoint is aborted, its staged restore released, the Bed disarmed. Commands end with the reset
of their function. -/
def State.ckReset (s : State) (bed : Nat) : State :=
  let s := match s.ckPart? bed with | some _ => s.endPart bed | none => s
  let c := s.ck
  let other := fun (sid : W64) => (s.owner? sid).any fun e => e.bed != bed
  { s with ck := { c with
      equal := c.equal.filter (fun x => other x.1), fetches := c.fetches.filter fun x => other x.1
      arms := c.arms.filter fun x => x.bed != bed, rounds := c.rounds.filter fun x => x.bed != bed
      restores := c.restores.filter fun x => x.bed != bed, staged := c.staged.filter fun x => x.bed != bed
      txs := c.txs.filter fun x => x.bed != bed, regroups := c.regroups.filter fun x => x.bed != bed
      olds := c.olds.filter fun x => x.bed != bed
      pulls := c.pulls.filter fun x => other x.sid } }

/-- Mulch shards of a Bed that are not freed (CK_SHARDS_KEPT). -/
def State.shardsKept (s : State) (bed : Nat) : Nat :=
  (s.ck.stored.filter fun x => x.bed == bed && x.place == 0 && !x.manifest).length

/-- CK_STATE of a Bed. -/
def State.ckState (s : State) (bed : Nat) : Nat :=
  (match s.ckPart? bed with | some p => p.phase | none => 0) + if (s.staged? bed).isSome then 8 else 0

end Sys2Proof.Machine
end

