-- ==== Sys2Proof/Machine/Boundary.lean ====
section
/-! DEFINITION. A step boundary (R123 to R127, R424). -/

namespace Sys2Proof.Machine

/-- Boundaries that were not raised (R125). -/
def State.skip (s : State) (bed n : Nat) : State := (s.bump .SCH_SKIPPED bed n).setTimes F.SCH_STATUS_SKIPPED bed n

/-- The boundaries that a region which raises `b` now has missed since its own last one (R125). -/
def Profile.missed (p : Profile) (b : Nat) (x : Nat × Nat) : Nat := (latestPassed p x.2 (sampleGap x.2 b)).2

/-- Raise boundary `b` of a profile after `skipped` others (R125, R127): a cut that is due is taken at its freeze (R409), the changes
that wait for it and the regroupings that are due take effect, and the work lists are built. A region that does not raise it stays
behind; one that was behind and raises again has missed more of them, each counted once. A Bed that a C3 fault stopped builds
none (R462). -/
def State.raiseBoundary (s : State) (p : Profile) (b skipped : Nat) (f : W64) : State :=
  let bed := p.bed
  let rs := (s.regionsOf bed).filter fun r => s.raises r
  let back := p.lag.filter fun x => rs.contains x.1
  let lag := ((s.regionsOf bed).filter fun r => !rs.contains r).map fun r => (r, Table.get p.lag p.nextB r)
  let s := (s.bump .SCH_STEPS bed).skip bed (back.foldl (fun n x => max n (p.missed b x)) skipped)
  let s := s.updProfile bed p.id fun p => { p with nextB := nextGrid p b, lag := lag }
  if s.flt.fatalBeds.contains bed then s else
  let s := match s.ckPart? bed with
    | some c => if c.phase = 1 && ftReached (ftOfSample b) c.cut then s.cutPart c else s
    | none => s
  let s := (s.applyBoundary bed p.id).applyRegroups bed b
  match s.profile? bed p.id with
  | some q =>
    let plain := rs.filter fun r => !(back.any fun x => x.1 == r)
    let s := s.buildLists q (ftOfSample b) (if skipped = 0 then ftOfSample b else f) skipped plain
    back.foldl (fun s x => s.buildLists q (ftOfSample b) f (p.missed b x) [x.1]) s
  | none => s

/-- A region that was behind raises the latest boundary passed, which the other regions of the Bed have raised already (R52, R125):
its own lists are built. -/
def State.raiseLate (s : State) (p : Profile) (r n : Nat) (f : W64) : State :=
  let x := latestPassed p n (sampleGap n (ftSample f))
  let s := (s.skip p.bed x.2).updProfile p.bed p.id fun p => { p with lag := p.lag.filter fun y => y.1 != r }
  if s.flt.fatalBeds.contains p.bed then s else
  match s.profile? p.bed p.id with
  | some q => s.buildLists q (ftOfSample x.1) (if x.2 = 0 then ftOfSample x.1 else f) x.2 [r]
  | none => s

/-- STEP_BOUNDARY of a profile of a Bed (R123, R125, R127): once the region clock has reached its next boundary, the boundaries
passed are counted and the latest is raised, after those that profiles with a lower PROFILE_ID have on the same Frame Time. -/
def State.stepBoundary (s : State) (bed pid : Nat) : State :=
  match s.profile? bed pid with
  | none => s
  | some p =>
    match s.latest p with
    | some (b, skipped, f) => if s.inTurn p b then s.raiseBoundary p b skipped f else s
    | none => match s.lateAt p with
      | some (r, n, f) => s.raiseLate p r n f
      | none => s

end Sys2Proof.Machine
end

