-- ==== Sys2Proof/Machine/Furrows.lean ====
section
/-! DEFINITION. Furrows and the sampling commands (R265, R266, R271, R274, R275). -/

namespace Sys2Proof.Machine

/-- The command status of R274. -/
def furrowInUse : Nat := 0x80

/-- FUR_CREATE (R274). A LOG2_SIZE outside 4 to 16 is taken at the nearer end (R84). -/
def State.furCreate (s : State) (d : Desc) : State :=
  let n := dArg d 48 2
  if (s.furrow? n).isSome then s.complete d furrowInUse else
    let f : Furrow :=
      { num := n, bed := (dBed d).getD 0, log2 := max 4 (min 16 (dArg d 50 1)), base := d.addr0
        vector := dArg d 51 1 % 64, count := dArg d 52 1, delay := dArg d 54 2 }
    ({ s with smp := { s.smp with furrows := s.smp.furrows ++ [f] } }).complete d St.ok

/-- FUR_DESTROY (R274). -/
def State.furDestroy (s : State) (d : Desc) : State :=
  let bed := (dBed d).getD 0
  match s.furrow? (dArg d 48 2) with
  | none => s.complete d St.notFound
  | some f =>
    if f.bed != bed || s.ses.entries.any fun e => e.isOwner && e.bed == bed && e.furrow == some f.num then
      s.complete d furrowInUse
    else
      let fs := s.smp.furrows.filter fun x => x.num != f.num
      ({ s with smp := { s.smp with furrows := fs } }).complete d St.ok f.tail

/-! ## SMP_SET and SMP_STOP_SET -/

/-- The controls and stop strings last set of a session, wherever its context lies: near memory, a tensor set, or nowhere. -/
def State.lastSet (s : State) (e : Entry) : SavedCtl :=
  let setCtx := (s.tiers.sets.find? fun t => t.kind == 0 && t.owner == e.sid && t.ctx.isSome).bind fun t => t.ctx
  match s.ctx? e.sid, setCtx, s.smp.saved.find? fun x => x.sid == e.sid with
  | some c, _, _ => { sid := e.sid, ctl := c.next, stops := c.nextStops }
  | none, some c, _ => { sid := e.sid, ctl := c.next, stops := c.nextStops }
  | none, none, some x => x
  | none, none, none =>
    { sid := e.sid, ctl := match s.profile? e.bed e.profile with | some p => p.controls e.sid | none => {} }

/-- Set the controls and stop strings of a session for its next boundary and turn, and in its transcript header (R251). -/
def State.setLast (s : State) (x : SavedCtl) : State :=
  let put := fun (c : OutCtx) => { c with next := x.ctl, nextStops := x.stops }
  let s := s.updCtx x.sid put
  let sets := updAll (fun (t : TensorSet) => t.kind == 0 && t.owner == x.sid) (fun t => { t with ctx := t.ctx.map put })
    s.tiers.sets
  let saved := x :: s.smp.saved.filter fun y => y.sid != x.sid
  let s := { s with tiers := { s.tiers with sets := sets } }
  { s with smp := { s.smp with saved := saved } }

/-- One field of the controls: its old value, and the controls with the new one (R274). -/
def setField (c : Controls) (field v : Nat) : Option (Nat × Controls) :=
  let w : W32 := BitVec.ofNat 32 v
  match field with
  | 0 => some (c.temperature.toNat, { c with temperature := w })
  | 1 => some (c.topP.toNat, { c with topP := w })
  | 2 => some (c.minP.toNat, { c with minP := w })
  | 3 => some (c.topK, { c with topK := v % 2 ^ 16 })
  | 4 => some (c.seed.toNat, { c with seed := BitVec.ofNat 64 v })
  | 5 => some (c.grammar.getD 0xFFFF, { c with grammar := if v % 2 ^ 16 = 0xFFFF then none else some (v % 2 ^ 16) })
  | 6 => some (c.maxOutput, { c with maxOutput := v % 2 ^ 32 })
  | _ => none

/-- Run the body of a sampling command on the session it names. -/
def State.onSession (s : State) (d : Desc) (f : Entry → State) : State :=
  match s.targetSid d with
  | none => s.complete d St.notOwner
  | some sid =>
    match s.heldEntry d sid with
    | .error st => s.complete d st
    | .ok e => f e

/-- SMP_SET (R274). A grammar that the Bed does not hold is NOT_FOUND (R512); a field the table does not list has no effect
(R84). -/
def State.smpSet (s : State) (d : Desc) : State :=
  s.onSession d fun e =>
    let x := s.lastSet e
    let v := dArg d 56 8
    if dArg d 48 1 = 5 && v % 2 ^ 16 != 0xFFFF && (s.table? e.bed 4 (v % 2 ^ 16)).isNone then s.complete d St.notFound
    else match setField x.ctl (dArg d 48 1) v with
      | some (old, ctl) => (s.setLast { x with ctl := ctl }).complete d St.ok old
      | none => s.complete d St.ok

/-- Bytes are well-formed UTF-8. -/
def utf8Ok (bs : List Byte) : Bool :=
  let r := bs.foldl (fun (a : Utf8 × Bool) b =>
    let x := utf8Step a.1 b
    (x.1, a.2 && x.2.all fun u => match u with | .cp _ => true | .bad _ => false)) (({} : Utf8), true)
  r.2 && r.1.acc.isEmpty

/-- String `i` of the buffer: up to its first zero byte; empty when it is not held (R265, R274). -/
def stopString (bs : List Byte) (i : Nat) : List Byte :=
  let t := ((bs.drop (64 * i)).take 64).takeWhile fun b => b != 0
  if utf8Ok t then t else []

/-- SMP_STOP_SET (R265, R274). A string keeps its place in the buffer as its index. -/
def State.stopSet (s : State) (d : Desc) : State :=
  s.onSession d fun e =>
    let bs := s.buf0N d 512
    let stops := (List.range 8).map fun i => stopString bs i
    let s := s.setLast { s.lastSet e with stops := stops }
    s.complete d St.ok (stops.filter fun x => !x.isEmpty).length

/-- SMP_GRAMMAR_LOAD (R274, R243). -/
def State.grammarLoad (s : State) (d : Desc) : State := s.tableLoad d [4]

/-- SMP_GRAMMAR_UNLOAD (R274, R246). -/
def State.grammarUnload (s : State) (d : Desc) : State := s.tableUnload d 4 (dArg d 48 2) grammarInUse

/-! ## The Furrow's ring (R266, R271) -/

/-- FURROW_HEAD_WRITE: software returns entries. A head beyond the tail returns every entry (R84); a Furrow of another Bed is
left as it is. -/
def State.furrowHead (s : State) (bed furrow head : Nat) : State :=
  match (s.furrow? furrow).filter fun f => f.bed == bed with
  | none => s
  | some f =>
    let k := (head % furSize f + furSize f - f.head) % furSize f
    s.updFurrow furrow fun f =>
      if k ≤ f.used then { f with head := head % furSize f, used := f.used - k } else { f with head := f.tail, used := 0 }

/-- Write entries from the backlog while slots are free; the paused writer follows into the backlog (R271). `n` bounds the
entries. -/
def State.drain (n : Nat) (s : State) (sid : W64) : State :=
  match n with
  | 0 => s
  | n + 1 =>
    match s.furrowOf sid, s.ctx? sid with
    | some f, some c =>
      match c.backlog with
      | [] => s
      | e :: rest =>
        if furSize f ≤ f.used then s else
          let s := s.furWrite f e
          let s := s.updCtx sid fun c => { c with
            backlog := rest ++ c.paused.take 1, paused := c.paused.drop 1, drained := c.drained + 1 }
          State.drain n s sid
    | _, _ => s

/-- FURROW_BACKLOG_DRAIN (R271): then HOLD_END with the entries written, and IN_FLIGHT of a step whose last entry has found a
place (R135). A Bed that a C3 fault stopped writes nothing (R462). -/
def State.backlogDrain (s : State) (sid : W64) : State :=
  match s.furrowOf sid, s.ctx? sid with
  | some f, some c =>
    if s.flt.fatalBeds.contains f.bed then s else
    let s := State.drain (c.backlog.length + c.paused.length) s sid
    let s := match s.furrowOf sid, s.ctx? sid, s.owner? sid with
      | some f, some c, some e =>
        if c.backlog.isEmpty && c.paused.isEmpty && c.drained != 0 && decide (f.used < furSize f) then
          (s.event sid 0x18 e.position 0 (leBytes 4 c.drained)).updCtx sid fun c => { c with drained := 0 }
        else s
      | _, _, _ => s
    match s.work? sid with
    | some w => if w.done && (s.ctx? sid).any fun c => c.paused.isEmpty then s.finishWork w else s
    | none => s
  | _, _ => s

/-- FURROW_IRQ_DELAY (R266, R81): the oldest pending entry has waited DELAY, in 1/256 ft. -/
def State.furrowIrq (s : State) (furrow : Nat) : State :=
  match s.furrow? furrow with
  | some f =>
    if f.delay != 0 && f.pending != 0 && ftReached s.now (f.oldest + BitVec.ofNat 64 (f.delay * 65536)) then s.furSignal f
    else s
  | none => s

end Sys2Proof.Machine
end

