-- ==== Sys2Proof/Machine/Ownership.lean ====
section
/-! DEFINITION. Ownership messages and their timers (R94, R99, R101 to R112), the leases and the times-to-live (R98). -/

namespace Sys2Proof.Machine

/-! ## REFUSE codes (R102) -/

namespace Rf
def epochStale : Nat := 1
def present : Nat := 2
def noRecord : Nat := 3
def mapMismatch : Nat := 4
def noResource : Nat := 5
def notArmed : Nat := 6
def epochLimit : Nat := 7
def notHeld : Nat := 8
end Rf

/-- REFUSE a message. -/
def State.refuseOwn (s : State) (m : OwnMsg) (code : Nat) : State := s.replyOwn m .refuse { code := code }

/-- The directory lookup of a message's session; RENEW, RENEW_ACK and HOME_XFER_END name none (R95, R102). -/
def State.msgReach (s : State) (m : OwnMsg) : State :=
  if m.sid = 0 then s else s.dirReach m.sid

/-- An ownership message with another MAP_VERSION is refused with MAP_MISMATCH (R94). SES_STATUS.MAP_MISMATCH, "a message for this
Bed was refused with MAP_MISMATCH" (R119), is set for a message that this node refuses about a session its Bed owns, and not for a
REFUSE that reaches this node: DESIGN CHOICE (log entry 106). -/
def State.ownIn (s : State) (m : OwnMsg) (f : State → State) : State :=
  let s := s.msgReach m
  if m.mapVersion == (match s.ses.map with | some h => h.version | none => 0) then f s
  else
    let s := match s.owner? m.sid with
      | some e => s.setStatus F.SES_STATUS_MAP_MISMATCH e.bed
      | none => s
    s.refuseOwn m Rf.mapMismatch

/-- This node answers as home for a SID: the map names it, and the bucket is not awaited (R94). -/
def State.servesHome (s : State) (sid : W64) : Bool :=
  s.isHome sid && s.ses.takeUp.all fun x => x.1 != homeBucket sid

/-- A message that only a home takes: another node ignores it. -/
def State.homeIn (s : State) (m : OwnMsg) (f : State → State) : State :=
  s.ownIn m fun s => if s.servesHome m.sid then f s else s

/-- The lifetime values of the map held. -/
def State.leaseFt (s : State) : Nat := match s.ses.map with | some m => m.lease | none => 0
def State.guardFt (s : State) : Nat := match s.ses.map with | some m => m.guardFt | none => 0
def State.renewFt (s : State) : Nat := match s.ses.map with | some m => m.renew | none => 0
def State.tombstoneFt (s : State) : Nat := match s.ses.map with | some m => m.tombstone | none => 0

/-- The rebuild window, or a bucket taken up late, makes every RENEW_ACK carry REBUILD (R94, R112). -/
def State.rebuilding (s : State) : Bool :=
  (s.ses.rebuildUntil.any fun t => ftLater t s.now) || s.ses.lateTake.any fun x => ftLater x.2 s.now

/-- The transcript copy of a session at its home. -/
def State.transcript? (s : State) (sid : W64) : Option Transcript := s.ses.transcripts.find? fun t => t.sid == sid

/-! ## The home's answers -/

/-- Write a home record (R103). -/
def State.setRecord (s : State) (sid : W64) (st : SesState) (node : Nat) (epoch : W32) : State :=
  s.updEntry sid fun e =>
    if e.isOwner && e.isHome && e.ownerNode == node && st == .held then { e with recEpoch := epoch, recNode := node }
    else if e.isOwner then { e with isHome := true, recEpoch := epoch, recNode := node }
    else { e with state := st, isHome := true, ownerNode := node, epoch := epoch, recEpoch := epoch, recNode := node
                  expiry := 0 }

/-- A new home record (R103): placed in the SID's entry if this node owns it, else in a free entry. -/
def State.newRecord (s : State) (sid : W64) (node : Nat) (epoch : W32) : Option State :=
  let conf := match s.transcript? sid with | some t => t.tokens.length | none => 0
  if (s.entry? sid).isSome then some ((s.setRecord sid .held node epoch).showHead sid)
  else (s.addEntry { sid := sid, state := .held, isHome := true, ownerNode := node, epoch := epoch, confirmed := conf
                     recEpoch := epoch, recNode := node }).map fun s => s.showHead sid

/-- Note that an owner is alive (R108 Tr); a confirmed claim counts as its first RENEW: DEDUCED (log entry 16). -/
def State.seenOwner (s : State) (node : Nat) (first : Bool) : State :=
  if first && s.ses.renewSeen.any (fun x => x.1 == node) then s
  else
    let r := (node, s.now) :: s.ses.renewSeen.filter fun x => x.1 != node
    { s with ses := { s.ses with renewSeen := r } }

/-- CONFIRM of a claim (R103). -/
def State.confirmClaim (s : State) (m : OwnMsg) (epoch : W32) : State :=
  (s.seenOwner m.sender true).replyOwn m .confirm { epoch := epoch, node := m.sender }

/-- CLAIM (R103). -/
def State.claim (s : State) (m : OwnMsg) : State :=
  s.homeIn m fun s =>
    match s.record? m.sid with
    | none =>
      if m.flagNew || m.flagRebuild then
        let ep := if m.flagNew then 1 else m.epoch
        match s.newRecord m.sid m.sender ep with
        | some s => s.confirmClaim m ep
        | none => s.refuseOwn m Rf.noResource
      else s.refuseOwn m Rf.noRecord
    | some r =>
      if m.flagNew || m.flagRebuild then s.refuseOwn m Rf.present
      else
        let fine := if m.flagRevive then homeState r == .dropped && (m.epoch == 0 || m.epoch == r.recEpoch)
          else homeState r == .held && r.recNode == m.node && r.recEpoch == m.epoch
        if !fine then s.refuseOwn m Rf.epochStale
        else if r.recEpoch == 0xFFFFFFFF#32 then s.refuseOwn m Rf.epochLimit
        else
          let ep := r.recEpoch + 1
          let prev := r.recNode
          let s := if r.isOwner && r.state == .dropped && m.sender != s.node then s.freeOwner m.sid .held m.sender ep else s
          let s := (s.setRecord m.sid .held m.sender ep).confirmClaim m ep
          if m.flagRevive || prev = m.sender then s
          else s.sendOwn prev none .confirm { sid := m.sid, epoch := ep, node := m.sender }

/-- The ANSWER about a record (R102, R105). -/
def State.answerOf (s : State) (m : OwnMsg) (r : Entry) : State :=
  s.replyOwn m .answer { code := SesNum (homeState r), epoch := r.recEpoch, node := r.recNode, position := r.confirmed }

/-- A home without the record: REFUSE NO_RECORD (R99, R105), in a rebuild window too. -/
def State.noRecordAnswer (s : State) (m : OwnMsg) : State := s.refuseOwn m Rf.noRecord

/-- QUERY (R105). -/
def State.query (s : State) (m : OwnMsg) : State :=
  s.homeIn m fun s =>
    match s.record? m.sid with
    | some r => s.answerOf m r
    | none => s.noRecordAnswer m

/-- A note matches the home record (R99). -/
def noteFits (r : Entry) (m : OwnMsg) : Bool := r.recNode == m.sender && r.recEpoch == m.epoch

/-- DROP_NOTE (R99). -/
def State.dropNote (s : State) (m : OwnMsg) : State :=
  s.homeIn m fun s =>
    match s.record? m.sid with
    | none => s.noRecordAnswer m
    | some r =>
      if !noteFits r m then s.refuseOwn m Rf.notHeld else
        let s := if homeState r == .held && !r.isOwner then s.setRecord m.sid .dropped r.recNode r.recEpoch else s
        let s := s.settleTrx m.sid
        match s.record? m.sid with
        | some r => s.answerOf m r
        | none => s

/-- CLOSE_NOTE (R98, R99): the record turns CLOSED with a tombstone. -/
def State.closeNote (s : State) (m : OwnMsg) : State :=
  s.homeIn m fun s =>
    match s.record? m.sid with
    | none => s.noRecordAnswer m
    | some r =>
      if !noteFits r m then s.refuseOwn m Rf.notHeld else
        let ex := ftSample (ftAdd s.now s.tombstoneFt)
        let s := (s.updEntry m.sid fun e => { e with state := .closed, expiry := ex }).settleTrx m.sid
        match s.record? m.sid with
        | some r => s.answerOf m r
        | none => s

/-- RENEW (R107, R108, R112). -/
def State.renew (s : State) (m : OwnMsg) : State :=
  s.ownIn m fun s => (s.seenOwner m.sender false).replyOwn m .renewAck { flagRebuild := s.rebuilding }

/-- TRX_APPEND (R109): refused with NOT_HELD unless sender and epoch match the record. -/
def State.trxAppendIn (s : State) (m : OwnMsg) : State :=
  s.homeIn m fun s =>
    match s.record? m.sid with
    | some r => if noteFits r m then s.logAppend m else s.refuseOwn m Rf.notHeld
    | none => s.refuseOwn m Rf.notHeld

/-- TRX_FETCH (R110): the copy from POSITION on, 64 token IDs a message; a message with fewer ends it (log entry 17). -/
def State.trxFetch (s : State) (m : OwnMsg) : State :=
  s.homeIn m fun s =>
    match s.transcript? m.sid with
    | none => s.replyOwn m .trxData { position := m.position }
    | some t =>
      let toks := t.tokens.drop m.position
      (List.range (toks.length / 64 + 1)).foldl (fun s i =>
        s.replyOwn m .trxData { position := m.position + 64 * i, tokens := (toks.drop (64 * i)).take 64 }) s

/-- TRX_DATA at the home (log entry 97): the next token IDs of the transcript copy of a record that a bucket brought here, placed as
R316 places them. Without room for it the record has no confirmed tokens. -/
def State.takeCopy (s : State) (m : OwnMsg) : State :=
  let have_ := match s.transcript? m.sid with | some t => t.tokens.length | none => 0
  if m.tokens.isEmpty || (s.record? m.sid).isNone || have_ != m.position then s
  else match s.openTrx m.sid with
    | some (_, s) => (s.updTrx m.sid fun t => { t with tokens := t.tokens ++ m.tokens }).applyTrx m.sid
    | none => s.updEntry m.sid fun e => if e.isOwner then e else { e with confirmed := 0 }

/-- HOME_XFER (R94): the new home takes in the record. -/
def State.homeXfer (s : State) (m : OwnMsg) : State :=
  s.ownIn m fun s =>
    match m.entry with
    | none => s
    | some x =>
      if !s.isHome x.sid then s else
        let r : Entry :=
          { sid := x.sid, state := x.state, isHome := true, ownerNode := x.ownerNode, epoch := x.epoch
            confirmed := x.confirmed, expiry := x.expiry, recEpoch := x.epoch, recNode := x.ownerNode }
        match s.entry? x.sid with
        | some e =>
          if e.isHome then s
          else s.updEntry x.sid fun e => { e with
            isHome := true, recEpoch := x.epoch, recNode := x.ownerNode, confirmed := max e.confirmed x.confirmed }
        | none => match s.addEntry r with
          | some s => s
          | none => s.refuseOwn m Rf.noResource

/-- HOME_XFER_END (R94). -/
def State.homeXferEnd (s : State) (m : OwnMsg) : State :=
  s.ownIn m fun s =>
    { s with ses := { s.ses with takeUp := s.ses.takeUp.filter fun x => !(x.1 == m.node && x.2.1 == m.sender) } }

/-! ## The owner's side -/

/-- Own values of an entry become CONFIRMED. -/
def State.setConfirmed (s : State) (sid : W64) : State :=
  let s := { s with ses := { s.ses with queries := s.ses.queries.filter fun q => q.1 != sid } }
  s.updEntry sid fun e => { e with own := .confirmed }

/-- The FT at which this node sent the claim on a session that waits for its CONFIRM. -/
def State.claimFt (s : State) (sid : W64) : W64 :=
  match s.ses.waits.find? fun w => w.sid == sid && (w.why == SesWhy.open || w.why == SesWhy.revive) with
  | some w => w.since
  | none => match s.claimOf sid with
    | some (_, _, c) => c.since
    | none => match s.plw.rx.find? fun t => t.sid == sid && t.claimed with
      | some t => t.claimFt
      | none => Table.get s.ses.lastOwnMsg s.now sid

/-- The first acknowledgement of a home that a confirmed claim gives (R108 Ts): `sent` is the FT at which the claim was sent. -/
def State.firstAck (s : State) (sid : W64) (sent : W64) : State :=
  match s.homeOf sid with
  | none => s
  | some h =>
    if s.ses.acked.any fun x => x.1 == h then s
    else { s with ses := { s.ses with acked := (h, sent) :: s.ses.acked } }

/-- A SES_OPEN that the home confirmed but that cannot go in: its record is closed again. -/
def State.openFails (s : State) (sid : W64) (st : Nat) : State :=
  s.finishWaits sid (fun w => w == .open) st

/-- CONFIRM of a NEW claim (R98, R115, R117): the entry is made, its KV enters near memory, and it asks for a slot. A session that
cannot be entered, QUOTA_DIR among the reasons, is closed at its home. -/
def State.openConfirmed (s : State) (w : SesWait) (m : OwnMsg) : State :=
  match w.d with
  | none => s
  | some d =>
    let bed := (dBed d).getD 0
    let g := dArg d 54 2
    let e : Entry :=
      { sid := m.sid, state := .paused, isOwner := true, bed := bed, tier := .near, prio := dArg d 50 1 % 4
        ownerNode := s.node, epoch := m.epoch, profile := dArg d 48 2, furrow := some (dArg d 52 2)
        graft := if g == 0xFFFF then none else some (g % 4096) }
    if !s.dirQuotaOk bed then (s.openFails m.sid St.overQuota).noteFor m.sid bed m.epoch true else
    match s.newOwner e with
    | none => (s.openFails m.sid St.noResource).noteFor m.sid bed m.epoch true
    | some s =>
      match s.enterNear e e.profile none with
      | .error st => ((s.nearFails bed e.profile st).openFails m.sid st).closeSession m.sid
      | .ok s => s.askLive m.sid

/-- The transcript of a revival is asked for: the home's own copy, or TRX_FETCH (R110). -/
def State.fetchTranscript (s : State) (sid : W64) : State :=
  if s.isHome sid then
    match s.transcript? sid with
    | some t => s.reviveWith sid t.tokens
    | none => s.reviveWith sid []
  else s.sendHome sid .trxFetch {}

/-- The header of a session revived here (R251): a home on this node holds it; of one held elsewhere no message brings its values, which
are free (log entry 109). -/
def State.takeHeader (s : State) (sid : W64) : State :=
  if s.isHome sid then s else
    let rest := s.smp.saved.filter fun y => y.sid != sid
    let saved := match Config.headerCtl sid s.freeCtr with
      | some x => { sid := sid, ctl := x.1, stops := x.2 } :: rest
      | none => rest
    { s with smp := { s.smp with saved := saved }, freeCtr := s.freeCtr + 1 }

/-- The entry of a session that a revival brings here, or the status that refuses it (R110, R115). -/
def State.revivedEntry (s : State) (w : SesWait) (m : OwnMsg) : Except Nat State :=
  match s.owner? m.sid with
  | some _ => .ok (s.updEntry m.sid fun e => { e with epoch := m.epoch, own := .confirmed, expiry := 0 })
  | none =>
    match w.d with
    | some d =>
      let bed := (dBed d).getD 0
      if !s.dirQuotaOk bed then .error St.overQuota else
      match s.newOwner
        { sid := m.sid, state := .dropped, isOwner := true, bed := bed, ownerNode := s.node, epoch := m.epoch
          profile := (minNat? ((s.profilesOf bed).map fun p => p.id)).getD 0, furrow := some (dArg d 48 2) } with
      | some s => .ok (s.takeHeader m.sid)
      | none => .error St.noResource
    | none => .error St.noResource

/-- CONFIRM of a REVIVE claim (R110): the epoch is taken, the DELAY event is noted and the transcript fetched. Where no entry can be
had the record is DROPPED again. -/
def State.reviveConfirmed (s : State) (w : SesWait) (m : OwnMsg) : State :=
  let r := s.takeWaits m.sid fun x => x == .revive
  match r.2.revivedEntry w m with
  | .error st => (r.1.foldl (fun t x => t.complete? x.d st) r.2).noteFor m.sid ((w.d.bind dBed).getD 0) m.epoch false
  | .ok s =>
    let s := r.1.foldl (fun t x => t.addWait { x with why := .resume }) s
    let a := s.lastAckFt m.sid
    let v : Revival := { sid := m.sid, ackFt := a.1, confirmFt := a.2.now }
    let vs := v :: a.2.ses.revivals.filter fun x => x.sid != m.sid
    State.fetchTranscript { a.2 with ses := { a.2.ses with revivals := vs } } m.sid

/-- A handed-over session returns to the state it had (R104): LIVE asks for a slot, PARKED goes down again in its park order,
and is DROPPED where no tier takes it. -/
def State.settle (s : State) (sid : W64) : State :=
  match s.owner? sid with
  | none => s
  | some e =>
    match e.state with
    | .live => if e.slot.isSome then s else s.askLive sid
    | .parked =>
      if e.tier != .near then s else
        let s1 := s.updEntry sid fun e => { e with state := .paused, expiry := 0 }
        match (s.parkTiers sid).find? fun t => s.tierTtl e.bed t != 0 && (s.startDown e t none).toBool with
        | some t => match s1.startDown e t none with
          | .ok s => s
          | .error _ => s.lostTensors sid
        | none => (s.setStatus F.TIER_STATUS_PARK_FALLBACK e.bed).lostTensors sid
    | _ => s

/-- The previous owner frees its entry and writes MOVED; SES_MOVE completes OK (R104, R105). -/
def State.movedAway (s : State) (e : Entry) (m : OwnMsg) : State :=
  let s := s.event e.sid 0x16 e.position 0 (leBytes 2 m.node ++ leBytes 2 0 ++ leBytes 4 m.epoch.toNat)
  let s := s.finishWaits e.sid (fun w => w == .move) St.ok m.epoch.toNat
  s.freeOwner e.sid .held m.node m.epoch

/-- Cancel a handoff copy. -/
def State.cancelHandoff (s : State) (sid : W64) : State := s.endTx sid

/-- The previous owner stays the owner; SES_MOVE completes with NOT_OWNER (R104, R105). -/
def State.moveFails (s : State) (e : Entry) : State :=
  ((s.cancelHandoff e.sid).setConfirmed e.sid).finishWaits e.sid (fun w => w == .move) St.notOwner

/-- The node frees its state for a session (R105). -/
def State.freedBy (s : State) (e : Entry) (node : Nat) (epoch : W32) (st : SesState) : State :=
  let s := (s.cancelHandoff e.sid).finishWaits e.sid (fun _ => true) St.notOwner
  s.freeOwner e.sid st node epoch

/-- CONFIRM (R103, R104, R110, R422). -/
def State.confirm (s : State) (m : OwnMsg) : State :=
  s.ownIn m fun s =>
    let sent := s.claimFt m.sid
    let s := s.touchOwn m.sid
    match s.ses.waits.find? fun w => w.sid == m.sid && (w.why == SesWhy.open || w.why == SesWhy.revive) with
    | some w =>
      if m.node != s.node then s
      else if w.why == SesWhy.revive then (s.firstAck m.sid sent).reviveConfirmed w m
      else if (s.owner? m.sid).isSome then s else (s.firstAck m.sid sent).openConfirmed w m
    | none =>
      match s.stagedConfirm m with
      | some s => s.firstAck m.sid sent
      | none =>
        match s.owner? m.sid with
        | none => s
        | some e =>
          match e.own with
          | .awaiting =>
            if m.node == s.node && m.epoch == e.epoch then ((s.firstAck m.sid sent).setConfirmed m.sid).settle m.sid else s
          | .offered => if m.node != s.node && m.epoch == e.epoch + 1 then s.movedAway e m else s
          | _ => s

/-- The status of a command whose claim is refused (R118). Codes 1, 2, 3, 5, 7 and 8 are read as NOT_OWNER, SID_EXISTS,
NOT_FOUND, NO_RESOURCE, EPOCH_LIMIT and NOT_OWNER: DEDUCED (log entry 19). -/
def refuseStatus (code : Nat) : Nat :=
  match code with
  | 1 | 8 => St.notOwner
  | 2 => SesSt.sidExists
  | 3 => St.notFound
  | 5 => St.noResource
  | 7 => SesSt.epochLimit
  | _ => SesSt.homeUnreachable

/-- A revival ends without a confirmed epoch: its commands end, and input that waits for it ends with NOT_OWNER (log
entry 19). -/
def State.reviveFails (s : State) (sid : W64) (st : Nat) : State :=
  (s.finishWaits sid (fun w => w == .revive || w == .resume) st).endInput sid St.notOwner

/-- The end of a note (R99): a CLOSED entry moves to FREE; a DROP_NOTE needs nothing more. -/
def State.noteDone (s : State) (sid : W64) (close : Bool) : State :=
  let s := { s with ses := { s.ses with notes := s.ses.notes.filter fun n => !(n.sid == sid && n.close == close) } }
  match s.owner? sid with
  | some e => if close && e.state == .closed then s.freeOwner sid .closed e.recNode e.recEpoch else s
  | none => s

/-- An entry that is IN_DOUBT resumes with its event (R105). -/
def State.resumeDoubt (s : State) (e : Entry) : State :=
  let s := s.setConfirmed e.sid
  s.event e.sid 0x15 e.position 0 (leBytes 4 e.epoch.toNat)

/-- A session becomes IN_DOUBT: STATE_IN_DOUBT is the last entry it writes (R108, R109, R270). -/
def State.putInDoubt (s : State) (e : Entry) : State :=
  let s := s.event e.sid 0x14 e.position 0 (leBytes 2 ((s.homeOf e.sid).getD 0))
  (s.updEntry e.sid fun e => { e with own := .inDoubt }).setStatus F.SES_STATUS_IN_DOUBT e.bed

/-- What the home says of a session decides an entry that is not CONFIRMED, or that asked (R105). `known` is false when the
home holds no record. A node that is its own home keeps the record as the home reported it. -/
def State.decide (s : State) (e : Entry) (known : Bool) (m : OwnMsg) : State :=
  let held := known && m.code == SesNum .held
  let st := if known then sesOf m.code else .held
  match e.own with
  | .inDoubt => if held && m.node == s.node && m.epoch == e.epoch then s.resumeDoubt e
      else s.freedBy e m.node m.epoch st
  | .offered =>
    if held && m.node == s.node && m.epoch == e.epoch then s.moveFails e
    else if held && m.node != s.node && m.epoch == e.epoch + 1 then (s.cancelHandoff e.sid).movedAway e m
    else s.freedBy e m.node m.epoch st
  | .awaiting =>
    if held && m.node == s.node && m.epoch == e.epoch then (s.setConfirmed e.sid).settle e.sid
    else s.freedBy e m.node m.epoch st
  | .confirmed =>
    if !(s.ses.queries.any fun q => q.1 == e.sid) then s
    else if held && m.node == s.node && m.epoch == e.epoch then s.setConfirmed e.sid
    else s.freedBy e m.node m.epoch st

/-- The waiting SES_QUERY commands of a session end with the home's answer (R514). -/
def State.endQueries (s : State) (sid : W64) (r : Option (W32 × Nat × Nat)) : State :=
  let x := s.takeWaits sid fun w => w == .query
  x.1.foldl (fun s w => match w.d with | some d => s.queryEnd d (w.path == 1) r | none => s) x.2

/-- ANSWER (R99, R105, R514). -/
def State.answer (s : State) (m : OwnMsg) : State :=
  s.ownIn m fun s =>
    let s := (s.touchOwn m.sid).endQueries m.sid (some (m.epoch, m.node, m.code))
    let note := s.ses.notes.find? fun n => n.sid == m.sid &&
      m.code == (if n.close then SesNum .closed else SesNum .dropped)
    match note with
    | some n => s.noteDone m.sid n.close
    | none =>
      match s.owner? m.sid with
      | some e => s.decide e true m
      | none => s

/-- REFUSE (R94, R99, R104, R105, R109, R110, R112). -/
def State.refuse (s : State) (m : OwnMsg) : State :=
  if m.code == Rf.mapMismatch then
    let xs := updAll (fun (x : Xfer) => x.seq == m.seq && x.dest == m.sender) (fun x => { x with refused := true })
      s.ses.xferOut
    { s with ses := { s.ses with xferOut := xs } }
  else s.ownIn m fun s =>
    let s := s.touchOwn m.sid
    if s.ses.waits.any fun w => w.sid == m.sid && w.why == SesWhy.query && m.code == Rf.noRecord then
      s.endQueries m.sid none
    else match s.ses.waits.find? fun w => w.sid == m.sid && (w.why == SesWhy.open || w.why == SesWhy.revive) with
    | some w =>
      if w.why == SesWhy.revive then s.reviveFails m.sid (refuseStatus m.code)
      else s.openFails m.sid (refuseStatus m.code)
    | none =>
      match s.stagedRefuse m with
      | some s => s
      | none =>
        match s.ses.notes.find? fun n => n.sid == m.sid with
        | some n => s.noteDone m.sid n.close
        | none =>
          match s.owner? m.sid with
          | none => s
          | some e =>
            match e.own with
            | .awaiting => s.freedBy e e.recNode e.recEpoch (homeState e)
            | .offered => if m.code == Rf.noRecord then s.decide e false m else s.moveFails e
            | .inDoubt => if m.code == Rf.noRecord then s.decide e false m else s
            | .confirmed =>
              if m.code == Rf.notHeld then s.putInDoubt e
              else if m.code == Rf.present then
                let s := { s with ses := { s.ses with queries := Table.set s.ses.queries 0 m.sid s.now } }
                s.sendHome m.sid .query {}
              else if m.code == Rf.noRecord then s.decide e false m
              else s

/-- OFFER (R104, R115): the armed Bed's quotas and the directory decide; the entry is AWAITING at epoch e + 1. A placement that finds
no region sets NO_REGION (R140); REFUSE has no code for FENCED (R102) and carries NO_RESOURCE: DESIGN CHOICE (log entry 106). -/
def State.offer (s : State) (m : OwnMsg) : State :=
  s.ownIn m fun s =>
    match s.ses.armed.find? fun a => a.2 == m.sid, m.entry with
    | some a, some x =>
      let bed := a.1
      let f := minNat? ((s.smp.furrows.filter fun f => f.bed == bed).map fun f => f.num)
      let e : Entry :=
        { sid := m.sid, state := x.state, own := .awaiting, isOwner := true, bed := bed, tier := .near, prio := x.prio
          ownerNode := s.node, epoch := x.epoch + 1, profile := x.profile
          furrow := match x.furrow with | some n => if s.ownsFurrow bed n then some n else f | none => f
          pauseReason := x.pauseReason, position := x.position, confirmed := x.confirmed, expiry := x.expiry
          turnStart := x.turnStart, graft := x.graft }
      if (s.owner? m.sid).isSome || !s.dirQuotaOk bed || (x.state == .live && !s.liveQuotaOk bed) ||
          (s.profile? bed x.profile).isNone then s.refuseOwn m Rf.noResource
      else match s.newOwner e with
        | none => s.refuseOwn m Rf.noResource
        | some s1 => match s1.enterNear e e.profile none with
          | .error st => (s.nearFails bed e.profile st).refuseOwn m Rf.noResource
          | .ok s => ({ s with ses := { s.ses with armed := s.ses.armed.filter fun y => y != a } }).touchOwn m.sid
    | _, _ => s.refuseOwn m Rf.notArmed

/-- RENEW_ACK (R108, R112). -/
def State.renewAck (s : State) (m : OwnMsg) : State :=
  s.ownIn m fun s =>
    let s := match s.ses.renewSent.find? fun x => x.1 == m.sender && x.2.1 == m.seq with
      | some x =>
        let ak := (m.sender, x.2.2) :: s.ses.acked.filter fun y => y.1 != m.sender
        let rs := s.ses.renewSent.filter fun y => y.1 != m.sender || ftLater y.2.2 x.2.2 || y == x
        { s with ses := { s.ses with acked := ak, renewSent := rs } }
      | none => s
    if m.flagRebuild then
      (s.ses.entries.filter fun e => e.isOwner && e.state != .closed && s.homeOf e.sid == some m.sender).foldl
        (fun s e => s.sendHome e.sid .claim { flagRebuild := true, epoch := e.epoch, node := s.node }) s
    else s

/-- TRX_ACK (R109, R413, R422). -/
def State.trxAck (s : State) (m : OwnMsg) : State :=
  s.ownIn m fun s =>
    let s := { s with ses := { s.ses with trxAcks := Table.set s.ses.trxAcks 0 m.sid m.ft } }
    match s.owner? m.sid with
    | some _ => ((s.updEntry m.sid fun e => { e with confirmed := m.position }).touchOwn m.sid).ckTrxAck m.sid m.position
    | none => s

/-- TRX_DATA (R110, R413): token IDs of a transcript; a message with fewer than 64 ends it (log entry 17). -/
def State.trxData (s : State) (m : OwnMsg) : State :=
  s.ownIn m fun s =>
    if s.isHome m.sid then s.takeCopy m else
    let s := s.touchOwn m.sid
    match s.ses.revivals.find? fun r => r.sid == m.sid with
    | some r =>
      if (s.owner? m.sid).any fun e => e.state == .dropped then
        let toks := r.tokens.take m.position ++ m.tokens
        let rs := updFirst (fun x => x.sid == m.sid) (fun (x : Revival) => { x with tokens := toks }) s.ses.revivals
        let s := { s with ses := { s.ses with revivals := rs } }
        if m.tokens.length < 64 then s.reviveWith m.sid toks else s
      else s.ckTrxData m
    | none => s.ckTrxData m

/-! ## Timers -/

/-- HOME_XFER_RESEND (R94). -/
def State.homeXferResend (s : State) (bucket : Nat) : State :=
  let due := fun (x : Xfer) => x.bucket == bucket && x.refused && ftReached s.now (ftAdd x.lastSent 48)
  let xs := s.ses.xferOut.filter due
  xs.foldl (fun s x => s.sendXfer x) { s with ses := { s.ses with xferOut := s.ses.xferOut.filter fun x => !due x } }

/-- HOME_XFER_TIMEOUT (R94). -/
def State.homeXferTimeout (s : State) (bucket : Nat) : State :=
  match s.ses.takeUp.find? fun x => x.1 == bucket with
  | some x =>
    if ftReached s.now (ftAdd x.2.2 s.leaseFt) then
      let up := s.ses.takeUp.filter fun y => y.1 != bucket
      let late := (bucket, ftAdd s.now s.leaseFt) :: s.ses.lateTake
      { s with ses := { s.ses with takeUp := up, lateTake := late } }
    else s
  | none => s

/-- NOTE_RESEND (R99). -/
def State.noteResend (s : State) (sid : W64) : State :=
  match s.ses.notes.find? fun n => n.sid == sid && ftReached s.now (ftAdd n.lastSent 48) with
  | some n =>
    let ns := updFirst (fun x => x == n) (fun x => { x with lastSent := s.now }) s.ses.notes
    ({ s with ses := { s.ses with notes := ns } }).sendHome sid (if n.close then .closeNote else .dropNote)
      { epoch := n.epoch }
  | none => s

/-- OWNERSHIP_QUERY_TIMER (R105). -/
def State.ownershipQuery (s : State) (sid : W64) : State :=
  match s.owner? sid with
  | none => s
  | some e =>
    let quiet := ftLater s.now (ftAdd (Table.get s.ses.lastOwnMsg 0 sid) 480)
    let asks := e.own == .inDoubt || ((e.own == .offered || e.own == .awaiting) && (quiet ||
      s.ses.queries.any fun q => q.1 == sid))
    let due := match s.ses.queries.find? fun q => q.1 == sid with
      | some q => ftReached s.now (ftAdd q.2 48)
      | none => true
    if asks && due then
      let s := { s with ses := { s.ses with queries := (sid, s.now) :: s.ses.queries.filter fun q => q.1 != sid } }
      s.sendHome sid .query {}
    else s

/-- Sessions that this node owns under a home. -/
def State.ownedUnder (s : State) (home : Nat) : List Entry :=
  s.ses.entries.filter fun e => e.isOwner && e.state != .closed && s.homeOf e.sid == some home

/-- RENEW_SEND (R107). -/
def State.renewSend (s : State) (home : Nat) : State :=
  if (s.ownedUnder home).isEmpty then s else
    let last := (s.ses.renewSent.filter fun x => x.1 == home).getLast?
    if last.all fun x => ftReached s.now (ftAdd x.2.2 s.renewFt) then
      let seq := s.ses.msgSeq
      let s := s.sendOwn home none .renew {}
      { s with ses := { s.ses with renewSent := s.ses.renewSent ++ [(home, seq, s.now)] } }
    else s

/-- LEASE_GUARD_EXPIRY (R108). -/
def State.leaseGuard (s : State) (home : Nat) : State :=
  match s.ses.acked.find? fun x => x.1 == home with
  | none => s
  | some x =>
    if ftReached s.now (ftAdd x.2 (s.leaseFt - s.guardFt)) then
      ((s.ownedUnder home).filter fun e => e.own == .confirmed).foldl (fun s e => s.putInDoubt e) s
    else s

/-- LEASE_EXPIRY (R108): every HELD record of the owner turns DROPPED. Of a session that this node owns itself the one entry turns
DROPPED (R97); it is in doubt, and the ANSWER to its QUERY frees what it holds (R105). -/
def State.leaseExpiry (s : State) (owner : Nat) : State :=
  match s.ses.renewSeen.find? fun x => x.1 == owner with
  | none => s
  | some x =>
    if ftReached s.now (ftAdd x.2 s.leaseFt) then
      let hit := fun (e : Entry) => e.isHome && homeState e == .held && e.recNode == owner
      let es := s.ses.entries.filter hit
      let s := (es.filter fun e => e.isOwner && e.own == .confirmed && owner == s.node).foldl (fun s e => s.putInDoubt e) s
      es.foldl (fun s e =>
        let s := if e.isOwner then s.setStatus F.SES_STATUS_DROPPED e.bed else s
        (s.updEntry e.sid fun e => { e with state := .dropped }).settleTrx e.sid) s
    else s

/-- A revival waits for the home's transcript copy, of which no part has come for 480 ft. -/
def State.fetchStale (s : State) (e : Entry) : Bool :=
  e.state == .dropped && e.own == .confirmed && !s.isHome e.sid && (s.ses.revivals.any fun r => r.sid == e.sid) &&
  (s.ses.waits.all fun w => w.sid != e.sid || w.why != SesWhy.revive) &&
  ftReached s.now (ftAdd (Table.get s.ses.lastOwnMsg 0 e.sid) 480)

/-- HOME_UNREACHABLE_TIMEOUT (R117, R514): an operation that needs the home has no answer within 480 ft, a TRX_FETCH among them. -/
def State.homeUnreachable (s : State) (sid : W64) : State :=
  let opened := (s.owner? sid).isSome
  let due := fun (w : SesWait) => w.sid == sid && ftReached s.now (ftAdd w.since 480) &&
    (w.why == SesWhy.query || w.why == SesWhy.revive || (w.why == SesWhy.open && !opened))
  match s.ses.waits.find? due with
  | none =>
    match (s.owner? sid).filter s.fetchStale with
    | some e => s.revivalEnds e SesSt.homeUnreachable
    | none => (s.stagedTimeout sid).getD s
  | some w =>
    if w.why == SesWhy.query then
      let x := s.takeWaits sid fun x => x == .query
      x.1.foldl (fun s w => s.complete? w.d SesSt.homeUnreachable (copiedBit (w.path == 1))) x.2
    else if w.why == SesWhy.revive then s.reviveFails sid SesSt.homeUnreachable
    else s.openFails sid SesSt.homeUnreachable

/-- REBUILD_WINDOW_END (R112): unclaimed records are lost, and the transcript copies that no record claims. -/
def State.rebuildEnd (s : State) : State :=
  match s.ses.rebuildUntil with
  | none => s
  | some t =>
    if ftReached s.now t then
      let lost := s.ses.transcripts.filter fun x => !(s.ses.entries.any fun e => e.sid == x.sid && e.isHome)
      lost.foldl (fun s x => s.discardTranscript x.sid) { s with ses := { s.ses with rebuildUntil := none } }
    else s

/-- A time-to-live of an owner entry has ended (R98): a session whose OWN is not CONFIRMED waits until it is (log entry
20). -/
def State.ttlDue (s : State) (sid : W64) (st : SesState) (tier : Option Tier) : Option Entry :=
  (s.owner? sid).filter fun e => e.state == st && e.own == .confirmed && e.expiry != 0 &&
    (tier.all fun t => e.tier == t) && ftReached s.now (ftExtend40 e.expiry)

/-- No tier takes a session whose time-to-live ended: DROPPED (R98, R294). -/
def State.parkFallback (s : State) (e : Entry) : State :=
  (s.setStatus F.TIER_STATUS_PARK_FALLBACK e.bed).dropSession e.sid

/-- TTL_PAUSED_EXPIRY (R98, R238, R294). -/
def State.ttlPaused (s : State) (sid : W64) : State :=
  match s.ttlDue sid .paused none with
  | none => s
  | some e =>
    let s := s.setStatus F.SES_STATUS_TTL_EXPIRED e.bed
    let s1 := s.flushIntake sid
    match (s.parkTiers sid).findSome? fun t =>
        if s.tierTtl e.bed t = 0 then none else match s1.startDown e t none with | .ok x => some x | .error _ => none with
    | some s => s.updEntry sid fun e => { e with expiry := 0 }
    | none => s.parkFallback e

/-- TTL_CXL_EXPIRY (R98, R294): the tiers after the CXL tier in the park order. -/
def State.ttlCxl (s : State) (sid : W64) : State :=
  match s.ttlDue sid .parked (some .cxl) with
  | none => s
  | some e =>
    let s := s.setStatus F.SES_STATUS_TTL_EXPIRED e.bed
    if (s.parkTiers sid).contains 2 && s.tierTtl e.bed 2 != 0 then
      match (s.setOf e.kvHandle).map fun t => s.startSink t 2 with
      | some (.ok s) => s.updEntry sid fun e => { e with expiry := 0 }
      | _ => s.parkFallback e
    else s.parkFallback e

/-- TTL_MULCH_EXPIRY (R98). -/
def State.ttlMulch (s : State) (sid : W64) : State :=
  match s.ttlDue sid .parked (some .mulch) with
  | none => s
  | some e => (s.setStatus F.SES_STATUS_TTL_EXPIRED e.bed).dropSession sid

/-- TTL_DROPPED_EXPIRY (R98). -/
def State.ttlDropped (s : State) (sid : W64) : State :=
  match s.ttlDue sid .dropped none with
  | none => s
  | some e => (s.setStatus F.SES_STATUS_TTL_EXPIRED e.bed).closeNow sid none

/-- TOMBSTONE_EXPIRY (R98): the CLOSED record is freed, and its transcript copy with it. -/
def State.tombstone (s : State) (sid : W64) : State :=
  match s.entry? sid with
  | some e =>
    if e.isHome && !e.isOwner && e.state == .closed && ftReached s.now (ftExtend40 e.expiry) then
      let s := s.freeEntry sid
      s.discardTranscript sid
    else s
  | none => s

end Sys2Proof.Machine
end

