-- ==== Sys2Proof/Machine/Resets.lean ====
section
/-! DEFINITION. The reset levels below the device (R15): function-level, region and partition, with what a Bed loses (R78,
R112, R444, R505). -/

namespace Sys2Proof.Machine

/-! ## Registers (R15) -/

/-- The registers with the reset value of every field that `hit` names. -/
def State.resetRegs (s : State) (hit : Reg → Level → Bool) : State :=
  let gone := fun (x : PairKey × W32) => x.1.reg.name.fields.any fun i => hit x.1.reg i.level
  let bus := { s.bus with
    latches := s.bus.latches.filter fun x => !gone x, held := s.bus.held.filter fun x => !gone x }
  { s with bus := bus, regs := s.regs.filterMap fun p =>
      let m := p.1.name.maskOf fun i => hit p.1 i.level
      let v := (p.2 &&& ~~~m) ||| (p.1.reset &&& m)
      if v = p.1.reset then none else some (p.1, v) }

/-- A register of a function. -/
def fnReg (fn : Nat) (r : Reg) : Bool :=
  match r.name.place.blk with
  | .mailbox | .ring | .iface => r.inst == fn
  | .secBed => fn != 0 && r.inst == fn - 1
  | _ => false

/-- A function-level field of a function; the trace registers of a virtual function are restored with it (R490). -/
def hitFn (fn : Nat) (r : Reg) (l : Level) : Bool :=
  (l == .functionLevel && fnReg fn r) || (fn != 0 && r.name.place.blk == .trace && r.inst == fn)

/-- A field that a region reset restores. -/
def hitRegion (k : Nat) (r : Reg) (l : Level) : Bool := l == .region && r.name.place.blk == .rgn && r.inst == k

/-- A partition-level field of a Bed; its counter set is restored with it (R490). -/
def hitBed (bed : Nat) (r : Reg) (l : Level) : Bool :=
  (l == .partition && r.inst == bed) || (r.name.place.blk == .ctr && r.inst == 32 + bed)

/-- A field that a device reset restores: every field but the sticky ones; FLT_COUNT_C4 is sticky (R502, R472). -/
def hitDevice (r : Reg) (l : Level) : Bool := l != .powerOn && !(r.name == .FLT_COUNT_C && r.idx == 4)

/-! ## Function level (R78) -/

/-- The trace of a virtual function ends; the records pending for its ring are lost (R490). -/
def State.endTrace (s : State) (fn : Nat) : State :=
  if fn = 0 then s else
    let cut := fun (l : List TraceRec) =>
      (l.map fun x => { x with rings := x.rings.filter fun f => f != fn }).filter fun x => !x.rings.isEmpty
    { s with obs := { s.obs with
        staging := s.obs.staging.map cut, lost := s.obs.lost.filter fun x => x.fn != fn
        used := s.obs.used.filter fun x => x.1 != fn } }

/-- FUNCTION_LEVEL_RESET: the interface closes, rings, mailboxes and the configuration space go back to reset, ring SRAM is
cleared, and commands running write no completion any more. Latches of pairs that it does not restore stay (R12). -/
def State.functionReset (s : State) (fn : Nat) : State :=
  let s := s.resetRegs (hitFn fn)
  let host := { s.host with
    quiet := fn :: s.host.quiet.filter fun f => f != fn
    rings := s.host.rings.filter fun q => q.fn != fn
    inflight := s.host.inflight.filter fun i => dFn i.desc != fn
    closing := s.host.closing.filter fun d => dFn d != fn }
  let bus := { s.bus with config := s.bus.config.filter fun c => c.fn != fn }
  let mem := { s.mem with sram := Mem.clear s.mem.sram (sramAddr fn 0) 65536 }
  State.endTrace { s with host := host, bus := bus, mem := mem } fn

/-! ## Regions (R444, R467, R505) -/

/-- The first byte of a region's near memory outside its device-reserved plots, and how many bytes follow (R195, R510). -/
def regionPlots (r : Nat) : Nat × Nat := (plotPa r 36 0, 45740 * plotBytes)

/-- Every granule of a region outside device-reserved memory becomes fresh (R443). -/
def State.freshRegion (s : State) (r : Nat) : State := s.nearFresh (regionPlots r).1 (regionPlots r).2

/-- A region reset (R505): a stopped region restarts first, its registers go back to reset, its walker's caches are emptied (R224)
and its replica loads the time words anew. A region that was resynchronising still is: RESYNC_PENDING clears with the time words
only (R51, log entry 102). -/
def State.regionReset (s : State) (r : Nat) : State :=
  let pend := s.fget F.RGN_CLK_STATUS_RESYNC_PENDING r
  let s := (s.resetRegs (hitRegion r)).updWalker r fun _ => {}
  let s := s.updReplica r fun x => { x with synced := false, track := if pend = 1 then 0 else 3, failed := false }
  s.fset F.RGN_CLK_STATUS_RESYNC_PENDING pend r

/-! ## Partitions (R15, R112, R444) -/

/-- The sessions of a Bed that live in near memory are freed, with a DROP_NOTE for each (R112). -/
def State.resetSessions (s : State) (bed : Nat) : State :=
  let mine := s.ses.entries.filter fun e => e.isOwner && e.bed == bed
  let sids := mine.map fun e => e.sid
  let ends := s.ses.waits.filter fun w => sids.contains w.sid
  let s := { s with
    toSend := s.toSend.filter fun m => m.bed != some bed
    ses := { s.ses with
      waits := s.ses.waits.filter fun w => !sids.contains w.sid
      armed := s.ses.armed.filter fun x => x.1 != bed } }
  let s := ends.foldl (fun s w => s.complete? w.d St.notFound) s
  mine.foldl (fun s e =>
    let s := (s.cancelMoves e.sid).forget e.sid
    if e.tier == Tier.near then (s.sendNote e.sid false).freeOwner e.sid .held s.node e.epoch else s) s

/-- What a Bed holds of work, tables and streams is gone (R15). Sets of parked sessions stay; stowed Graft versions are
released. -/
def State.resetHoldings (s : State) (bed : Nat) : State :=
  let gs := (s.grafts.filter fun g => g.bed == bed).filterMap fun g => g.set
  let ms := (s.tiers.moves.filter fun m => m.bed == bed).filterMap fun m => m.dst
  let tiers := { s.tiers with moves := s.tiers.moves.filter fun m => m.bed != bed }
  let s := { s with grafts := s.grafts.filter fun g => g.bed != bed, tiers := tiers }
  let s := (gs ++ ms).foldl (fun s ix => s.releaseSet ix) s
  let s := (s.dropIndexes bed).dropExports bed
  let s := (s.ckReset bed).dropKeys (some bed)
  let sch : Sched :=
    { turns := s.sch.turns, profiles := s.sch.profiles.filter fun p => p.bed != bed, slots := s.sch.slots.filter fun t => t.bed != bed
      idle := s.sch.idle.filter fun t => t.bed != bed, work := s.sch.work.filter fun w => w.bed != bed }
  let kv : Kv :=
    { walkers := s.kv.walkers, seqs := s.kv.seqs.filter fun q => q.bed != bed, nodes := s.kv.nodes.filter fun n => n.bed != bed
      snaps := s.kv.snaps.filter fun x => x.seq.bed != bed, pfxOn := s.kv.pfxOn.filter fun p => p.1 != bed }
  let intake : Intake :=
    { turns := s.intake.turns, caches := s.intake.caches, tables := s.intake.tables.filter fun t => t.bed != bed, streams := s.intake.streams.filter fun t => t.bed != bed
      submits := s.intake.submits.filter fun x => dBed x.d != some bed }
  let smp := { s.smp with
    ctxs := s.smp.ctxs.filter fun c => c.bed != bed, furrows := s.smp.furrows.filter fun f => f.bed != bed }
  let plw := { s.plw with
    tx := s.plw.tx.filter fun x => x.bed != bed
    rx := s.plw.rx.filter fun x => s.ses.entries.any fun e => e.sid == x.sid }
  { s with sch := sch, kv := kv, intake := intake, smp := smp, plw := plw }

/-- The fenced units of a region run their built-in tests after its reset (R467). -/
def State.testUnits (s : State) (r : Nat) : State :=
  let us := s.flt.units.filter fun u => u / 64 == r && !(s.flt.unitTests.any fun t => t.1 == u)
  { s with flt := { s.flt with unitTests := s.flt.unitTests ++ us.map fun u => (u, none) } }

/-- The near memory of a Bed: its plots and granules are given up, and its regions read as fresh (R443, R444); a load that waits for
the keep store installs nothing. -/
def State.resetMemory (s : State) (bed : Nat) : State :=
  let mem := { s.mem with
    plots := s.mem.plots.filter fun p => p.bed != bed, granules := s.mem.granules.filter fun g => g.bed != bed }
  let keep := { s.keep with queue := s.keep.queue.map fun i =>
    match i.eff with
    | .load d _ _ _ => if dBed d == some bed then { i with eff := .note } else i
    | _ => i }
  (s.regionsOf bed).foldl (fun s r => ((s.freshRegion r).regionReset r).testUnits r) { s with mem := mem, keep := keep }

/-- The near-key generation of a Bed (R430). -/
def State.gen (s : State) (bed : Nat) : Nat := Table.get s.sec.gens 0 bed

/-- Show GEN and CONFIGURED (R456). -/
def State.showGen (s : State) (bed : Nat) : State :=
  let s := s.fset F.SEC_BED_STATE_GEN (s.gen bed % 256) bed
  s.fset F.SEC_BED_STATE_CONFIGURED (if s.bedConfigured bed then 1 else 0) bed

/-- The TDI state of a Bed's function (R447, R456). -/
def State.tdi (s : State) (bed : Nat) : Nat := s.fget F.SEC_BED_STATE_TDI bed

/-- A TDI changes state; the change is journalled (R447, R453). -/
def State.setTdi (s : State) (bed new : Nat) : State :=
  let old := s.tdi bed
  if old = new then s else
    let dig := digestHead (bedDigest s.sec.bundle bed)
    (s.fset F.SEC_BED_STATE_TDI new bed).journal (s.jDev 0x0005 bed (5 + old * 2 ^ 8 + new * 2 ^ 16) bed dig dig)

/-- A TDI enters ERROR: its function acts as under a function-level reset (R447). -/
def State.tdiError (s : State) (bed : Nat) : State :=
  let old := s.tdi bed
  let s := (s.functionReset (fnOf bed)).fset F.SEC_BED_STATE_TDI old bed
  let s := (s.setTdi bed 3).setStatus F.SEC_STATUS_TDI_ERROR 0
  s.setStatus F.SEC_BED_STATUS_TDI_ERROR bed

/-- A TDI in CONFIG_LOCKED or RUN meets a change to its Bed (R447). -/
def State.tdiChanged (s : State) (bed : Nat) : State :=
  if s.tdi bed = 1 || s.tdi bed = 2 then s.tdiError bed else s

/-- A C3 fault whose cause remains stops the Bed again at once (R467). -/
def State.stillFatal (s : State) (bed : Nat) : State :=
  let rs := s.regionsOf bed
  if rs.isEmpty then s
  else if rs.all fun r => s.flt.regions.contains r then s.raiseBed 0x30 bed
  else if rs.head?.any fun r => s.flt.regions.contains r then s.raiseBed 0x31 bed
  else s

/-- What a partition reset does to a Bed (R15, R112, R444): its function, sessions in near memory, tables and work are reset, its
regions are made fresh, and the near-key generation grows. A TDI in CONFIG_LOCKED or RUN goes to ERROR (R447); one in ERROR goes
to CONFIG_UNLOCKED, the reset value of its field (R456). -/
def State.resetPartition (s : State) (bed : Nat) : State :=
  let tdi := s.tdi bed
  let s := s.functionReset (fnOf bed)
  let s := ((s.resetSessions bed).resetHoldings bed).resetMemory bed
  let s := s.resetRegs (hitBed bed)
  let flt := { s.flt with
    fatalBeds := s.flt.fatalBeds.filter fun b => b != bed, armedBeds := s.flt.armedBeds.filter fun b => b != bed }
  let sec := { s.sec with
    gens := Table.set s.sec.gens 0 bed (s.gen bed + 1)
    chains := s.sec.chains.filter fun c => c.bed != bed }
  let s := State.showGen { s with flt := flt, sec := sec } bed
  let s := s.setStatus F.SEC_BED_STATUS_RESET_DONE bed
  if tdi = 1 || tdi = 2 then (s.fset F.SEC_BED_STATE_TDI tdi bed).tdiError bed
  else s

/-- A partition reset. -/
def State.partitionReset (s : State) (bed : Nat) : State := (s.resetPartition bed).stillFatal bed

end Sys2Proof.Machine
end

