-- ==== Sys2Proof/Machine/Security.lean ====
section
/-! DEFINITION. The root of trust: owner and configuration bundles, partition reset on command, zeroisation, the TDIs and the IDE
streams, SPDM, measurements and the security commands of the out-of-band endpoint (R426 to R456). -/

namespace Sys2Proof.Machine

/-! ## Status values and journal records (R453, R454) -/

/-- Command-specific status values of the security commands. -/
def secWrongLifecycle : Nat := 0x80
def secBusy : Nat := 0x81

/-- The journal entry of a command, or of the device where there is none. -/
def State.jOf (s : State) (d : Option Desc) (kind bed detail object : Nat) (old new : W128) (refused : Bool := false) : JEntry :=
  match d with
  | some d => s.jCmd d kind bed detail object old new refused
  | none => { s.jDev kind bed detail object old new with refused := refused }

/-- The journal entry of a key (R453): 0 created, 1 replaced, 2 destroyed. -/
def State.secKeyEntry (s : State) (d : Option Desc) (detail cls bed oldId newId : Nat) : JEntry :=
  let dig := fun (n : Nat) => digest128 (keyRecord cls bed n)
  s.jOf d 0x0002 bed detail (bytesAt (keyRecord cls bed newId) 0 8) (if detail = 0 then 0 else dig oldId)
    (if detail = 2 then 0 else dig newId)

/-! ## What SEC registers show (R455, R456) -/

/-- The sequencer's state (R432). -/
def State.seq (s : State) : Nat := s.fget F.SEC_STATE_SEQ 0

/-- A transition is in progress (R432, R437), or the pending bundle of a boot is being applied. -/
def State.inTransition (s : State) : Bool := s.seq == 5 || s.seq == 3

/-- The configured Beds as a mask, shown in SEC_STATE. -/
def State.showBeds (s : State) : State :=
  s.fset F.SEC_STATE_BEDS (((List.range 16).map fun b => if s.bedConfigured b then 2 ^ b else 0).sum) 0

/-- A Bed's record takes effect in the registers (R455, R456); no record clears them. -/
def State.showRecord (s : State) (bed : Nat) (r : Option (List Byte)) : State :=
  let regions := match r with | some r => bytesAt r 2 2 | none => 0
  let granule := match r with | some r => bytesAt r 4 1 | none => 0
  let dig := match r with | some r => sha256 (r.take 16) | none => List.replicate 32 0
  let s := (s.fset F.SEC_BED_REGIONS_TABLE_REGIONS regions 0 bed).fset F.SEC_BED_REGIONS_TABLE_GRANULE granule 0 bed
  let s := (s.fset F.SEC_BED_REGIONS_REGIONS regions bed).fset F.SEC_BED_REGIONS_GRANULE granule bed
  let s := (List.range 8).foldl (fun s k => s.wrN .SEC_BED_DIGEST (bytesAt dig (4 * k) 4) bed k) s
  (s.showGen bed).showBeds

/-- Show the current bundle's version and digest (R455). -/
def State.showBundle (s : State) : State :=
  let b := s.sec.bundle
  let dig := if b.isEmpty then List.replicate 32 0 else sha256 b
  let s := s.wrN .SEC_BUNDLE_VERSION (bytesAt b 8 4) 0
  (List.range 8).foldl (fun s k => s.wrN .SEC_BUNDLE_DIGEST (bytesAt dig (4 * k) 4) 0 k) s

/-- Show the lifecycle (R455): OWNED while an owner key is held. -/
def State.showOwner (s : State) : State := s.fset F.SEC_STATE_LIFECYCLE (if s.sec.owner.isSome then 1 else 0) 0

/-! ## Bundles (R434 to R436) -/

/-- Every byte of a part of a byte list is zero. -/
def zeroAt (bs : List Byte) (lo n : Nat) : Bool := ((bs.drop lo).take n).all fun b => b == 0

/-- Fields of a bundle (R434). -/
def bndKind (b : List Byte) : Nat := bytesAt b 5 1
def bndBeds (b : List Byte) : Nat := bytesAt b 6 1
def bndVersion (b : List Byte) : Nat := bytesAt b 8 4
def bndPolicy (b : List Byte) : Nat := bytesAt b 452 4
def bndKeyField (b : List Byte) : List Byte := (b.drop 64).take 384

/-- The Bed records of a bundle, in order. -/
def bndRecords (b : List Byte) : List (List Byte) := (List.range (bndBeds b)).map fun i => (b.drop (512 + 512 * i)).take 512

/-- The Bed KWK of a record, unwrapped with the transport key (R430, R435). -/
def recKwk (r : List Byte) : Option (List Byte) := Config.oaepUnwrap ((r.drop 16).take 384)

/-- A Bed record has the layout of R435. -/
def recordOk (r : List Byte) : Bool :=
  bytesAt r 0 1 < 16 && bytesAt r 1 1 == 1 && bytesAt r 2 2 != 0 && bytesAt r 4 1 ≤ 2 && zeroAt r 5 3 && zeroAt r 400 112 &&
  (recKwk r).isSome

/-- Bed records stand in ascending BED with disjoint regions. -/
def recordsOk : List (List Byte) → Bool
  | a :: b :: r => bytesAt a 0 1 < bytesAt b 0 1 && ((b :: r).all fun x => bytesAt a 2 2 &&& bytesAt x 2 2 == 0) && recordsOk (b :: r)
  | _ => true

/-- KEY_FIELD and EXPONENT fit KIND (R434). -/
def keyFieldOk (b : List Byte) : Bool :=
  let e := bytesAt b 448 4
  match bndKind b with
  | 0 => e == 0 && (Config.oaepUnwrap (bndKeyField b)).isSome
  | 1 => e % 2 == 1 && 65537 ≤ e
  | _ => e == 0 && zeroAt b 64 384

/-- MAGIC of a bundle. -/
def bundleMagic : Nat := 0x4C444E42

/-- Check 1 of R436. -/
def bundleOk (b : List Byte) : Bool :=
  b.length == 512 + 512 * bndBeds b + 384 && bytesAt b 12 4 == b.length && bytesAt b 0 4 == bundleMagic && bytesAt b 4 1 == 1 &&
  bndKind b ≤ 2 && bndBeds b ≤ 16 && (bndKind b == 0 || bndBeds b == 0) && zeroAt b 7 1 && bndVersion b != 0 &&
  bytesAt b 16 8 == Config.serial.toNat && zeroAt b 24 40 && zeroAt b 456 56 && bndPolicy b < 4 && keyFieldOk b &&
  (bndRecords b).all recordOk && recordsOk (bndRecords b)

/-- Check 2 of R436: the signature of the current owner over the bytes before it. -/
def bundleSigned (owner : Option (List Byte)) (b : List Byte) : Bool :=
  match owner with
  | some k => Config.pssVerify k (b.take (b.length - 384)) (b.drop (b.length - 384))
  | none => false

/-- The outcome of the checks of R436 against the current bundle: a refusal, no change, or acceptance. -/
inductive BundleCheck where
  | refuse (status : Nat) | same | accept
  deriving DecidableEq, Repr

/-- The checks of R436, in order. -/
def State.checkBundle (s : State) (b : List Byte) : BundleCheck :=
  if !bundleOk b then .refuse St.tableVersion
  else if !bundleSigned s.sec.owner b then .refuse St.signature
  else if s.sec.bundle.isEmpty || bndVersion s.sec.bundle < bndVersion b then .accept
  else if bndVersion b < bndVersion s.sec.bundle then .refuse St.versionRefused
  else if b = s.sec.bundle then .same else .refuse St.conflict

/-- The journal entry of a bundle (R453). -/
def State.bundleEntry (s : State) (d : Desc) (b : List Byte) (refused : Bool) : JEntry :=
  let old : W128 := if s.sec.bundle.isEmpty then 0 else digest128 s.sec.bundle
  s.jCmd d 0x0001 0xFF 0 (bndVersion b + bndKind b * 2 ^ 32) old (digest128 b) refused

/-- Keep-store records of this chapter (R324). The spec numbers the certificate chain alone, 0x0011; the others are a DESIGN
CHOICE (log entry 45). -/
def ktBundle : Nat := 0x0010
def ktPending : Nat := 0x0012
def ktOwner : Nat := 0x0013

/-- A record of this chapter. -/
def secRecord (typ : Nat) (bs : List Byte) : KeepWrite := { typ := typ, key := 0, payload := bs }

/-- Two records of a Bed say the same (R437): the wrapping of an equal KWK does not count. -/
def sameRecord (a b : Option (List Byte)) : Bool :=
  match a, b with
  | some a, some b => a.take 16 == b.take 16 && recKwk a == recKwk b
  | none, none => true
  | _, _ => false

/-- The Beds that a bundle changes. -/
def changedBeds (old new : List Byte) : List Nat :=
  (List.range 16).filter fun b => !sameRecord (bedRecord old b) (bedRecord new b)

/-- The digest of the security state (R449). -/
def State.stateDigest (s : State) : List Byte :=
  Config.measureState (if s.sec.owner.isSome then 1 else 0) s.sec.policy (s.sec.owner.getD [])

/-- The owner key that a bundle leaves (R437). -/
def ownerAfter (owner : Option (List Byte)) (b : List Byte) : Option (List Byte) :=
  match bndKind b with
  | 0 => owner
  | 1 => some (bndKeyField b ++ leBytes 4 (bytesAt b 448 4))
  | _ => none

/-- A part of the state is in transition from now on; what was in effect before is kept (R450). -/
def State.noteTrans (s : State) (t : SecTrans) : State :=
  { s with sec := { s.sec with trans := some { t with wasBundle := s.sec.bundle, wasState := s.stateDigest } } }

/-- A transition begins (R437, R450). -/
def State.beginTrans (s : State) (t : SecTrans) : State := (s.noteTrans t).fset F.SEC_STATE_SEQ 5 0

/-- OPERATIONAL after a reset: the rebuild window of R112 opens. -/
def State.operational (s : State) : State :=
  let until_ := s.ses.map.map fun m => ftAdd s.now m.lease
  State.fset { s with ses := { s.ses with rebuildUntil := until_ } } F.SEC_STATE_SEQ 4 0

/-- The transition that a bundle makes. -/
def State.bundleTrans (s : State) (b : List Byte) : SecTrans :=
  { beds := changedBeds s.sec.bundle b, device := true, bundle := sha256 b, next := b
    state := Config.measureState (if (ownerAfter s.sec.owner b).isSome then 1 else 0) (bndPolicy b)
      ((ownerAfter s.sec.owner b).getD []) }

/-- A transition is complete. -/
def State.endTrans (s : State) : State :=
  State.fset { s with sec := { s.sec with trans := none } } F.SEC_STATE_SEQ 4 0

/-- SEC_BUNDLE_LOAD (R436, R437): a refusal is journalled and sets BUNDLE_REFUSED; an accepted bundle is written as the pending
bundle first. -/
def State.secBundleLoad (s : State) (d : Desc) : State :=
  if s.inTransition then s.complete d secBusy else
    let b := s.buf0 d
    match s.checkBundle b with
    | .refuse st =>
      let s := s.setStatus F.SEC_STATUS_BUNDLE_REFUSED 0
      s.submitCmd d [s.bundleEntry d b true] [] (.complete d st 0)
    | .same => s.complete d St.ok (bndVersion b)
    | .accept =>
      if !s.keep.ready then s.complete d St.noResource else
        let j := s.bundleEntry d b false
        (s.beginTrans (s.bundleTrans b)).submitCmd d [j] [secRecord ktPending b] (.bundleLoad d b)

/-! ## Applying a bundle (R437) -/

/-- Every CXL set, Mulch set, Mulch shard and checkpoint record of a Bed is released (R437): sessions whose tensors go become
DROPPED. -/
def State.releaseStored (s : State) (bed : Nat) : State :=
  let parked := (s.ses.entries.filter fun e => e.isOwner && e.bed == bed && (e.tier == Tier.cxl || e.tier == Tier.mulch))
  let s := parked.foldl (fun s e => s.dropSession e.sid) s
  let sets := (s.tiers.sets.filter fun t => t.state != .free && t.bed == bed).map fun t => t.ix
  let s := sets.foldl (fun s ix => s.releaseSet ix) s
  let xs := s.ck.stored.filter fun x => x.bed == bed
  let s := xs.foldl (fun s x => s.dropStored x) s
  let ws := (xs.filter fun x => x.place == 0).map fun x =>
    if x.manifest then manifestRecord x.ckpt 0 0 [] else shardRecord bed 0 x.ckpt 0 0 []
  if ws.isEmpty then s else s.submit { writes := ws }

/-- A change made while a bundle is applied is journalled. -/
def State.jApply (s : State) (es : List JEntry) : State := if s.keep.ready then s.submit { journal := es } else s

/-- The key-wrapping key of a holder changes; an equal one changes nothing (R437). -/
def State.setKwk (s : State) (d : Option Desc) (cls holder : Nat) (k : Option (List Byte)) : State :=
  let old := Table.get (s.sec.kwk.map fun x => (x.1, some x.2)) none holder
  if old = k then s else
    let detail := if old.isNone then 0 else if k.isNone then 2 else 1
    let rest := s.sec.kwk.filter fun x => x.1 != holder
    let sec := { s.sec with kwk := match k with | some k => (holder, k) :: rest | none => rest }
    State.jApply { s with sec := sec } [s.secKeyEntry d detail cls holder 0 0]

/-- A park key is made, made anew or destroyed (R430). -/
def State.setPark (s : State) (d : Option Desc) (holder : Nat) (on : Bool) : State :=
  let had := s.sec.park.contains holder
  if !had && !on then s else
    let detail := if !had then 0 else if on then 1 else 2
    let rest := s.sec.park.filter fun x => x != holder
    let sec := { s.sec with park := if on then holder :: rest else rest }
    State.jApply { s with sec := sec } [s.secKeyEntry d detail (if holder = 0xFF then 6 else 4) holder 0 0]

/-- The journal entry of a change to a Bed (R453). -/
def State.bedEntry (s : State) (d : Option Desc) (bed detail : Nat) (old new : Option (List Byte)) : JEntry :=
  let dig := fun (r : Option (List Byte)) => match r with | some r => digest128 (r.take 16) | none => 0
  s.jOf d 0x0005 bed detail bed (dig old) (dig new)

/-- A Bed is removed (R437). -/
def State.removeBed (s : State) (d : Option Desc) (bed : Nat) (old : List Byte) : State :=
  let e := s.resetEntry d bed
  let s := (((s.resetPartition bed).jApply [e]).releaseStored bed).setPark d bed false
  let s := s.jApply [s.secKeyEntry d 2 3 bed (s.gen bed) (s.gen bed)]
  let s := s.setKwk d 1 bed none
  let sec := { s.sec with
    near := s.sec.near.filter fun b => b != bed, gens := Table.erase s.sec.gens bed }
  (State.showRecord { s with sec := sec } bed none).jApply [s.bedEntry d bed 3 (some old) none]

/-- A Bed is created (R437): its near and park keys are made and its regions join, fresh (R444). -/
def State.createBed (s : State) (d : Option Desc) (bed : Nat) (new : List Byte) : State :=
  let sec := { s.sec with near := bed :: s.sec.near.filter fun b => b != bed, gens := Table.erase s.sec.gens bed }
  let s := State.showRecord { s with sec := sec } bed (some new)
  let s := (s.regionsOf bed).foldl (fun s r => s.freshRegion r) s
  let s := (s.setKwk d 1 bed (recKwk new)).setPark d bed true
  s.jApply [s.secKeyEntry d 0 3 bed 0 0, s.bedEntry d bed 0 none (some new)]

/-- A Bed's record changes (R437), and a locked TDI meets the change (R447). -/
def State.changeBed (s : State) (d : Option Desc) (bed : Nat) (old new : List Byte) : State :=
  let ro := bytesAt old 2 2
  let rn := bytesAt new 2 2
  let tenant := bytesAt old 8 8 != bytesAt new 8 8
  let shape := bytesAt old 4 1 != bytesAt new 4 1 || ro &&& rn != ro
  let added := (List.range 16).filter fun r => bitSet rn r && !bitSet ro r
  let s := if tenant || shape then
      let e := s.resetEntry d bed
      (s.resetPartition bed).jApply [e]
    else s.tdiChanged bed
  let s := if tenant then (s.releaseStored bed).setPark d bed true else s
  let s := added.foldl (fun s r => s.freshRegion r) (s.showRecord bed (some new))
  let s := s.setKwk d 1 bed (recKwk new)
  let s := if ro != rn || bytesAt old 4 1 != bytesAt new 4 1 then s.jApply [s.bedEntry d bed 1 (some old) (some new)] else s
  let s := if tenant then s.jApply [s.bedEntry d bed 2 (some old) (some new)] else s
  if tenant || shape then s.stillFatal bed else s

/-- The bundle version that last changed a Bed (R456). -/
def State.noteChange (s : State) (bed version : Nat) : State :=
  let l := Table.set s.sec.changed 0 bed version
  State.wrN { s with sec := { s.sec with changed := l } } .SEC_BED_BUNDLE version bed

/-- The change of one Bed between two bundles. -/
def State.applyBed (s : State) (d : Option Desc) (old new : List Byte) (bed : Nat) : State :=
  match bedRecord old bed, bedRecord new bed with
  | none, none => s
  | some o, none => (s.removeBed d bed o).noteChange bed (bndVersion new)
  | none, some n => (s.createBed d bed n).noteChange bed (bndVersion new)
  | some o, some n => if sameRecord (some o) (some n) then s else (s.changeBed d bed o n).noteChange bed (bndVersion new)

/-- The home transcripts are discarded (R437, R322): to their home records they are lost (R97, log entry 45). -/
def State.discardTranscripts (s : State) : State :=
  s.ses.transcripts.foldl (fun s t => s.transcriptLost t.sid) s

/-- Step 2 of R437. -/
def State.applyBundle (s : State) (d : Option Desc) (old new : List Byte) : State :=
  let s := (List.range 16).foldl (fun s b => s.applyBed d old new b) s
  let s := match bndKind new with
    | 0 => s.setKwk d 2 0xFF (Config.oaepUnwrap (bndKeyField new))
    | _ =>
      let s := ((s.setKwk d 2 0xFF none).setPark d 0xFF false).discardTranscripts
      let s := { s with sec := { s.sec with owner := ownerAfter s.sec.owner new } }
      if s.sec.owner.isSome then s.setPark d 0xFF true else s
  State.showOwner { s with sec := { s.sec with policy := bndPolicy new } }

/-- Step 3 of R437: the records that make a bundle the current one; at an owner transfer or release the key marks go (R372). -/
def State.currentWrites (s : State) (b : List Byte) : List KeepWrite :=
  [secRecord ktBundle b, secRecord ktPending [], secRecord ktOwner (s.sec.owner.getD [])] ++
  if bndKind b = 0 then [] else s.markErases

/-- A bundle whose pending record is durable is applied and written as the current bundle (R437). -/
def State.bundleStart (s : State) (d : Desc) (b : List Byte) : State :=
  let s := s.applyBundle (some d) s.sec.bundle b
  s.submit { writes := s.currentWrites b, eff := .bundleApply (some d) b }

/-- The bundle is current (R437): OPERATIONAL, and the command completes; at a boot the sequencer leaves CONFIGURE (R432). -/
def State.bundleDone (s : State) (d : Option Desc) (b : List Byte) : State :=
  let s := State.showBundle { s with sec := { s.sec with bundle := b, nextBundle := [] } }
  let s := if d.isNone then s.endTrans.operational else s.endTrans
  (s.setStatus F.SEC_STATUS_APPLIED 0).complete? d St.ok (bndVersion b)

/-! ## Owner, partition reset, nonce, zeroisation (R433, R444, R445) -/

/-- SEC_OWNER_ENROLL (R433). -/
def State.secOwnerEnroll (s : State) (d : Desc) : State :=
  if s.sec.owner.isSome then s.complete d secWrongLifecycle else
    let k := s.buf0N d 388
    s.submitCmd d [s.jCmd d 0x0001 0xFF 1 (bndVersion s.sec.bundle) 0 (digest128 k)] [secRecord ktOwner k] (.cmd d k 0)

/-- The owner is enrolled; the device park key is made (R430). -/
def State.secOwnerEnrollDone (s : State) (d : Desc) (k : List Byte) : State :=
  let s := State.showOwner { s with sec := { s.sec with owner := some k } }
  (s.setPark (some d) 0xFF true).complete d St.ok

/-- SEC_PARTITION_RESET (R444, R454). -/
def State.secPartitionReset (s : State) (d : Desc) : State :=
  let bed := dArg d 48 1
  if !s.bedConfigured bed then s.complete d St.bedAbsent
  else if s.inTransition then s.complete d secBusy
  else if !s.keep.ready then s.complete d St.noResource
  else
    let e := s.resetEntry (some d) bed
    (s.beginTrans { beds := [bed] }).submitCmd d [e] [] (.cmd d [] bed)

/-- The entry of a partition reset is durable. -/
def State.secPartitionResetDone (s : State) (d : Desc) (bed : Nat) : State :=
  let s := (s.partitionReset bed).endTrans
  s.complete d St.ok (s.gen bed % 2 ^ 32)

/-- A partition reset that the device started by itself runs once its entry is durable (R462). -/
def State.bedRestarted (s : State) (bed : Nat) : State :=
  let own := s.sec.trans.any fun t => t.beds == [bed] && !t.device && !t.zero
  let s := s.partitionReset bed
  if own then s.endTrans else s

/-- A fresh zeroisation nonce (R445): the latest alone is kept. -/
def State.newNonce (s : State) : List Byte × State :=
  let a := s.draw 45
  let b := a.2.draw 45
  let n := leBytes 8 a.1.toNat ++ leBytes 8 b.1.toNat
  (n, { b.2 with sec := { b.2.sec with nonce := some (n, s.now) } })

/-- SEC_NONCE. -/
def State.secNonce (s : State) (d : Desc) : State :=
  let r := s.newNonce
  (r.2.writeAddr d d.addr0 r.1).complete d St.ok

/-- ZEROIZE_NONCE (R452): the nonce that the out-of-band endpoint returns is shared with SEC_NONCE. -/
def State.oobNonce (s : State) : State :=
  let r := s.newNonce
  { r.2 with sec := { r.2.sec with answer := r.1 } }

/-- How long a nonce serves, in ft. -/
def nonceFt : Nat := 2880000

/-- ZEROIZE_NONCE_LAPSE. -/
def State.nonceLapse (s : State) : State :=
  if s.sec.nonce.any fun n => ftReached s.now (ftAdd n.2 nonceFt) then { s with sec := { s.sec with nonce := none } } else s

/-- A zeroisation token verifies (R445): the owner's signature over ID_SERIAL and the latest nonce, which has not lapsed. -/
def State.tokenOk (s : State) (token : List Byte) : Bool :=
  match s.sec.owner, s.sec.nonce with
  | some k, some n =>
    !ftReached s.now (ftAdd n.2 nonceFt) && Config.pssVerify k (leBytes 8 Config.serial.toNat ++ n.1) token
  | _, _ => false

/-- The journal entry of a zeroisation (R453); the out-of-band endpoint is an origin of its own (R85). -/
def State.zeroEntry (s : State) (d : Option Desc) : JEntry :=
  let old := digest128 (s.sec.owner.getD [])
  match d with
  | some d => s.jCmd d 0x0001 0xFF 2 (bndVersion s.sec.bundle) old 0
  | none => { s.jDev 0x0001 0xFF 2 (bndVersion s.sec.bundle) old 0 with originType := 4 }

/-- A zeroisation with a valid token begins; the nonce has served. -/
def State.beginZeroize (s : State) (d : Option Desc) : State :=
  let e := s.zeroEntry d
  let sec := { s.sec with nonce := none }
  let s := State.beginTrans { s with sec := sec } { beds := (List.range 16).filter fun b => s.bedConfigured b, device := true, zero := true }
  let ws := [secRecord ktOwner [], secRecord ktBundle [], secRecord ktPending []] ++ s.markErases
  s.submit { journal := [e], writes := ws, eff := .zeroize d }

/-- SEC_ZEROIZE (R445, R454). -/
def State.secZeroize (s : State) (d : Desc) : State :=
  if s.inTransition then s.complete d secBusy
  else if !s.tokenOk (s.buf0N d 384) then s.complete d St.signature
  else if !s.keep.ready then s.complete d St.noResource
  else s.beginZeroize (some d)

/-- ZEROIZE of the out-of-band endpoint (R452): refused unless POLICY.OOB_ZEROIZE is 1. -/
def State.oobZeroize (s : State) (token : List Byte) : State :=
  if s.sec.policy / 2 % 2 = 1 && !s.inTransition && s.keep.ready && s.tokenOk token then s.beginZeroize none
  else { s with sec := { s.sec with answer := [1] } }

/-- IDE keys and the SPDM session are destroyed (R430): at session end, link down or device reset. -/
def State.dropSpdm (s : State) : State :=
  let es := (if s.sec.spdm then [s.secKeyEntry none 2 9 0xFF 0 0] else []) ++
    s.sec.ide.map fun x => s.secKeyEntry none 2 8 0xFF x.ix x.ix
  let s := { s with sec := { s.sec with spdm := false, ide := [] } }
  if es.isEmpty then s else s.jApply es

/-- The zeroisation of R445: every Bed is removed, keys go, a new seal seed is made, the owner key is erased; the device near key is
made anew (log entry 45). It ends with its releases. -/
def State.zeroizeDone (s : State) (d : Option Desc) : State :=
  let first := s.flash.nextRelease
  let s := (List.range 16).foldl (fun s b =>
    match bedRecord s.sec.bundle b with | some o => s.removeBed d b o | none => s) s
  let s := ((s.setKwk d 2 0xFF none).setPark d 0xFF false).discardTranscripts
  let s := (s.dropKeys none).dropSpdm.jApply [s.secKeyEntry d 1 5 0xFF 0 0]
  let sec := { s.sec with
    owner := none, bundle := [], nextBundle := [], policy := 0, seed := s.sec.seed + 1
    zeroizing := some (d, (List.range (s.flash.nextRelease - first)).map fun i => first + i) }
  State.endZeroize (State.showBundle (State.showOwner { s with sec := sec }))

/-! ## Certificates and measurements (R448 to R450) -/

/-- SEC_CERT_READ. -/
def State.secCertRead (s : State) (d : Desc) : State :=
  let n := min (dLen0 d) Config.certChain.length
  (s.writeAddr d d.addr0 (Config.certChain.take n)).complete d St.ok Config.certChain.length

/-- The chain of a Bed's loads. -/
def State.chainOf (s : State) (bed : Nat) : LoadChain :=
  match s.sec.chains.find? fun c => c.bed == bed with
  | some c => c
  | none => { bed := bed, chain := List.replicate 32 0 }

/-- An applied entry of KIND 0x0004, 0x0006 or 0x0007 of a Bed lengthens its chain (R449). -/
def State.chainLoad (s : State) (e : JEntry) : State :=
  if (e.kind == 4 || e.kind == 6 || e.kind == 7) && e.bed < 16 && !e.refused then
    let c := s.chainOf e.bed
    let c' := { c with chain := sha256 (c.chain ++ leBytes 16 e.new.toNat), count := c.count + 1 }
    { s with sec := { s.sec with chains := c' :: s.sec.chains.filter fun x => x.bed != e.bed } }
  else s

/-- A measurement (R449): VERSION, CURRENT, PENDING, and whether it is in transition. -/
structure Measure where
  version : Nat
  current : List Byte
  pending : List Byte
  moving : Bool
  deriving DecidableEq, Repr

/-- A part of the state in transition (R450): by a transition that names it, by a zeroisation, or before OPERATIONAL. -/
def State.moving (s : State) (p : SecTrans → Bool) : Bool := s.seq < 4 || s.sec.trans.any fun t => t.zero || p t

/-- The bundle in effect for a measurement: until its change is complete, the one before (R450). -/
def State.bundleThen (s : State) : List Byte :=
  match s.sec.trans.filter fun t => t.device with | some t => t.wasBundle | none => s.sec.bundle

/-- The measurement of an index, if there is one. -/
def State.measure (s : State) (ix : Nat) : Option Measure :=
  let zero : List Byte := List.replicate 32 0
  if ix = 1 then some ⟨0, Config.measureId, Config.measureId, s.moving fun _ => false⟩
  else if ix = 2 then
    let cur := if s.bundleThen.isEmpty then zero else sha256 s.bundleThen
    let pend := match s.sec.trans with | some t => t.bundle | none => cur
    some ⟨bndVersion s.bundleThen, cur, pend, s.moving fun t => t.device⟩
  else if ix = 3 then
    let cur := match s.sec.trans.filter fun t => t.device with | some t => t.wasState | none => s.stateDigest
    let pend := match s.sec.trans with | some t => t.state | none => cur
    some ⟨0, cur, pend, s.moving fun t => t.device⟩
  else if 0x10 ≤ ix && ix < 0x20 then
    let b := ix - 0x10
    let cur := bedDigest s.bundleThen b
    let pend := match s.sec.trans.filter fun t => t.device with | some t => bedDigest t.next b | none => cur
    some ⟨s.gen b, cur, pend, s.moving fun t => t.beds.contains b⟩
  else if 0x20 ≤ ix && ix < 0x30 then
    let c := s.chainOf (ix - 0x20)
    some ⟨c.count, c.chain, zero, s.moving fun t => !t.device && t.beds.contains (ix - 0x20)⟩
  else none

/-- The 80 bytes of a transition record (R450). -/
def measureBytes (m : Measure) (ft : W64) : List Byte :=
  (if m.moving then 1 else 0) :: (leBytes 3 0 ++ leBytes 4 m.version ++ fitTo 32 m.current ++
    (if m.moving then fitTo 32 m.pending else List.replicate 32 0) ++ leBytes 8 ft.toNat)

/-- An index that a function may read (R454). -/
def mayMeasure (d : Desc) (ix : Nat) : Bool :=
  match dBed d with
  | none => true
  | some b => ix == 1 || ix == 2 || ix == 3 || ix == 0x10 + b || ix == 0x20 + b

/-- SEC_MEASURE (R449, R450, R454). -/
def State.secMeasure (s : State) (d : Desc) : State :=
  let ix := dArg d 48 1
  match if mayMeasure d ix then s.measure ix else none with
  | none => s.complete d St.notFound
  | some m =>
    (s.writeAddr d d.addr0 (measureBytes m s.now)).complete d St.ok (if m.moving then 1 else 0)

/-! ## Host link: IDE and TDISP (R446, R447) -/

/-- IDE_INTEGRITY_FAILURE: the stream goes insecure and every TDI bound to it to ERROR. -/
def State.ideFailure (s : State) (ix : Nat) : State :=
  match s.sec.ide.find? fun x => x.ix == ix with
  | none => s
  | some x =>
    let ide := updFirst (fun y => y.ix == ix) (fun y => { y with secure := false }) s.sec.ide
    x.bound.foldl (fun s fn => s.tdiError (fn - 1)) { s with sec := { s.sec with ide := ide } }

/-- The TDI of a function is bound to no stream, or to one. -/
def State.bindTdi (s : State) (fn : Nat) (stream : Option Nat) : State :=
  let ide := s.sec.ide.map fun x =>
    let rest := x.bound.filter fun f => f != fn
    { x with bound := if stream = some x.ix then fn :: rest else rest }
  { s with sec := { s.sec with ide := ide } }

/-- The interface report of a Bed's function (R447). -/
def State.tdiReport (s : State) (bed : Nat) : List Byte :=
  Config.tdiReport bed (s.bedRegions bed) (s.fget F.SEC_BED_REGIONS_GRANULE bed) (s.gen bed) (bndVersion s.sec.bundle)
    (bedDigest s.sec.bundle bed)

/-- TDISP_REQUEST (R447): a TDI is bound to a selective stream, 1 to 4. -/
def State.tdispRequest (s : State) (bed : Nat) (r : Tdisp) : State :=
  match r with
  | .lock stream =>
    if s.tdi bed = 0 && stream != 0 && s.sec.ide.any fun x => x.ix == stream && x.secure then
      (s.bindTdi (fnOf bed) (some stream)).setTdi bed 1
    else s
  | .start => if s.tdi bed = 1 then s.setTdi bed 2 else s
  | .stop => (s.bindTdi (fnOf bed) none).setTdi bed 0
  | .report =>
    if s.tdi bed = 1 || s.tdi bed = 2 then { s with sec := { s.sec with answer := s.tdiReport bed } } else s

/-! ## SPDM (R448, R451) -/

/-- An SPDM error answer: ERROR and its code. -/
def spdmError (code : Nat) : List Byte := [0x7F, BitVec.ofNat 8 code]

/-- Whether an SPDM request needs a signature. -/
def spdmSigned (r : SpdmReq) : Bool :=
  match r with
  | .challenge _ => true
  | .measurements _ sign => sign
  | .keyExchange _ => true
  | _ => false

/-- What the out-of-band endpoint carries of SPDM (R452): no session. -/
def spdmOob (r : SpdmReq) : Bool :=
  match r with
  | .version | .capabilities | .algorithms _ | .digests | .certificate _ _ | .challenge _ | .measurements _ _ => true
  | _ => false

/-- The bytes of a request beside its code. -/
def spdmBytes (r : SpdmReq) : List Byte :=
  match r with
  | .algorithms b | .challenge b | .keyExchange b => b
  | .measurements ix sign => [BitVec.ofNat 8 ix, if sign then 1 else 0]
  | .certificate off len => leBytes 2 off ++ leBytes 2 len
  | _ => []

/-- The request codes of SPDM. -/
def spdmCode (r : SpdmReq) : Nat :=
  match r with
  | .digests => 0x81
  | .certificate _ _ => 0x82
  | .challenge _ => 0x83
  | .version => 0x84
  | .measurements _ _ => 0xE0
  | .capabilities => 0xE1
  | .algorithms _ => 0xE3
  | .keyExchange _ => 0xE4
  | .endSession => 0xEC
  | .ideKey _ | .ideStop _ => 0xFE

/-- What the responder answers: the certificate chain and the measurements are the device's own; the rest is DMTF's. -/
def State.spdmReply (s : State) (r : SpdmReq) : State :=
  match r with
  | .certificate off len => { s with sec := { s.sec with answer := (Config.certChain.drop off).take len } }
  | .measurements ix _ =>
    let a := match s.measure ix with | some m => measureBytes m s.now | none => []
    { s with sec := { s.sec with answer := a } }
  | r =>
    let x := s.draw 46
    { x.2 with sec := { x.2.sec with answer := Config.spdmReply (spdmCode r) (spdmBytes r) x.1 } }

/-- What a request changes: the session and the IDE keys (R430, R446). -/
def State.spdmEffect (s : State) (r : SpdmReq) : State :=
  match r with
  | .keyExchange _ =>
    let s := s.dropSpdm
    State.jApply { s with sec := { s.sec with spdm := true } } [s.secKeyEntry none 0 9 0xFF 0 0]
  | .endSession => s.dropSpdm
  | .ideKey ix =>
    if s.sec.spdm && ix < 5 then
      let had := s.sec.ide.any fun x => x.ix == ix
      let rest := s.sec.ide.filter fun x => x.ix != ix
      let x : IdeStream := { ix := ix }
      State.jApply { s with sec := { s.sec with ide := x :: rest } } [s.secKeyEntry none (if had then 1 else 0) 8 0xFF ix ix]
    else s
  | .ideStop ix =>
    if s.sec.spdm && s.sec.ide.any fun x => x.ix == ix then
      let s := s.jApply [s.secKeyEntry none 2 8 0xFF ix ix]
      { s with sec := { s.sec with ide := s.sec.ide.filter fun x => x.ix != ix } }
    else s
  | _ => s

/-- SPDM_REQUEST (R451): answered at once in every sequencer state; one that needs a signature is refused in SELFTEST and in
ERROR. -/
def State.spdmRequest (s : State) (oob : Bool) (r : SpdmReq) : State :=
  let say := fun (a : List Byte) => { s with sec := { s.sec with answer := a } }
  if oob && !spdmOob r then say (spdmError 0x07)
  else if spdmSigned r && s.seq = 0 then say (spdmError 0x42)
  else if spdmSigned r && s.seq = 6 then say (spdmError 0x05)
  else (s.spdmReply r).spdmEffect r

end Sys2Proof.Machine
end

