-- ==== Sys2Proof/Machine/Power.lean ====
section
/-! DEFINITION. Package, power and bring-up: power-on and device reset, the phases that follow them, the supply and the
temperatures (R491 to R507). -/

namespace Sys2Proof.Machine

/-! ## What a reset leaves (R112, R506) -/

/-- What the keep store holds is kept; changes not yet durable are lost (R88). -/
def Keep.resetTo (k : Keep) (q : List KeepItem) : Keep := { k with queue := q, ready := false }

/-- Stored shards and manifests that a reset leaves: those of the Mulch (R414, R506). -/
def Ck.kept (c : Ck) : List CkStored := (c.stored.filter fun x => x.place == 0).map fun x => { x with set := none }

/-- The root of trust after a reset: near keys are gone, sealed keys must be unsealed, no session is left (R430). -/
def Sec.resetTo (c : Sec) : Sec :=
  { c with near := [], devNear := false, unsealed := false, gens := [], chains := [], ide := [], spdm := false, trans := none
           zeroizing := none }

/-- What a device reset leaves in each block (R505, R506), its registers apart. Frame Time keeps counting, in the hub and in every
replica, and so does a slew in progress (R49, R508); the replicas take three time words before they stamp. -/
def State.deviceLeft (s : State) (q : List KeepItem) : State :=
  let again : Replica → Replica := fun x => { count := x.count }
  let time : FrameTime := { s.time with
    exch := none, lockRun := 0, prev := none, since := s.time.hub
    regions := s.time.regions.map again, dies := s.time.dies.map again }
  let flt := { s.flt with
    units := [], regions := [], ports := [], flashOff := [], dies := [], fatalBeds := [], armed := false, armedBeds := []
    unitTests := [], regionTests := [] }
  { regs := s.regs, bus := { s.bus with config := [] }, time := time, keep := s.keep.resetTo q
    mem := { host := s.mem.host }, flt := flt
    ses := { transcripts := s.ses.transcripts.map Transcript.kept }
    smp := { saved := s.smp.saved }, flash := { s.flash with syncs := [] }, ck := { stored := s.ck.kept }
    sec := s.sec.resetTo, pow := s.pow, freeCtr := s.freeCtr, pending := s.pending }

/-- A device reset (R503, R505): the registers, every block, and the sequencer at SELFTEST. The Frame Time state machine goes to
FREE, which is journalled once the keep store is back (R44). -/
def State.deviceReset (s : State) (cause : Nat) : State :=
  let old := s.ftState
  let q : List KeepItem :=
    if old = Fs.free then [] else [{ journal := [s.jDev 0x0009 0xFF (1 + 256 * old + 65536 * Fs.free) 0 0 0] }]
  let n := min 0xFFFF (s.fget F.HUB_RESET_CAUSE_COUNT 0 + 1)
  let s := (s.deviceLeft q).resetRegs hitDevice
  let s := (s.fset F.HUB_RESET_CAUSE_COUNT n 0).fset F.HUB_RESET_CAUSE_CAUSE cause 0
  { s with pow := { s.pow with devReset := false } }

/-- The SEQ of the newest fault record in the keep store (R464, R472). -/
def State.keptFaultSeq (s : State) : Nat :=
  match (s.keepAll 0x0020).foldl (fun best r => match best with | none => some r | some b => some (newerRec b r))
      (none : Option KeepRec) with
  | some r => bytesAt r.payload 28 4
  | none => 0

/-- Power-on reset is released (R503, R506): everything at its reset value but the keep store, the flash and host memory. -/
def State.powerOnReset (s : State) (strap : Nat) : State :=
  { keep := s.keep.resetTo [], mem := { host := s.mem.host }, ses := { transcripts := s.ses.transcripts.map Transcript.kept }
    smp := { saved := s.smp.saved }, flash := { s.flash with syncs := [] }, ck := { stored := s.ck.kept }
    sec := { s.sec.resetTo with nonce := none, answer := [] }
    flt := { nextSeq := BitVec.ofNat 32 (s.keptFaultSeq + 1) }
    pow := { strap := strap }, freeCtr := s.freeCtr, pending := s.pending }

/-! ## The phases (R432, R504) -/

/-- The device runs: it has power and DEV_RESET_N does not hold it. -/
def State.powered (s : State) : Bool := s.pow.supply == .on && (!s.pow.devReset || s.flt.safe)

/-- The sequencer fails (R432): SELFTEST_FAIL, and a device-fatal fault brings ERROR. -/
def State.seqFail (s : State) : State := (s.setStatus F.SEC_STATUS_SELFTEST_FAIL 0).raise { source := 0x40 }

/-- SELFTEST_COMPLETE. -/
def State.selftest (s : State) (pass : Bool) : State :=
  if s.seq != 0 then s else if pass then s.fset F.SEC_STATE_SEQ 1 0 else s.seqFail

/-- STACK_TRAINING_COMPLETE (R504): bit r of the mask for a stack that trained; one that did not is a C4 fault. -/
def State.stackTraining (s : State) (mask : Nat) : State :=
  if 4 ≤ s.seq || s.fget F.HUB_BOOT_MEM_READY 0 = 1 then s else
    let s := s.fset F.HUB_BOOT_STACKS_TRAINED mask 0
    ((List.range 16).filter fun r => !bitSet mask r).foldl (fun s r => s.raise { source := 0x43, location := r }) s

/-- The home map that the keep store holds (R93). -/
def State.loadHomeMap (s : State) : State :=
  match s.keepCur 0x0040 0 with
  | some r => match parseMap r.payload with
    | some m => s.holdMap m
    | none => s
  | none => s

/-- A stored shard or manifest has its keep-store record (R414, R417). -/
def State.ckRecorded (s : State) (x : CkStored) : Bool :=
  if x.manifest then (s.keepCur 0x0031 x.ckpt).any fun r => bytesAt r.payload 0 8 == x.addr.toNat && bytesAt r.payload 8 8 != 0
  else (s.keepCur 0x0030 x.ckpt).any fun r => bytesAt r.payload 24 8 == x.addr.toNat && bytesAt r.payload 16 8 != 0

/-- The payload of a record of the security chapter. -/
def State.secPayload (s : State) (typ : Nat) : List Byte :=
  match s.keepCur typ 0 with | some r => r.payload | none => []

/-- The owner, the bundles and the keys are back (R432). -/
def State.loadSec (s : State) : State :=
  let owner := s.secPayload ktOwner
  let b := s.secPayload ktBundle
  State.showBundle (State.showOwner { s with sec := { s.sec with
    owner := if owner.isEmpty then none else some owner, bundle := b, nextBundle := s.secPayload ktPending
    policy := bndPolicy b, unsealed := true } })

/-- KEEP_STORE_LOAD (R326, R504): every controller reloads but those of `failed`; the loss of stack 0 or 4 is a C4 fault, of another a
C2 fault. -/
def State.keepStoreLoad (s : State) (failed : List Nat) : State :=
  if s.seq != 1 then s
  else if failed.contains 0 || failed.contains 4 then
    s.raise { source := 0x44, location := if failed.contains 0 then 16 else 20 }
  else
    let s := s.loadFlash
    let s := { s with keep := { s.keep with ready := true }, ck := { s.ck with stored := s.ck.stored.filter s.ckRecorded } }
    let s := (s.loadHomeMap.loadSec.showJournal).wrN .FLT_LOG_SEQ s.keptFaultSeq 0
    let mask := ((List.range 8).map fun i => if failed.contains i then 0 else 2 ^ i).sum
    let s := (s.fset F.HUB_BOOT_FLASH_READY mask 0).fset F.HUB_BOOT_KEEP_READY 1 0
    let s := failed.foldl (fun s i => s.raise { source := 0x27, location := 16 + i }) s
    s.fset F.SEC_STATE_SEQ 2 0

/-- The sparing map of a stack (R280): COPYING resumes from the percent recorded. -/
def State.loadSpare (s : State) (r : Nat) : State :=
  match s.keepCur 0x0050 (BitVec.ofNat 64 r) with
  | none => s
  | some x =>
    let st := bytesAt x.payload 0 1
    let k : SpareState := if st = 1 then .copying else if st = 2 then .done else .none
    let s := s.updStack r fun q => { q with
      spare := k, die := bytesAt x.payload 1 1, ptr := bytesAt x.payload 2 1 * stripeCount / 100 }
    ((s.fset F.RGN_MEM_SPARE_STATE st r).fset F.RGN_MEM_SPARE_DIE (bytesAt x.payload 1 1) r).fset F.RGN_MEM_SPARE_PROGRESS
      (bytesAt x.payload 2 1) r

/-- The Beds of a bundle are configured anew (R432): near keys are made, registers show the records. -/
def State.configureBeds (s : State) (b : List Byte) : State :=
  (bndRecords b).foldl (fun s r =>
    let bed := bytesAt r 0 1
    let s := { s with sec := { s.sec with near := bed :: s.sec.near } }
    (s.showRecord bed (some r)).wrN .SEC_BED_BUNDLE (Table.get s.sec.changed 0 bed) bed) s

/-- VERIFY and CONFIGURE (R432): the pending bundle, else the current one, is verified; a pending one is applied again in full
(R437), and the sequencer stays in CONFIGURE until it is the current one. -/
def State.verify (s : State) : State :=
  let b := if s.sec.nextBundle.isEmpty then s.sec.bundle else s.sec.nextBundle
  if s.sec.owner.isNone || b.isEmpty then s.operational
  else if !(bundleOk b && bundleSigned s.sec.owner b) then (s.setStatus F.SEC_STATUS_BUNDLE_REFUSED 0).operational
  else
    let s := s.configureBeds s.sec.bundle
    if s.sec.nextBundle.isEmpty then s.operational else
      let s := ((s.noteTrans (s.bundleTrans b)).fset F.SEC_STATE_SEQ 3 0).applyBundle none s.sec.bundle b
      s.submit { writes := s.currentWrites b, eff := .bundleApply none b }

/-- MEMORY_READY (R504): sparing maps are applied, fresh maps made fresh, the device near key made; then the bundle is verified and
the Beds configured. -/
def State.memoryReady (s : State) : State :=
  if s.seq = 2 && s.fget F.HUB_BOOT_STACKS_TRAINED 0 = 0xFFFF && s.fget F.HUB_BOOT_KEEP_READY 0 = 1 &&
      s.fget F.HUB_BOOT_MEM_READY 0 = 0 then
    let s := (List.range 16).foldl (fun s r => s.loadSpare r) s
    let s := { s with
      mem := { s.mem with near := [], poison := [] }, sec := { s.sec with devNear := true } }
    let s := s.jApply [s.secKeyEntry none 0 5 0xFF 0 0]
    (s.fset F.HUB_BOOT_MEM_READY 1 0).verify
  else s

/-- DRBG_HEALTH_FAILURE (R432). -/
def State.drbgFailure (s : State) : State := s.seqFail

/-! ## The supply (R495 to R497) -/

/-- POWER_ON: VIN rises through 42.0 V and power-on reset is held. -/
def State.powerOn (s : State) : State :=
  if s.pow.supply = .off then { s with pow := { s.pow with supply := .ramp } } else s

/-- POWER_ON_RESET_RELEASE: the strap is sampled and the device starts at FT 0. -/
def State.powerOnRelease (s : State) (strap : Nat) : State :=
  if s.pow.supply = .ramp then s.powerOnReset strap else s

/-- VIN_LOW and VIN_HIGH. -/
def State.vinLow (s : State) : State := s.setStatus F.HUB_PWR_STATUS_VIN_LOW 0
def State.vinHigh (s : State) : State := s.setStatus F.HUB_PWR_STATUS_VIN_HIGH 0

/-- VIN_OVERVOLTAGE: a C4 fault. -/
def State.vinOver (s : State) : State := s.raise { source := 0x46 }

/-- The records of an item, the journal entries as the records that they become (R85). -/
inductive HoldRec where
  | write (w : KeepWrite)
  | entry (e : JEntry)
  deriving DecidableEq, Repr

/-- The bytes a record takes (R323): a journal entry is 64 bytes of payload. -/
def holdSize : HoldRec → Nat
  | .write w => (32 + w.payload.length + 63) / 64 * 64
  | .entry _ => 128

/-- The records that fit in one page, in the order of submission (R497). -/
def holdFit : Nat → List HoldRec → List HoldRec
  | _, [] => []
  | left, r :: rs => if holdSize r ≤ left then r :: holdFit (left - holdSize r) rs else []

/-- What the hold-up programs: one page of the records that were waiting (R497). -/
def State.holdUp (s : State) : State :=
  let rs := List.flatten (s.keep.queue.map fun i => i.writes.map HoldRec.write ++ i.journal.map HoldRec.entry)
  if s.keep.ready && !rs.isEmpty then
    (holdFit 16384 rs).foldl (fun s r =>
      match r with
      | .write w => s.keepPut w.typ w.key w.payload
      | .entry e => s.journalPut e) s.keepBatch
  else s

/-- POWER_LOSS (R497): the hold-up page is programmed and everything else stops. -/
def State.powerLoss (s : State) : State :=
  if s.pow.supply = .on then
    let s := s.holdUp
    { s with keep := s.keep.resetTo [], pow := { s.pow with supply := .off } }
  else { s with pow := { s.pow with supply := .off } }

/-! ## Temperatures (R498) -/

/-- THERMAL_WARNING of a sensor of a class. -/
def State.thermalWarning (s : State) (cls sensor : Nat) : State :=
  let l := (cls, sensor) :: s.pow.warned.filter fun x => x != (cls, sensor)
  State.setStatus { s with pow := { s.pow with warned := l } } F.HUB_PWR_STATUS_WARN 0 cls

/-- THERMAL_WARNING_END. -/
def State.thermalEnd (s : State) (cls sensor : Nat) : State :=
  { s with pow := { s.pow with warned := s.pow.warned.filter fun x => x != (cls, sensor) } }

/-- The refresh rate of a memory stack is doubled while its sensor is at or above its warning (R498). -/
def State.refreshDoubled (s : State) (stack : Nat) : Bool := s.pow.warned.contains (1, stack)

/-- THERMAL_SHUTDOWN: a C4 fault. -/
def State.thermalShutdown (s : State) : State := s.raise { source := 0x46 }

/-! ## Reset inputs and the host link (R503 to R505) -/

/-- DEV_RESET_N_ASSERT: the input is low and the device is held in reset. The safe state ignores it (R503). -/
def State.devResetAssert (s : State) : State := { s with pow := { s.pow with devReset := true } }

/-- DEVICE_RESET: the input is released, and the reset runs. -/
def State.devResetRelease (s : State) : State := s.deviceReset 1

/-- DEV_RESET_N is driven low, or high again: the safe state ignores the input (R463), and nothing happens without power. -/
def State.resetInputLow (s : State) : State :=
  if s.pow.supply != .on || s.flt.safe then s else s.devResetAssert
def State.resetInputHigh (s : State) : State :=
  if s.pow.supply != .on || s.flt.safe then s else s.devResetRelease

/-- HUB_RESET_CTRL (R503, R507). -/
def State.hubResetCtrl (s : State) (v : W32) : State :=
  s.hostWrite fun s =>
    if F.HUB_RESET_CTRL_DEVICE.get v = 1 && F.HUB_RESET_CTRL_KEY.get v = 0xA5 then s.deviceReset 2 else s

/-- A region's self-test starts (R467, R505). -/
def State.startRegionTest (s : State) (r : Nat) (d : Option Desc) : State :=
  { s with flt := { s.flt with regionTests := s.flt.regionTests ++ [(r, d)] } }

/-- HUB_REGION_RESET (R505): regions that belong to no Bed and are not fenced. -/
def State.hubRegionReset (s : State) (mask : Nat) : State :=
  s.hostWrite fun s =>
    if s.seq < 4 then s else
      ((List.range 16).filter fun r => bitSet mask r && (s.bedOfRegion r).isNone && !s.flt.regions.contains r).foldl
        (fun s r => ((s.clockRestart r).regionReset r).startRegionTest r none) s

/-- PERST_N low (R503): every function is reset, the host link goes down and its keys with it. -/
def State.perstLow (s : State) : State :=
  let s := (List.range 17).foldl (fun s fn => s.functionReset fn) s
  State.dropSpdm { s with pow := { s.pow with perst := true, hostUp := false } }

/-- HOST_LINK_UP. -/
def State.hostLinkUp (s : State) : State := { s with pow := { s.pow with perst := false, hostUp := true } }

/-- HOST_LINK_DOWN (R430): the SPDM session and IDE keys are destroyed. -/
def State.hostLinkDown (s : State) : State := State.dropSpdm { s with pow := { s.pow with hostUp := false } }

end Sys2Proof.Machine
end

