-- ==== Sys2Proof/Machine/FaultRows.lean ====
section
/-! DEFINITION. The commands and register writes of the fault collector, built-in tests, and what the out-of-band endpoint reads
(R458, R465 to R473, R452). -/

namespace Sys2Proof.Machine

/-! ## Reading by SEQ (R89, R470) -/

/-- Where a read of numbered records starts (R89): O and N are the oldest and the newest SEQ held; the first SEQ copied (none:
nothing is copied), GAP, and the SEQ returned when nothing is. -/
def seqStart (empty : Bool) (o n start : W32) : Option W32 × Bool × W32 :=
  if empty then (none, false, 1)
  else if (start - o).toNat ≤ (n - o).toNat then (some start, false, start)
  else if (o - start).toNat < 2 ^ 31 then (some o, true, o)
  else (none, false, start)

/-- RESULT bits [31:0] of a read by SEQ: the SEQ after the last one copied. Where a read that starts at a held SEQ copies nothing
(a virtual function that owns none, a buffer too short) R89 states no value: it is free (log entry 48). -/
def State.readNext (s : State) (last : Option W32) : W32 × State :=
  match last with
  | some q => (q + 1, s)
  | none => let r := s.draw 48; (lo32 r.1.toNat, r.2)

/-- The fault records held from SEQ `from_` on, oldest first. -/
def State.faultsFrom (s : State) (from_ : W32) : List FaultRec :=
  s.flt.log.filter fun r => (r.seq - from_).toNat < 2 ^ 31

/-- The oldest and the newest SEQ of the fault log. -/
def State.faultEnds (s : State) : W32 × W32 :=
  ((s.flt.log.head?.map fun r => r.seq).getD 0, (s.flt.log.getLast?.map fun r => r.seq).getD 0)

/-- Where a read of the fault log starts. -/
def State.faultStart (s : State) (start : W32) : Option W32 × Bool × W32 :=
  seqStart s.flt.log.isEmpty s.faultEnds.1 s.faultEnds.2 start

/-- FLT_LOG_READ (R471): a virtual function copies only the records of its Bed. -/
def State.fltLogRead (s : State) (d : Desc) : State :=
  let x := s.faultStart (BitVec.ofNat 32 (dArg d 48 4))
  match x.1 with
  | none => s.complete d St.ok x.2.2.toNat
  | some f =>
    let mine := (s.faultsFrom f).filter fun r => (dBed d).all fun b => r.bed == b
    let rs := mine.take (dLen0 d / 64)
    let bs := List.flatten (rs.map faultBytes)
    let x' := s.readNext (rs.getLast?.map fun r => r.seq)
    (x'.2.writeAddr d d.addr0 bs).complete d St.ok
      (x'.1.toNat + rs.length % 2 ^ 16 * 2 ^ 32 + if x.2.1 then 2 ^ 63 else 0)

/-- FAULT_READ (R470): up to 15 records of all Beds, then the GAP byte. -/
def State.faultRead (s : State) (start : W32) : State :=
  let x := s.faultStart start
  let rs := match x.1 with | some f => (s.faultsFrom f).take 15 | none => []
  { s with sec := { s.sec with answer := List.flatten (rs.map faultBytes) ++ [if x.2.1 then 1 else 0] } }

/-- The journal entries held from a SEQ on that a reader sees, up to `n` of them. -/
def State.entriesFrom (s : State) (from_ : W32) (see : List Byte → Bool) (n : Nat) : List (W32 × List Byte) :=
  let held := (s.keep.jNewest - from_).toNat + 1
  ((List.range (min held s.keep.jHeld)).filterMap fun i =>
    let q := from_ + BitVec.ofNat 32 i
    (s.journalGet q).map fun bs => (q, bs)).filter (fun x => see x.2) |>.take n

/-- Where a read of the journal starts (R89). -/
def State.journalStart (s : State) (start : W32) : Option W32 × Bool × W32 :=
  seqStart (s.keep.jHeld == 0) (s.keep.jNewest - BitVec.ofNat 32 (s.keep.jHeld - 1)) s.keep.jNewest start

/-- MCTP_JOURNAL_READ (R452): up to 15 entries of all Beds, then GAP. -/
def State.oobJournalRead (s : State) (start : W32) : State :=
  let x := s.journalStart start
  let rs := match x.1 with | some f => s.entriesFrom f (fun _ => true) 15 | none => []
  let bs := List.flatten (rs.map fun r => r.2)
  { s with sec := { s.sec with answer := bs ++ [if x.2.1 then 1 else 0] } }

/-! ## Fault registers (R472, R473) -/

/-- The regions fenced, as a mask. -/
def State.fencedMask (s : State) : Nat := ((List.range 16).map fun r => if s.flt.regions.contains r then 2 ^ r else 0).sum

/-- DEGRADED (R467): a region, a port or a flash stack is fenced. -/
def State.degraded (s : State) : Bool := !(s.flt.regions.isEmpty && s.flt.ports.isEmpty && s.flt.flashOff.isEmpty)

/-- FLT_STATE. -/
def State.fltState (s : State) : Nat :=
  (if s.flt.safe then 2 ^ 31 else 0) + (if s.degraded then 2 ^ 30 else 0) + s.flt.classMax % 8 * 2 ^ 24 + s.fencedMask

/-- FLT_BED_STATE. -/
def State.fltBedState (s : State) (bed : Nat) : Nat :=
  (if s.flt.fatalBeds.contains bed then 2 ^ 31 else 0) + (s.fencedMask &&& s.bedRegions bed)

/-- FLT_UNIT_MAP_k. -/
def State.unitMap (s : State) (k : Nat) : Nat :=
  ((List.range 32).map fun u => if s.flt.units.contains (32 * k + u) then 2 ^ u else 0).sum

/-- Units fenced. -/
def State.unitsFenced (s : State) : Nat := s.flt.units.eraseDups.length

/-- A sensor reading, which the spec leaves to the sensor: a free value (R507, log entry 47). -/
def State.sensor (s : State) : Nat × State :=
  let r := s.draw 47
  (r.1.toNat % 2 ^ 16, r.2)

/-- HEALTH_READ (R470). -/
def State.healthRead (s : State) : State :=
  let a := s.sensor
  let b := a.2.sensor
  let s' := b.2
  let counts := List.flatten ((List.range 5).map fun k => leBytes 4 (s.rdN .FLT_COUNT_C 0 k))
  let bs := leBytes 4 s.fltState ++ leBytes 4 (s.rdN .FLT_STATUS 0) ++ counts ++ leBytes 2 s.unitsFenced ++
    [BitVec.ofNat 8 s.seq, 0] ++ leBytes 2 a.1 ++ leBytes 2 b.1 ++ leBytes 4 0 ++ leBytes 8 s.now.toNat
  { s' with sec := { s'.sec with answer := bs } }

/-- FLT_FIRST_ARM (R465). -/
def State.fltFirstArm (s : State) (v : W32) : State :=
  s.hostWrite fun s =>
    if F.FLT_FIRST_ARM_ARM.get v = 1 then
      let s := (List.range 16).foldl (fun s k => s.wrN .FLT_FIRST 0 0 k) s
      { s with flt := { s.flt with armed := true } }
    else s

/-- FLT_BED_FIRST_ARM (R473). -/
def State.fltBedFirstArm (s : State) (bed : Nat) (v : W32) : State :=
  s.hostWrite fun s =>
    if F.FLT_BED_FIRST_ARM_ARM.get v = 1 then
      let s := (List.range 16).foldl (fun s k => s.wrN .FLT_BED_FIRST 0 bed k) s
      { s with flt := { s.flt with armedBeds := bed :: s.flt.armedBeds.filter fun b => b != bed } }
    else s

/-- The Bed that an injected detection concerns: the Bed itself for SOURCE 0x0030 to 0x0033, the owner of the region that LOCATION
lies in for the others. DEDUCED (log entry 47). -/
def State.injectBed (s : State) (source location : Nat) : Option Nat :=
  if 0x30 ≤ source && source ≤ 0x33 then some (location % 16)
  else match faultRegion { source := source, location := location } with
    | some r => s.bedOfRegion r
    | none => none

/-- FLT_INJECT (R472): SOURCE and LOCATION are written; GO raises the detection while INJECT_ENABLE is 1. -/
def State.fltInject (s : State) (v : W32) : State :=
  s.hostWrite fun s =>
    let src := F.FLT_INJECT_SOURCE.get v
    let loc := F.FLT_INJECT_LOCATION.get v
    let s := (s.fset F.FLT_INJECT_SOURCE src 0).fset F.FLT_INJECT_LOCATION loc 0
    if F.FLT_INJECT_GO.get v = 1 && s.fget F.FLT_CTRL_INJECT_ENABLE 0 = 1 then
      s.raise { source := src, location := loc, bed := s.injectBed src loc } true
    else s

/-- UNIT_WATCHDOG (R458, R472): a unit command of a session's entry has run FLT_WATCHDOG ft; DETAIL holds the watchdog's ft. -/
def State.unitWatchdog (s : State) (u : Nat) (sid : W64) : State :=
  let v := s.rdN .FLT_WATCHDOG 0
  let ft := if v = 0 then 48 else v
  let job := ((s.sch.slots.find? fun t => t.sid == sid).map fun t => t.job).getD 0
  s.raise { source := 0x12, location := u, bed := s.bedOfRegion (u / 64), sid := sid, jobId := job, access := 5, master := u % 2 ^ 12
            detail := BitVec.ofNat 32 ft }

/-! ## Recovery (R467, R471) -/

/-- Command-specific status value: the target is not fenced. -/
def notFenced : Nat := 0x81

/-- FLT_UNIT_UNFENCE: the unit's built-in test starts. -/
def State.fltUnitUnfence (s : State) (d : Desc) : State :=
  let u := dArg d 48 2
  if !s.flt.units.contains u then s.complete d notFenced else
    { s with flt := { s.flt with unitTests := s.flt.unitTests ++ [(u, some d)] } }

/-- FLT_REGION_RECOVER: the region is reset and its self-test starts; a region of a die whose services are down cannot be. -/
def State.fltRegionRecover (s : State) (d : Desc) : State :=
  let r := dArg d 48 1
  if !s.flt.regions.contains r then s.complete d notFenced
  else if s.flt.dies.contains (dieOf r) then s.complete d testFailed
  else ((s.clockRestart r).regionReset r).startRegionTest r (some d)

/-- A unit's test ends. -/
def State.unitTestEnd (s : State) (u : Nat) (pass : Bool) : State :=
  let ts := s.flt.unitTests.filter fun t => t.1 == u
  if ts.isEmpty then s else
    let units := if pass then s.flt.units.filter fun x => x != u else s.flt.units
    let s := { s with flt := { s.flt with unitTests := s.flt.unitTests.filter fun t => t.1 != u, units := units } }
    ts.foldl (fun s t => s.complete? t.2 (if pass then St.ok else testFailed)) s

/-- A region's self-test ends with the units that failed: they are fenced and the others take commands again. At UNIT_LIMIT the region
stays fenced, or is fenced; below it a recovery makes its granules fresh and it rejoins its Bed (R467). -/
def State.regionTestEnd (s : State) (r : Nat) (failed : List Nat) : State :=
  let ts := s.flt.regionTests.filter fun t => t.1 == r
  if ts.isEmpty then s else
    let bad := ((List.range 64).filter fun u => failed.contains u).map fun u => 64 * r + u
    let tests := s.flt.regionTests.filter fun t => t.1 != r
    let units := (s.flt.units.filter fun u => u / 64 != r) ++ bad
    let s := { s with flt := { s.flt with regionTests := tests, units := units } }
    let recovers := ts.any fun t => t.2.isSome
    if s.unitLimit ≤ bad.length then
      let s := if s.flt.regions.contains r then s else
        (s.recordFault { source := 0x23, location := r, bed := s.bedOfRegion r } 2 true false).fenceRegion r
      ts.foldl (fun s t => s.complete? t.2 testFailed bad.length) s
    else
      let s := if recovers then
          let s := s.freshRegion r
          { s with flt := { s.flt with regions := s.flt.regions.filter fun x => x != r } }
        else s
      ts.foldl (fun s t => s.complete? t.2 St.ok bad.length) s

/-- UNIT_TEST_COMPLETE. -/
def State.unitTestComplete (s : State) (e : TestEnd) : State :=
  match e with
  | .unit u pass => s.unitTestEnd u pass
  | .region r failed => s.regionTestEnd r failed

end Sys2Proof.Machine
end

