-- ==== Sys2Proof/Machine/Observe.lean ====
section
/-! DEFINITION. Counter sets and trace rings: their register writes, their commands, and the drain of staged records (R474 to
R490). -/

namespace Sys2Proof.Machine

/-! ## Counter sets (R476, R477) -/

/-- CTR_CTRL.CLEAR (R476): the eight counters of a set become zero. -/
def State.ctrClear (s : State) (set : Nat) : State :=
  (List.range 8).foldl (fun s k => s.wr64 .CTR_VAL_LO .CTR_VAL_HI 0 set k) s

/-- CTR_CLEAR: a write of CTR_CTRL.CLEAR. -/
def State.ctrClearWrite (s : State) (set : Nat) : State := s.hostWrite fun s => s.ctrClear set

/-- CTR_RUN: a write of CTR_CTRL.RUN. -/
def State.ctrRunWrite (s : State) (set : Nat) (run : Bool) : State :=
  s.hostWrite fun s => s.fset F.CTR_CTRL_RUN (if run then 1 else 0) set

/-- The sets that a write of CTR_GLOBAL_CMD acts on: bit s of CTR_GLOBAL.SETS names set s (R477). -/
def State.ctrNamed (s : State) : List Nat := (List.range 32).filter fun c => bitSet (s.rdN .CTR_GLOBAL 0) c

/-- Set or clear RUN in the named sets (R477). -/
def State.ctrAll (s : State) (run : Bool) : State :=
  s.ctrNamed.foldl (fun s c => s.fset F.CTR_CTRL_RUN (if run then 1 else 0) c) s

/-- CTR_GLOBAL_START: a write of CTR_GLOBAL_CMD with START and without STOP (R477). -/
def State.ctrGlobalStart (s : State) : State := s.hostWrite fun s => s.ctrAll true

/-- CTR_GLOBAL_STOP: a write of CTR_GLOBAL_CMD with STOP, which wins over START (R477). -/
def State.ctrGlobalStop (s : State) : State := s.hostWrite fun s => s.ctrAll false

/-- CTR_GRANT (R477): the write is journalled and takes effect with its entry (R88). -/
def State.ctrGrantWrite (s : State) (v : Nat) : State :=
  s.hostWrite fun s =>
    let r : Reg := ⟨.CTR_GRANT, 0, 0⟩
    let j := s.jDev 0x0005 0xFF 6 0xFF (dig32 (s.rd r).toNat) (dig32 (v % 2 ^ 16))
    if s.keep.ready then
      s.submit { journal := [{ j with originType := 1 }], eff := .reg r 0xFFFF (BitVec.ofNat 32 v) }
    else s

/-! ## Commands (R489) -/

/-- TRC_MARK (R489): one MARK record when marks are enabled. -/
def State.trcMark (s : State) (d : Desc) : State :=
  let tail := leBytes 4 d.jobId.toNat ++ leBytes 2 d.layerId.toNat ++ leBytes 2 d.operatorId.toNat ++
    leBytes 2 d.rangeMarker.toNat ++ leBytes 2 (dArg d 48 2) ++ leBytes 2 (dArg d 50 2) ++ [0, 0]
  (s.trace 4 8 5 (dFn d) .hub (dBed d) d.tag.toNat tail).complete d St.ok

/-- The counters of an issuer's view, in set and counter order (R489). -/
def State.counterView (s : State) (fn : Nat) : List Nat :=
  let sets := match bedOf fn with | some b => [32 + b] | none => List.range 32
  sets.flatMap fun c => (List.range 8).map fun k => s.rd64 .CTR_VAL_LO .CTR_VAL_HI c k

/-- CTR_SNAPSHOT (R489): hub FT, then as many counters as fit. -/
def State.ctrSnapshot (s : State) (d : Desc) : State :=
  let all := s.counterView (dFn d)
  let n := min all.length ((dLen0 d - 8) / 8)
  let bs := (leBytes 8 s.now.toNat ++ List.flatten ((all.take n).map fun v => leBytes 8 v)).take (dLen0 d)
  (s.writeAddr d d.addr0 bs).complete d St.ok n

/-! ## Trace rings (R485, R486) -/

/-- Records that a function's trace ring holds (R485). -/
def State.traceSize (s : State) (fn : Nat) : Nat := 2 ^ max 10 (min 24 (s.fget F.TRC_SIZE_LOG2 fn))

/-- Records in a ring that software has not consumed. -/
def State.traceUsed (s : State) (fn : Nat) : Nat := Table.get s.obs.used 0 fn

/-- Set that number. -/
def State.setTraceUsed (s : State) (fn n : Nat) : State :=
  { s with obs := { s.obs with used := Table.set s.obs.used 0 fn n } }

/-- The ring has no free slot. -/
def State.traceFull (s : State) (fn : Nat) : Bool := Nat.ble (s.traceSize fn) (s.traceUsed fn)

/-- Overwrite mode (R486). -/
def State.traceOver (s : State) (fn : Nat) : Bool := s.fget F.TRC_CTRL_MODE fn == 1

/-- Write the 32 bytes of a record at the tail (R485). The ring base has the form of R69; space 0b11 holds no ring. -/
def State.traceStore (s : State) (fn : Nat) (bs : List Byte) : State :=
  let base := BitVec.ofNat 64 (s.rd64 .TRC_BASE_LO .TRC_BASE_HI fn)
  let tail := s.rdN .TRC_TAIL fn
  let d : Desc := { src := .mailbox (Fin.ofNat 17 fn) 0 }
  let full := s.traceFull fn
  let s := if base.toNat / 2 ^ 62 = 3 then s else s.storeAddr d (base + BitVec.ofNat 64 (32 * tail)) bs
  let s := s.wrN .TRC_TAIL ((tail + 1) % s.traceSize fn) fn
  if full then s.setStatus F.TRC_STATUS_WRAPPED fn else s.setTraceUsed fn (s.traceUsed fn + 1)

/-- The LOST record of a ring (R480, R486): records lost, and the FT of the first. -/
def State.lostBytes (s : State) (x : TraceLost) : List Byte :=
  leBytes 8 s.now.toNat ++ [9, BitVec.ofNat 8 (s.fget F.FT_STATUS_STATE 0), BitVec.ofNat 8 ((bedOf x.fn).getD 0xFF), 10] ++
  leBytes 2 0 ++ leBytes 2 0 ++ leBytes 4 x.count ++ leBytes 8 x.first.toNat ++ leBytes 4 0

/-- When a ring has room, the LOST record of its losses comes first (R486). -/
def State.traceLost (s : State) (fn : Nat) : State :=
  if s.traceFull fn && !s.traceOver fn then s else
    match s.obs.lost.find? fun x => x.fn == fn with
    | some x =>
      let s := s.traceStore fn (s.lostBytes x)
      { s with obs := { s.obs with lost := s.obs.lost.filter fun y => y.fn != fn } }
    | none => s

/-- A record reaches its ring, or is lost there (R486). -/
def State.tracePut (s : State) (fn : Nat) (r : TraceRec) : State :=
  let s := s.traceLost fn
  if s.traceFull fn && !s.traceOver fn then s.traceLose r.ft fn else s.traceStore fn r.bytes

/-- TRACE_RECORD_WRITE (R485): the oldest record of a staging buffer (dies 0 to 3, hub 4) drains to its rings. -/
def State.traceDrain (s : State) (buf : Nat) : State :=
  match s.obs.staging.getD buf [] with
  | [] => s
  | r :: rest =>
    if s.flt.safe then s else
      let s := { s with obs := { s.obs with staging := s.obs.staging.set buf rest } }
      r.rings.foldl (fun s fn => s.tracePut fn r) s

/-- TRACE_HEAD_WRITE (R486): software frees ring room. In MODE 1 the head is ignored. -/
def State.traceHead (s : State) (fn v : Nat) : State :=
  s.hostWrite fun s =>
    let s := s.wrN .TRC_HEAD v fn
    if s.traceOver fn then s else
      let n := s.traceSize fn
      let t := s.rdN .TRC_TAIL fn
      (s.setTraceUsed fn ((t % n + n - v % n) % n)).traceLost fn

end Sys2Proof.Machine
end

