-- ==== Sys2Proof/Machine/HostIf.lean ====
section
/-! DEFINITION. The command engine: opening the interface, rings, mailboxes, the fetch of descriptors and the interface commands
(R66 to R83, R89). -/

namespace Sys2Proof.Machine

/-! ## Which opcodes a function and a path may use (R67) -/

/-- Opcodes that only the physical function issues. -/
def opPf : List Nat :=
  [0x010A, 0x0305, 0x0700, 0x0703, 0x0704, 0x0705, 0x0801, 0x0D00, 0x0D01, 0x0D02, 0x0D03, 0x0D04, 0x0E01, 0x0E02]

/-- Opcodes that every function issues. -/
def opBoth : List Nat :=
  [0x0001, 0x0002, 0x0010, 0x0011, 0x0020, 0x0030, 0x0108, 0x0109, 0x0202, 0x0404, 0x0702, 0x0800, 0x0905, 0x0A00, 0x0A01,
   0x0A02, 0x0B0A, 0x0D05, 0x0D06, 0x0E00, 0x0F00, 0x0F01]

/-- Opcodes that only a mailbox carries; those of 0x0C00 to 0x0C07 are too (R425). -/
def opMailbox : List Nat :=
  [0x0001, 0x0002, 0x0010, 0x0011, 0x0106, 0x0107, 0x0109, 0x010A, 0x0200, 0x0201, 0x0300, 0x0301, 0x0304, 0x0305, 0x0400,
   0x0401, 0x0403, 0x0501, 0x0502, 0x0600, 0x0601, 0x0604, 0x0605, 0x0700, 0x0703, 0x0704, 0x0705, 0x0801, 0x0900, 0x0901,
   0x0904, 0x0A00, 0x0A01, 0x0A02, 0x0B00, 0x0B01, 0x0B02, 0x0B07, 0x0B08, 0x0D00, 0x0D01, 0x0D02, 0x0D03, 0x0D04, 0x0E01,
   0x0E02]

/-- A descriptor came through a mailbox. -/
def viaMailbox (d : Desc) : Bool := match d.src with | .mailbox _ _ => true | .ring _ _ _ => false

/-- The opcode exists, and its function and its path may use it (R67). -/
def opAllowed (d : Desc) : Bool :=
  let op := d.opcode.toNat
  opcodes.contains op && (opBoth.contains op || (opPf.contains op == (dFn d == 0))) &&
  (viaMailbox d || !(opMailbox.contains op || op / 256 == 0x0C))

/-- The interface of a function is open (R79). -/
def State.ifOpenBit (s : State) (fn : Nat) : Bool := s.fget F.IF_STATE_OPEN fn == 1

/-- The status with which the engine turns a descriptor away before its command starts: before OPERATIONAL every command but
the SEC_ ones (R432), with the interface closed every one but IF_OPEN (R73), for a Bed that a C3 fault stopped (R462), and an
opcode that must not be issued (R84, log entry 49). -/
def State.gate (s : State) (d : Desc) : Option Nat :=
  if Nat.blt (s.fget F.SEC_STATE_SEQ 0) 4 && d.opcode.toNat / 256 != 0x0D then some St.bedAbsent
  else if !s.ifOpenBit (dFn d) && d.opcode != 0x0001 then some St.notOpen
  else if (dBed d).any fun b => s.flt.fatalBeds.contains b then some St.fenced
  else if !opAllowed d then some St.notFound
  else none

/-- The engine takes a descriptor: it is in flight, or completes at once. -/
def State.take (s : State) (d : Desc) : State :=
  let g := s.gate d
  let s := { s with host := { s.host with inflight := s.host.inflight ++ [{ desc := d }] } }
  match g with
  | some st => s.complete d st
  | none => s

/-! ## Mailboxes and rings (R73 to R77) -/

/-- MAILBOX_GO (R73): the mailbox's descriptor is submitted. While BUSY is 1 the write has no effect (R84, log entry 49). -/
def State.mailboxGo (s : State) (fn : Fin 17) (m : Fin 16) : State :=
  s.hostWrite fun s =>
    if s.fget F.MB_STATUS_BUSY fn m = 1 then s else
      let bs := (List.range 16).flatMap fun k => leBytes 4 (s.rdN .MB_DESC fn (m * 16 + k))
      (s.fset F.MB_STATUS_BUSY 1 fn m).take (dParse (.mailbox fn m) bs)

/-- RING_STATE.STATE. -/
def State.ringState (s : State) (fn r : Nat) : Nat := s.fget F.RING_STATE_STATE fn r

/-- RING_DOORBELL (R76, R77): the submission tail; discarded unless the ring is ACTIVE. -/
def State.ringDoorbell (s : State) (fn r v : Nat) : State :=
  s.hostWrite fun s => if s.ringState fn r = 1 then s.fset F.RING_SQ_TAIL (v % s.ringSize fn r) fn r else s

/-- Descriptors of a ring in flight. -/
def State.ringInflight (s : State) (fn r : Nat) : Nat :=
  (s.host.inflight.filter fun i => match i.desc.src with | .ring f q _ => f.val == fn && q.val == r | _ => false).length

/-- A ring has a descriptor to fetch (R76): ACTIVE, not empty, and fewer fetched and unconsumed entries than its size. -/
def State.ringReady (s : State) (q : Ring) : Bool :=
  s.ringState q.fn q.idx == 1 && s.fget F.RING_SQ_HEAD q.fn q.idx != s.fget F.RING_SQ_TAIL q.fn q.idx &&
  Nat.blt (s.ringInflight q.fn q.idx + q.unread) (s.ringSize q.fn q.idx)

/-- The number that comes next after `last` in a cycle of `n`. -/
def nextInTurn (n last : Nat) (l : List Nat) : Option Nat :=
  ((List.range n).map fun k => (last + 1 + k) % n).find? fun x => l.contains x

/-- The function and the ring whose turn it is (R76): the functions with a ring that is ready are served in turn, and so are the
rings of each, one descriptor a turn. -/
def State.ringTurn (s : State) : Option (Nat × Nat) :=
  let ready := s.host.rings.filter fun q => s.ringReady q
  match nextInTurn 17 s.host.lastFn (ready.map fun q => q.fn) with
  | none => none
  | some fn =>
    (nextInTurn 256 (Table.get s.host.lastRing 255 fn) ((ready.filter fun q => q.fn == fn).map fun q => q.idx)).map fun r => (fn, r)

/-- A ring from which the engine fetches its next descriptor (R76). -/
def State.fetchable (s : State) (fn r : Nat) : Bool := s.ringTurn == some (fn, r) && !s.flt.safe

/-- The engine served a ring (R76). -/
def State.served (s : State) (fn r : Nat) : State :=
  { s with host := { s.host with lastFn := fn, lastRing := Table.set s.host.lastRing 255 fn r } }

/-- DESCRIPTOR_FETCH (R76): a submission queue in buffer space is read through the Bed's tables (R206). -/
def State.descriptorFetch (s : State) (fn : Fin 17) (r : Fin 256) : State :=
  match s.ring? fn r with
  | some q =>
    if s.fetchable fn r then
      let h := s.fget F.RING_SQ_HEAD fn r
      let at_ : Desc := { src := .ring fn r h }
      let addr := q.sq + BitVec.ofNat 64 (64 * h)
      let bs := s.readAddr at_ addr 64
      (((s.served fn r).touchAddr at_ addr 64).fset F.RING_SQ_HEAD ((h + 1) % s.ringSize fn r) fn r).take (dParse (.ring fn r h) bs)
    else s
  | none => s

/-- RING_IRQ_DELAY (R81): DELAY, in 1/256 ft, has passed since the oldest pending completion was written. -/
def State.ringIrqDelay (s : State) (fn r : Nat) : State :=
  match s.ring? fn r with
  | some q =>
    let delay := s.fget F.RING_IRQ_CTRL_DELAY fn r
    if q.pending != 0 && delay != 0 && ftReached s.now (q.oldest + BitVec.ofNat 64 (delay * 2 ^ 16)) && !s.flt.safe then
      s.ringSignal fn r
    else s
  | none => s

/-- A ring stops fetching: the descriptors between SQ.HEAD and SQ.TAIL are discarded (R77). -/
def State.ringStop (s : State) (fn r : Nat) (d : Option Desc) : State :=
  let n := s.ringSize fn r
  let left := (s.fget F.RING_SQ_TAIL fn r + n - s.fget F.RING_SQ_HEAD fn r) % n
  (s.fset F.RING_STATE_STATE 2 fn r).updRing fn r fun q => { q with discarded := left, destroy := d }

/-- The IF_CLOSE commands of a function whose rings are all ABSENT complete, and its interface is closed (R77). -/
def State.closeDone (s : State) (fn : Nat) : State :=
  if s.host.rings.any fun q => q.fn == fn then s else
    let ds := s.host.closing.filter fun d => dFn d == fn
    if ds.isEmpty then s else
      let s := { s with host := { s.host with closing := s.host.closing.filter fun d => dFn d != fn } }
      ds.foldl (fun s d => s.complete d St.ok) (s.wrN .IF_STATE 0 fn)

/-- RING_DRAIN_COMPLETE (R77): nothing of a DRAINING ring is in flight any more. -/
def State.ringDrain (s : State) (fn r : Nat) : State :=
  match s.ring? fn r with
  | some q =>
    if s.ringState fn r = 2 && s.ringInflight fn r = 0 then
      let head := s.fget F.RING_SQ_HEAD fn r
      let s := s.fset F.RING_STATE_STATE 0 fn r
      let s := { s with host := { s.host with rings := s.host.rings.filter fun x => !(x.fn == fn && x.idx == r) } }
      (s.complete? q.destroy St.ok (head + q.discarded % 2 ^ 16 * 2 ^ 16)).closeDone fn
    else s
  | none => s

/-! ## Interface commands (R72) -/

/-- The offered majors that a mask names, the highest first, each with the minor chosen (R79). -/
def State.common (s : State) (mask : Nat) (minors : List Nat) : List (Nat × Nat) :=
  [2, 1, 0].filterMap fun k =>
    if bitSet mask k && bitSet (s.fget F.ID_IFV_OFFERED_MAJORS 0) k then
      some (k + 1, min (minors.getD k 0) (bits (s.rdN .ID_IFV_OFFERED 0) (8 * k + 7) (8 * k)))
    else none

/-- IF_OPEN (R79, R447). On an open interface with a ring that is not ABSENT nothing changes (R79, log entry 49). -/
def State.ifOpen (s : State) (d : Desc) : State :=
  let fn := dFn d
  let live := s.ifOpenBit fn && s.host.rings.any fun q => q.fn == fn
  if (dBed d).any fun b => !s.bedConfigured b then s.complete d St.bedAbsent
  else if (dBed d).any fun b => bitSet s.sec.policy 0 && s.fget F.SEC_BED_STATE_TDI b != 2 then s.complete d St.notOpen
  else if live then s.complete d St.ok (s.fget F.IF_STATE_VERSION fn)
  else match s.common (dArg d 48 4 % 8) [dArg d 49 1, dArg d 50 1, dArg d 51 1] with
    | (major, minor) :: _ =>
      let v := major * 16 + minor % 16
      let s := { s with host := { s.host with quiet := s.host.quiet.filter fun f => f != fn } }
      (s.wrN .IF_STATE (256 + v) fn).complete d St.ok v
    | [] => s.complete d St.noCommonVersion

/-- IF_CLOSE (R77): every ring is destroyed, and the command waits until all are ABSENT. -/
def State.ifClose (s : State) (d : Desc) : State :=
  let fn := dFn d
  let act := s.host.rings.filter fun q => q.fn == fn && s.ringState fn q.idx == 1
  let s := act.foldl (fun s q => s.ringStop fn q.idx none) s
  State.closeDone { s with host := { s.host with closing := s.host.closing ++ [d] } } fn

/-- Rings that a function may hold (R74). -/
def ringMax (fn : Nat) : Nat := if fn = 0 then 16 else 256

/-- RING_CREATE (R75, R77). A ring that is not ABSENT is left as it is, and a ring number beyond R74 makes no ring (R84, log
entry 49). -/
def State.ringCreate (s : State) (d : Desc) : State :=
  let fn := dFn d
  let r := dArg d 48 2
  if ringMax fn ≤ r then s.complete d St.noResource
  else if (s.ring? fn r).isSome then s.complete d St.ok
  else
    let size := max 4 (min 16 (dArg d 50 1)) - 4
    let s := (s.wrN .RING_SQ 0 fn r).wrN .RING_CQ 0 fn r
    let s := s.wrN .RING_IRQ_CTRL (dArg d 52 1 * 2 ^ 24 + dArg d 51 1 % 64 * 2 ^ 16 + dArg d 54 2) fn r
    let s := s.wrN .RING_STATE (1 + size * 4) fn r
    let q : Ring := { fn := fn, idx := r, sq := d.addr0, cq := d.addr1 }
    State.complete { s with host := { s.host with rings := s.host.rings ++ [q] } } d St.ok

/-- RING_DESTROY (R77): the command completes when the ring is ABSENT. R77 gives no move for a ring that is not ACTIVE; such a
command completes with NOT_FOUND: DESIGN CHOICE (log entry 49). -/
def State.ringDestroy (s : State) (d : Desc) : State :=
  let r := dArg d 48 2
  if (s.ring? (dFn d) r).isSome && s.ringState (dFn d) r == 1 then s.ringStop (dFn d) r (some d)
  else s.complete d St.notFound

/-- NOP (R72). -/
def State.nopCmd (s : State) (d : Desc) : State := s.complete d St.ok

/-- JOURNAL_READ (R89): a virtual function sees the entries of its Bed. -/
def State.journalRead (s : State) (d : Desc) : State :=
  let x := s.journalStart (BitVec.ofNat 32 (dArg d 48 4))
  match x.1 with
  | none => s.complete d St.ok x.2.2.toNat
  | some f =>
    let rs := s.entriesFrom f (fun bs => (dBed d).all fun b => bytesAt bs 7 1 == b) (dLen0 d / 64)
    let bs := List.flatten (rs.map fun r => r.2)
    let n := s.readNext (rs.getLast?.map fun r => r.1)
    (n.2.writeAddr d d.addr0 bs).complete d St.ok
      (n.1.toNat + rs.length % 2 ^ 16 * 2 ^ 32 + if x.2.1 then 2 ^ 63 else 0)

end Sys2Proof.Machine
end

