-- ==== Sys2Proof/Machine/RegMap.lean ====
section
/-! DEFINITION. Where the registers stand in the base address registers (R61 to R64, R490), and what a read of each shows: its
stored fields, or the value of the state that it is a view of. -/

namespace Sys2Proof.Machine

/-! ## Configuration space (R5, R60) -/

/-- Vendor ID, Device ID and Revision ID in the configuration space of a function (R5). -/
def vendorId : W16 := 0x1F5A
def deviceId (fn : Nat) : W16 := if fn = 0 then 0x4160 else 0x4161
def revisionId : Byte := 0x11

/-- The capabilities of R60. -/
inductive Capability where
  | msix (vectors : Nat)
  | powerManagement
  | aer | ari | serialNumber | ats | doe | ide | tdisp
  | sriov (totalVfs firstOffset stride : Nat)
  deriving DecidableEq, Repr

/-- The capabilities that a function carries (R60); PRI and PASID are not implemented. What a host writes in configuration space no
command of the table brings: `Bus.config` holds it as it stands after reset (log entry 100). -/
def capabilities (fn : Nat) : List Capability :=
  if fn = 0 then [.msix 64, .powerManagement, .aer, .ari, .serialNumber, .sriov 16 1 1, .ats, .doe, .ide]
  else [.msix 64, .powerManagement, .aer, .ari, .ats, .doe, .tdisp]

/-! ## Places -/

/-- The index of the register of a place that stands at an offset of its block. -/
def Place.find (p : Place) (off : Nat) : Option Nat :=
  if off < p.off then none else
    let rel := off - p.off
    let o := if p.stride = 0 then 0 else rel / p.stride
    let rest := rel - o * p.stride
    let j := if p.stride2 = 0 then 0 else rest / p.stride2
    if rest = j * p.stride2 && Nat.ble p.first o && Nat.ble o p.last && Nat.blt j p.count2 then some (o * p.count2 + j) else none

/-- The register of a block at an offset, for instance `inst` of the block. Ring doorbells stand in BAR2 (R64). -/
def regAt (b : Blk) (inst off : Nat) : Option Reg :=
  RN.all.findSome? fun n =>
    if n.place.blk == b && n != .RING_DOORBELL then (n.place.find off).map fun i => ⟨n, inst, i⟩ else none

/-- What an offset reaches: a register, a register that only a read reaches, a byte of the directory window, a byte of the
function's ring SRAM, or nothing. -/
inductive Loc where
  | reg (r : Reg)
  | mirror (r : Reg)
  | window (off : Nat)
  | sram (off : Nat)
  | nothing
  deriving DecidableEq, Repr

/-- A register found, or nothing. -/
def Loc.ofReg? : Option Reg → Loc
  | some r => .reg r
  | none => .nothing

/-- A register found, to be read only. -/
def Loc.mirror? : Option Reg → Loc
  | some r => .mirror r
  | none => .nothing

/-- The command-engine block of a function at an offset from 0x2000: interface registers, then ring registers (R62, R63). -/
def engineAt (fn off : Nat) : Loc :=
  if off < 0x4000 then .ofReg? (regAt .iface fn (off - 0x2000))
  else .ofReg? ((regAt .ring fn (off - 0x4000)).filter fun r => Nat.blt r.idx (ringMax fn))

/-- BAR0 of the physical function (R62). -/
def pfBar0 (off : Nat) : Loc :=
  if off < 0x10000 then .ofReg? (regAt .ident 0 off)
  else if off < 0x20000 then .ofReg? (regAt .hub 0 (off - 0x10000))
  else if off < 0x30000 then .ofReg? (regAt .frameTime 0 (off - 0x20000))
  else if off < 0x32000 then .nothing
  else if off < 0x36000 then engineAt 0 (off - 0x30000)
  else if off < 0x40000 then .ofReg? (regAt .sesPf 0 (off - 0x36000))
  else if off < 0x50000 then .ofReg? (regAt .flt 0 (off - 0x40000))
  else if off < 0x60000 then .ofReg? (regAt .journal 0 (off - 0x50000))
  else if off < 0x80000 then .ofReg? (regAt .sec 0 (off - 0x60000))
  else if off < 0xA0000 then
    let p := (off - 0x80000) / 0x4000
    let o := (off - 0x80000) % 0x4000
    if o < 0x2000 || p = 0 then .ofReg? (regAt .plw p o) else .nothing
  else if off < 0xB0000 then .ofReg? (regAt .cxl ((off - 0xA0000) / 0x4000) ((off - 0xA0000) % 0x4000))
  else if off < 0x100000 then .nothing
  else if off < 0x200000 then .ofReg? (regAt .die ((off - 0x100000) / 0x40000) ((off - 0x100000) % 0x40000))
  else if off < 0x300000 then .ofReg? (regAt .rgn ((off - 0x200000) / 0x10000) ((off - 0x200000) % 0x10000))
  else if off < 0x380000 then .ofReg? (regAt .flash ((off - 0x300000) / 0x10000) ((off - 0x300000) % 0x10000))
  else if off < 0x400000 then .nothing
  else if off < 0x402000 then .ofReg? (regAt .ctr ((off - 0x400000) / 0x100) ((off - 0x400000) % 0x100))
  else if off < 0x403000 then .ofReg? (regAt .ctrGlobal 0 (off - 0x400000))
  else if off < 0x404000 then .ofReg? (regAt .trace 0 (off - 0x403000))
  else if off < 0x1000000 then .nothing
  else if off < 0x2000000 then .window (off - 0x1000000)
  else .nothing

/-- The counters and trace of a Bed (R490): its trace registers, its counter set, the attention view of its regions, and the
mirror of the die and port sets, which CTR_GRANT opens (R478). -/
def State.bedTraceAt (s : State) (fn off : Nat) : Loc :=
  let bed := fn - 1
  if off < 0x100 then .ofReg? (regAt .trace fn off)
  else if off < 0x200 then .ofReg? (regAt .ctr (32 + bed) (off - 0x100))
  else if off < 0x400 then .nothing
  else if off < 0x1000 then
    match (s.regionsOf bed)[(off - 0x400) / 0x40]? with
    | some r => if (off - 0x400) % 0x40 ≤ 0x34 then .mirror? (regAt .rgn r (0x1000 + (off - 0x400) % 0x40)) else .nothing
    | none => .nothing
  else if off < 0x2000 && bitSet (s.fget F.CTR_GRANT_BEDS 0) bed then
    .mirror? (regAt .ctr (16 + (off - 0x1000) / 0x100) ((off - 0x1000) % 0x100))
  else .nothing

/-- BAR0 of a virtual function (R63). -/
def State.vfBar0 (s : State) (fn off : Nat) : Loc :=
  let bed := fn - 1
  if off < 0x1000 then (if off < 8 then .mirror? (regAt .frameTime 0 off) else .nothing)
  else if off < 0x2000 then .mirror? (regAt .ident 0 (off - 0x1000))
  else if off < 0x6000 then engineAt fn off
  else match off / 0x10000 with
    | 0x1 => .ofReg? (regAt .sesBed bed (off % 0x10000))
    | 0x2 => .ofReg? (regAt .sch bed (off % 0x10000))
    | 0x3 => .ofReg? (regAt .lx bed (off % 0x10000))
    | 0x4 => .ofReg? (regAt .kv bed (off % 0x10000))
    | 0x5 => .ofReg? (regAt .intake bed (off % 0x10000))
    | 0x6 => .ofReg? (regAt .smp bed (off % 0x10000))
    | 0x7 => .ofReg? (regAt .tier bed (off % 0x10000))
    | 0x8 => .ofReg? (regAt .search bed (off % 0x10000))
    | 0x9 => .ofReg? (regAt .exp bed (off % 0x10000))
    | 0xA => .ofReg? (regAt .ck bed (off % 0x10000))
    | 0xB => .ofReg? (regAt .secBed bed (off % 0x10000))
    | 0xC => .ofReg? (regAt .fltBed bed (off % 0x10000))
    | 0xD => s.bedTraceAt fn (off % 0x10000)
    | _ => .nothing

/-- BAR2 of a function (R64). -/
def bar2 (fn off : Nat) : Loc :=
  if off < 0x1000 then .ofReg? (regAt .mailbox fn off)
  else if off < 0x2000 then .nothing
  else if off < 0x2400 then
    if (off - 0x2000) / 4 < ringMax fn then .reg ⟨.RING_DOORBELL, fn, (off - 0x2000) / 4⟩ else .nothing
  else if off < 0x10000 then .nothing
  else if off < 0x20000 then .sram (off - 0x10000)
  else .nothing

/-- What an access reaches (R61). An offset that is no multiple of 4 is outside R10 and reaches no register (log entry 50); ring
SRAM is reached at any offset (R64). -/
def State.locate (s : State) (a : Access32) : Loc :=
  match a.bar with
  | .bar0 => if a.off % 4 != 0 then .nothing else if a.fn.val = 0 then pfBar0 a.off else s.vfBar0 a.fn a.off
  | .bar2 => if a.off % 4 != 0 && a.off < 0x10000 then .nothing else bar2 a.fn a.off

/-- A function whose TDI is in RUN takes only requests with the T bit on the bound stream (R447). -/
def State.admits (s : State) (a : Access32) : Bool :=
  match bedOf a.fn with
  | some b => s.tdi b != 2 || a.tbit
  | none => true

/-! ## What a register shows -/

/-- The KV frames a Bed holds (R223), those that only a snapshot holds among them (R220). -/
def State.kvFrames (s : State) (bed : Nat) : Nat :=
  let own := ((s.kv.seqs.filter fun q => q.bed == bed).map fun q => q.leaves.map fun l => l.frame).flatten
  let nodes := ((s.kv.nodes.filter fun n => n.bed == bed).map fun n => n.frames.map fun f => f.1).flatten
  let snaps := ((s.kv.snaps.filter fun x => x.seq.bed == bed).map fun x => x.seq.leaves.map fun l => l.frame).flatten
  (own ++ nodes ++ snaps).eraseDups.length

/-- Current tables of a kind that a Bed holds (R250). -/
def State.tablesCurrent (s : State) (bed kind : Nat) : Nat :=
  (s.intake.tables.filter fun t => t.bed == bed && t.kind == kind && t.current).length

/-- HEAD and TAIL of the Furrow that SMP_FUR_SEL names; zero unless the Bed owns it (R275). -/
def State.furState (s : State) (bed : Nat) : Nat :=
  match (s.furrow? (s.rdN .SMP_FUR_SEL bed)).filter fun f => f.bed == bed with
  | some f => f.head + f.tail * 2 ^ 16
  | none => 0

/-- The ft left of the rebuild window (R112, R120). -/
def State.rebuildLeft (s : State) : Nat :=
  match s.ses.rebuildUntil with
  | some t => if ftLater t s.now then (t - s.now).toNat / ftUnit else 0
  | none => 0

/-- Extents of a port in a state. -/
def State.extentsIn (s : State) (port : Nat) (st : ExtState) : Nat :=
  (s.tiers.extents.filter fun e => e.port == port && e.state == st).length

/-- Walkers of a die that hold a query (R350). -/
def State.walkersBusy (s : State) (q : Nat) : Nat :=
  ((List.range 4).map fun w => if s.queriesAt q w = 0 then 0 else 2 ^ w).sum

/-- The number that a register shows where it is a view of other state; none where it shows what it stores. -/
def State.view (s : State) (r : Reg) : Option Nat :=
  let i := r.inst
  match r.name with
  | .FT_NOW_LO => some (s.now.toNat % 2 ^ 32)
  | .FT_NOW_HI => some (s.now.toNat / 2 ^ 32)
  | .FT_REPLICA_STATUS => some s.replicaStatus
  | .JRN_NEWEST_SEQ => some s.keep.jNewest.toNat
  | .JRN_OLDEST_SEQ => some (s.keep.jNewest + 1 - BitVec.ofNat 32 s.keep.jHeld).toNat
  | .SES_USE_DIR => some (s.useDir i)
  | .SES_USE_LIVE => some (s.useLive i)
  | .SES_HOME_COUNT => some (s.ses.entries.filter fun e => e.isHome).length
  | .SES_OWNER_COUNT => some (s.ses.entries.filter fun e => e.isOwner).length
  | .SES_REBUILD_LEFT => some s.rebuildLeft
  | .SES_MAP_VERSION => some (match s.ses.map with | some m => m.version.toNat | none => 0)
  | .SES_LEASE => some (match s.ses.map with | some m => m.lease | none => 0)
  | .SCH_PROFILES => some ((s.profilesOf i).length + s.shareUsed i * 2 ^ 16)
  | .LX_GRAFT_USE => some (s.graftsOf i)
  | .KV_CTRL => some (s.fget F.KV_CTRL_PRUNE_ENABLE i * 4 + s.fget F.SEC_BED_REGIONS_TABLE_GRANULE 0 i)
  | .KV_RANGES => some (s.kv.seqs.filter fun q => q.bed == i).length
  | .KV_PFX_NODES => some (s.kv.nodes.filter fun n => n.bed == i).length
  | .KV_FRAMES => some (s.kvFrames i)
  | .KV_PLOTS => some (s.plotsOf i)
  | .RGN_PW_FREE_PLOTS => some (s.freePlots i)
  | .IN_TABLES => some (s.tablesCurrent i 1 + s.tablesCurrent i 2 * 2 ^ 8 + s.tablesCurrent i 3 * 2 ^ 16)
  | .DS_TOK_CONTEXTS => some (4096 - s.ctxUsed i)
  | .SMP_FUR_STATE => some (s.furState i)
  | .SMP_GRAMMARS => some (s.intake.tables.filter fun t => t.bed == i && t.kind == 4).length
  | .TIER_USE_NEAR => some (s.plotsOf i + s.stagedPlots i)
  | .TIER_USE_CXL => some (s.useCxl i)
  | .TIER_USE_MULCH => some (s.useMulch i)
  | .TIER_QUEUE => some (min 0xFFFF (s.tiers.moves.filter fun m => m.bed == i).length)
  | .CXL_EXTENTS => some (s.extentsIn i .active + s.extentsIn i .draining * 2 ^ 16)
  | .FL_FREE_BLOCKS => some ((s.flashCtl i).freeList 0).length
  | .FL_STALE_BLOCKS => some (s.flashCtl i).stale.length
  | .FL_POOLS => some ((s.flashCtl i).sparesLeft + (s.flashCtl i).retired.length * 2 ^ 16)
  | .FL_LOG => some (s.flashCtl i).logFree
  | .FL_ERASE => some (min 0xFFFF (s.flashCtl i).eraseMin + min 0xFFFF (s.flashCtl i).eraseMax * 2 ^ 16)
  | .FL_ERASE_MEAN => some ((s.flashCtl i).meanErases % 2 ^ 16)
  | .FL_MAPPED => some (s.lbMapped i)
  | .FL_DISCARD_PENDING => some (((s.flashCtl i).releases.map fun x => x.left.length).sum)
  | .VS_INDEXES => some (s.vs.versions.filter fun v => v.bed == i && v.current).length
  | .DS_GW_BUSY => some (s.walkersBusy i)
  | .DS_GW_INFLIGHT => some (s.queriesOn i).length
  | .EXP_COUNTS => some ((s.exp.exports.filter fun e => e.bed == i).length +
      (s.exp.names.filter fun n => n.bed == i).length * 2 ^ 16)
  | .EXP_LINES_HELD => some (((s.exp.exports.filter fun e => e.bed == i).map fun e => e.held.length).sum)
  | .CK_STATE => some (s.ckState i)
  | .CK_SHARDS_KEPT => some (s.shardsKept i)
  | .SEC_BED_STATE => some ((s.rd r).toNat - s.fget F.SEC_BED_STATE_TRANSITION i * 2 +
      if s.moving fun t => t.beds.contains i then 2 else 0)
  | .SEC_BED_REGIONS => some (s.rdN .SEC_BED_REGIONS_TABLE 0 i)
  | .FLT_STATE => some s.fltState
  | .FLT_UNITS_FENCED => some s.unitsFenced
  | .FLT_UNIT_MAP => some (s.unitMap r.idx)
  | .FLT_BED_STATE => some (s.fltBedState i)
  | _ => none

/-- Registers whose value the spec leaves to a sensor, or to the choice of an engine: HUB_VIN, HUB_POWER, HUB_POWER_PEAK,
HUB_TEMP_k, and DS_TOK_BUSY while one to three engines of a die run (R507, R241, log entry 47). -/
def State.freeView (s : State) (r : Reg) : Bool :=
  match r.name with
  | .HUB_VIN | .HUB_POWER | .HUB_POWER_PEAK | .HUB_TEMP => true
  | .DS_TOK_BUSY => s.intake.submits.any fun u => u.begun && u.text.isSome &&
      (s.seq? u.sid).any fun q => dieOf q.region == r.inst
  | _ => false

/-- The fields of a register that are not write-only: a WO field reads as zero (R13). -/
def RN.readMask (n : RN) : W32 := n.maskOf fun i => i.acc != .wo

/-- What a read of a register returns (R13), and the free value it may draw. -/
def State.shown (s : State) (r : Reg) : W32 × State :=
  if s.freeView r then
    let x := s.draw 47
    (lo32 x.1.toNat &&& r.name.readMask, x.2)
  else match s.view r with
    | some v => (BitVec.ofNat 32 v &&& r.name.readMask, s)
    | none => (s.rd r &&& r.name.readMask, s)

/-- Four bytes of the directory window: eight entries of 64 bytes in each bucket, a free entry reading as zero (R95, R120). -/
def State.windowRead (s : State) (off : Nat) : W32 :=
  let bucket := s.rdN .SES_DIR_WIN 0 * 32768 + off / 512
  let slot := off % 512 / 64
  match s.ses.entries.find? fun e => dirBucket e.sid == bucket && e.dslot == slot with
  | some e => BitVec.ofNat 32 (bytesAt (entryBytes e) (off % 64) 4)
  | none => 0

/-- In the safe state a read reaches the identity block, FT_NOW and the fault collector (R463). -/
def safeReadable (r : Reg) : Bool :=
  match r.name.place.blk with
  | .ident | .flt => true
  | _ => r.name == .FT_NOW_LO || r.name == .FT_NOW_HI

end Sys2Proof.Machine
end

