-- ==== Sys2Proof/Machine/RegAccess.lean ====
section
/-! DEFINITION. Register accesses of the host: reads with their latches, writes of the two halves of a pair, write-1-to-clear,
interrupt enables and plain writes (R10 to R14, R82). -/

namespace Sys2Proof.Machine

/-! ## Reads (R12, R13) -/

/-- The value a read returned. -/
def State.answerRead (s : State) (v : W32) : State := { s with bus := { s.bus with readData := v } }

/-- The read latch of a pair for a function; setting it empties or fills it. -/
def State.setLatch (s : State) (k : PairKey) (v : Option W32) : State :=
  let l := s.bus.latches.filter fun x => x.1 != k
  { s with bus := { s.bus with latches := match v with | some w => (k, w) :: l | none => l } }

/-- The held lower half of a pair for a function. -/
def State.setHeld (s : State) (k : PairKey) (v : Option W32) : State :=
  let l := s.bus.held.filter fun x => x.1 != k
  { s with bus := { s.bus with held := match v with | some w => (k, w) :: l | none => l } }

/-- The latched upper half of a pair. -/
def State.latched (s : State) (k : PairKey) : Option W32 := (s.bus.latches.find? fun x => x.1 == k).map fun x => x.2

/-- The held lower half of a pair. -/
def State.heldHalf (s : State) (k : PairKey) : Option W32 := (s.bus.held.find? fun x => x.1 == k).map fun x => x.2

/-- The read-clear fields of a register. -/
def RN.rcMask (n : RN) : W32 := n.maskOf fun i => i.acc == .rc

/-- Read a register (R12, R13): the lower register of a pair fills the read latch with the upper half, the upper one returns and
empties it, and a read-clear field clears. -/
def State.readReg (s : State) (fn : Nat) (r : Reg) (clear : Bool) : State :=
  match r.name.upper, r.name.lower with
  | some h, _ =>
    let x := s.shown r
    let y := x.2.shown { r with name := h }
    (y.2.setLatch ⟨fn, r⟩ (some y.1)).answerRead x.1
  | none, some l =>
    let k : PairKey := ⟨fn, { r with name := l }⟩
    match s.latched k with
    | some v => (s.setLatch k none).answerRead v
    | none => let x := s.shown r; x.2.answerRead x.1
  | none, none =>
    let x := s.shown r
    let m := r.name.rcMask
    let s := x.2.answerRead x.1
    if clear && m != 0 then s.wr r (s.rd r &&& ~~~m) else s

/-- A read of an offset by a function. A read through a read-only mirror does not clear read-clear fields: the spec says only
"read-only mirror", and this is the model's DESIGN CHOICE (R13, log entry 106). In the safe state most registers read as zero (R463). A read that the TDI's RUN state turns
away returns no data: the value last returned stays (R447). -/
def State.regRead (s : State) (a : Access32) : State :=
  if !s.admits a then s else
  match s.locate a with
  | .reg r => if s.flt.safe && !safeReadable r then s.answerRead 0 else s.readReg a.fn r true
  | .mirror r => if s.flt.safe && !safeReadable r then s.answerRead 0 else s.readReg a.fn r false
  | .window off => s.answerRead (if s.flt.safe then 0 else s.windowRead off)
  | .sram off =>
    s.answerRead (if s.flt.safe then 0 else BitVec.ofNat 32 (leNat (Mem.readBytes s.mem.sram (sramAddr a.fn off) (min 4 (65536 - off)))))
  | .nothing => s.answerRead 0

/-- PAIR_LOWER_READ (R12). -/
def State.pairLowerRead (s : State) (a : Access32) : State := s.regRead a

/-- RC_READ (R13, R14): what hardware sets in the cycle of the read is kept. -/
def State.rcRead (s : State) (a : Access32) (set : W32) : State :=
  let t := s.regRead a
  match s.locate a with
  | .reg r =>
    let m := r.name.rcMask
    if m = 0 || (s.flt.safe && !safeReadable r) || !s.admits a then t else t.wr r ((t.rd r &&& ~~~m) ||| (set &&& m))
  | _ => t

/-! ## Writes -/

/-- What a write by a function reaches (R447, R463); nothing in the safe state. -/
def State.writeTo (s : State) (a : Access32) : Loc := if s.flt.safe || !s.admits a then .nothing else s.locate a

/-- The fields that a write may set: RW and WO. -/
def RN.writeMask (n : RN) : W32 := n.maskOf fun i => i.acc == .rw || i.acc == .wo

/-- PAIR_LOWER_WRITE (R12): the half is held for the function. -/
def State.pairLowerWrite (s : State) (a : Access32) (v : W32) : State :=
  match s.writeTo a with
  | .reg r => if r.name.upper.isSome && r.name.writeMask != 0 then s.setHeld ⟨a.fn, r⟩ (some v) else s
  | _ => s

/-- Both halves of a pair are committed. A commit of FT_HOST is R48's; TRC_BASE is written only while KINDS is 0 (R490). -/
def State.commitPair (s : State) (lo : Reg) (hi : RN) (v : Nat) : State :=
  match lo.name with
  | .FT_HOST_LO => s.ftHostCommit (BitVec.ofNat 64 v)
  | .TRC_BASE_LO => if s.fget F.TRC_CTRL_KINDS lo.inst = 0 then s.wr64 lo.name hi v lo.inst lo.idx else s
  | _ => s.wr64 lo.name hi v lo.inst lo.idx

/-- PAIR_UPPER_WRITE (R12): commits the held lower half, or else the current one, with the upper half. -/
def State.pairUpperWrite (s : State) (a : Access32) (v : W32) : State :=
  match s.writeTo a with
  | .reg r =>
    match r.name.lower with
    | some l =>
      if r.name.writeMask = 0 then s else
        let lo : Reg := { r with name := l }
        let low := (s.heldHalf ⟨a.fn, lo⟩).getD (s.rd lo)
        (s.setHeld ⟨a.fn, lo⟩ none).commitPair lo r.name (low.toNat + 2 ^ 32 * v.toNat)
    | none => s
  | _ => s

/-- W1C_WRITE (R82): `hw` are the bits that hardware sets in the same cycle. -/
def State.w1cWrite (s : State) (a : Access32) (v hw : W32) : State :=
  match s.writeTo a with
  | .reg r => if (r.name.maskOf fun i => i.acc == .w1c) = 0 then s else s.w1c r v hw
  | _ => s

/-- The status register that an enable register governs (R82). -/
def Reg.governed (r : Reg) : Option Reg :=
  match r.name with
  | .IF_INT_ENABLE => some { r with name := .IF_INT_STATUS }
  | .FLT_ENABLE => some { r with name := .FLT_STATUS }
  | .HUB_PWR_ENABLE => some { r with name := .HUB_PWR_STATUS }
  | _ => none

/-- INT_ENABLE_WRITE (R82): the enable is set, and an enabled bit that reads 1 signals at once. -/
def State.intEnableWrite (s : State) (a : Access32) (v : W32) : State :=
  match s.writeTo a with
  | .reg r =>
    match r.governed with
    | some st =>
      let m := r.name.writeMask
      (s.wr r ((s.rd r &&& ~~~m) ||| (v &&& m))).resignal st
    | none => s
  | _ => s

/-- Fields whose write has a row of its own in the command table; the plain write leaves them. -/
def ownFields : List Fld :=
  [F.FT_CTRL_SOURCE, F.FT_CTRL_STEP_NOW, F.RGN_CLK_CTRL_GATE_REQ, F.MB_DOORBELL_GO, F.RING_DOORBELL_SQ_TAIL,
   ⟨.IF_INT_ENABLE, 31, 0⟩, ⟨.FLT_ENABLE, 31, 0⟩, ⟨.HUB_PWR_ENABLE, 31, 0⟩, F.KV_PFX_CTRL_ENABLE, ⟨.SMP_FUR_HEAD, 31, 0⟩,
   F.CXL_CTRL_ENABLE, ⟨.CXL_HDM_CTRL, 31, 0⟩, F.CXL_IO_CTRL_GO, F.RGN_MEM_CTRL_SPARE_NOW, F.PLW_CTRL_ENABLE,
   F.FLT_FIRST_ARM_ARM, F.FLT_BED_FIRST_ARM_ARM, F.FLT_INJECT_GO, F.CTR_CTRL_CLEAR, F.CTR_CTRL_RUN, ⟨.CTR_GLOBAL_CMD, 31, 0⟩,
   F.CTR_GRANT_BEDS, ⟨.TRC_HEAD, 31, 0⟩, ⟨.HUB_RESET_CTRL, 31, 0⟩, F.HUB_REGION_RESET_REGIONS]

/-- The fields that a plain write sets in a register, before the conditions of its chapter. The halves of a pair have rows of
their own. -/
def RN.plainMask (n : RN) : W32 :=
  if n.upper.isSome || n.lower.isSome then 0 else
    let own := ownFields.foldl (fun m f => if f.reg == n then m ||| f.mask else m) 0
    n.writeMask &&& ~~~own

/-- Those fields under the conditions of the chapters: R284 and R303 (HDM), R223 (bucket count), R382 (node), R490 (a virtual
function's trace and counter registers). -/
def State.plainFields (s : State) (r : Reg) : W32 :=
  let m := r.name.plainMask
  match r.name with
  | .CXL_HDM_BASE | .CXL_HDM_SIZE => if s.hdmOn r.inst r.idx then 0 else m
  | .KV_PFX_CTRL => if s.fget F.KV_PFX_CTRL_ENABLE r.inst = 1 then m &&& ~~~F.KV_PFX_CTRL_LOG2_BUCKETS.mask else m
  | .PLW_NODE => if (List.range 8).any fun p => s.fget F.PLW_CTRL_ENABLE p == 1 then 0 else m
  | .TRC_CTRL => if r.inst = 0 then m else m &&& 0x113
  | .CTR_SEL => if r.inst < 32 then m else m &&& ~~~(F.CTR_SEL_BED.mask ||| F.CTR_SEL_BED_EN.mask)
  | _ => m

/-- The class of a Plowald register whose writes are journalled (R87, R381, R382): 1 of a port, 2 fabric-wide; none otherwise. -/
def plwClass : RN → Option Nat
  | .PLW_CTRL | .PLW_OVERHEAD | .PLW_SHAPE_RATE | .PLW_SHAPE_BURST | .PLW_POLICE_RATE | .PLW_POLICE_BURST => some 1
  | .PLW_NODE | .PLW_GCTRL | .PLW_ROUTE => some 2
  | _ => none

/-- What follows a plain write: the journal entry of a link setting (R381, R382), and the room that a head of a completion queue
gives back (R76). A HEAD written equal to CQ.TAIL says that every completion was consumed, also while the queue was full: DESIGN
CHOICE, the spec tells the two readings apart nowhere (log entry 106). -/
def State.afterWrite (s : State) (r : Reg) (old : W32) : State :=
  match plwClass r.name with
  | some cls =>
    let p := r.name.place
    s.journal (s.plwEntry cls r.inst (p.off + p.stride * r.idx) old (s.rd r))
  | none =>
    if r.name == .RING_CQ then
      let n := s.ringSize r.inst r.idx
      let left := (s.fget F.RING_CQ_TAIL r.inst r.idx + n - s.fget F.RING_CQ_HEAD r.inst r.idx % n) % n
      s.updRing r.inst r.idx fun q => { q with unread := left }
    else s

/-- Write the plain fields of a register. -/
def State.plainWrite (s : State) (r : Reg) (v : W32) : State :=
  let m := s.plainFields r
  if m = 0 then s else
    let old := s.rd r
    (s.wr r ((old &&& ~~~m) ||| (v &&& m))).afterWrite r old

/-- REGISTER_WRITE (R11, R13): the fields without behaviour of their own are set by their access type; a write of ring SRAM is a
write of four of its bytes from any offset, as far as it ends (R64); where no register stands the write is discarded. -/
def State.registerWrite (s : State) (a : Access32) (v : W32) : State :=
  match s.writeTo a with
  | .reg r => s.plainWrite r v
  | .sram off => { s with mem := { s.mem with sram := Mem.writeBytes s.mem.sram (sramAddr a.fn off) ((leBytes 4 v.toNat).take (65536 - off)) } }
  | _ => s

end Sys2Proof.Machine
end

