-- ==== Sys2Proof/Machine/Keep.lean ====
section
/-! DEFINITION. KEEP_STORE_PROGRAM: waiting records are programmed together, and the changes that waited for them take effect (R88,
R325, R326). -/

namespace Sys2Proof.Machine

/-- The second half of a command whose records are durable (R88). -/
def State.commandDone (s : State) (d : Desc) (bs : List Byte) (aux : Nat) : State :=
  match d.opcode.toNat with
  | 0x0109 => s.sesSetLimitDone d
  | 0x010A => s.sesMapLoadDone d bs
  | 0x0200 => s.profileLoadDone d bs
  | 0x0201 => s.profileUnloadDone d
  | 0x0301 => s.graftDropDone d
  | 0x0304 => s.groupSetDone d
  | 0x0305 => s.graftQuotaDone d
  | 0x0502 => s.tableUnloadDone d aux (dArg d 50 2)
  | 0x0605 => s.tableUnloadDone d 4 (dArg d 48 2)
  | 0x0700 => s.tierQuotaDone d
  | 0x0703 => s.extentAddDone d
  | 0x0704 => s.extentReleaseDone d
  | 0x0901 => s.vsUnloadDone d
  | 0x0904 => s.vsShareDone d
  | 0x0A00 => s.plwKeyLoadDone d bs
  | 0x0A01 => s.plwKeySendDone d
  | 0x0A02 => s.plwKeyDropDone d
  | 0x0B07 => s.expPublishDone d bs
  | 0x0B08 => s.expWithdrawDone d aux
  | 0x0C05 => s.freeStored d
  | 0x0C06 => s.ckRegroupDone d bs
  | 0x0D00 => s.secOwnerEnrollDone d bs
  | 0x0D02 => s.secPartitionResetDone d aux
  | _ => s

/-- The second half of a load, in the near memory taken for it. -/
def State.loadDone (s : State) (d : Desc) (bs : List Byte) (near : List Nat) (area : Option Nat) : State :=
  match d.opcode.toNat with
  | 0x0300 => s.graftLoadDone d bs near
  | 0x0501 | 0x0604 => s.tableLoadDone d bs near
  | 0x0900 => s.vsPublishDone d bs near area
  | 0x0C02 => s.ckGraftDone d bs near
  | _ => s

/-- The effect that waited for records to be durable. -/
def State.effect (s : State) : Effect → State
  | .note => s
  | .cmd d bs aux => s.commandDone d bs aux
  | .load d bs near area => s.loadDone d bs near area
  | .complete d st res => s.complete d st res.toNat
  | .reg r m v => s.wr r ((s.rd r &&& ~~~m) ||| (v &&& m))
  | .linkCtl r v => if r.name == .CXL_CTRL then s.cxlEnableDone r.inst v else s.hdmDone r v
  | .bundleLoad d b => s.bundleStart d b
  | .bundleApply d b => s.bundleDone d b
  | .zeroize d => s.zeroizeDone d
  | .shardDone bed ckpt => s.shardDurable bed ckpt
  | .manifestDone bed => s.manifestDurable bed
  | .bedRestart bed => s.bedRestarted bed

/-- The records and the journal entries of one change are programmed. -/
def State.programItem (s : State) (i : KeepItem) : State :=
  i.journal.foldl (fun s e => (s.journalPut e).chainLoad e) (s.keepPuts i.writes)

/-- A change that holds nothing but fault records: the safe state still writes those (R463). -/
def faultItem (i : KeepItem) : Bool :=
  i.eff == .note && i.journal.isEmpty && !i.writes.isEmpty && i.writes.all fun w => w.typ == 0x0020

/-- KEEP_STORE_PROGRAM (R326): the waiting changes become durable and take effect in order. -/
def State.keepProgram (s : State) : State :=
  if !s.keep.ready then s else
    let now := if s.flt.safe then s.keep.queue.filter faultItem else s.keep.queue
    let later := if s.flt.safe then s.keep.queue.filter fun i => !faultItem i else []
    if now.isEmpty then s else
      let s := State.keepBatch { s with keep := { s.keep with queue := later } }
      let s := now.foldl (fun s i => s.programItem i) s
      now.foldl (fun s i => s.effect i.eff) s

end Sys2Proof.Machine
end

