-- ==== Sys2Proof/Machine/RowOps.lean ====
section
/-! DEFINITION. What every row of the command table is wrapped in: power, the safe state, and the start of a descriptor; and rows that
several chapters share. -/

namespace Sys2Proof.Machine

/-- An effect on everything but the queue of waiting commands. -/
def State.apart (s : State) (f : State → State) : State := { f s with pending := s.pending }

/-- Something happens only while the supply is on. -/
def State.supplied (s : State) (f : State → State) : State := if s.pow.supply = .on then s.apart f else s

/-- Something happens only while the device is on and not held in reset (R503). -/
def State.awake (s : State) (f : State → State) : State := if s.powered then s.apart f else s

/-- Something that the safe state stops (R463). -/
def State.live (s : State) (f : State → State) : State := if s.powered && !s.flt.safe then s.apart f else s

/-- The row of an opcode: its descriptor runs unless it may not start yet (R83). -/
def State.command (s : State) (d : Desc) (f : State → State) : State := s.awake fun s => s.runCmd d f

/-- IMG_RESEND_TIMER (R379, R407): a copy is sent again from the last offset acknowledged. -/
def State.copyResend (s : State) : CopyKey → State
  | .image sid => s.imgResend sid
  | .shard dest ckpt bed => s.ckResend dest ckpt bed

/-- IMG_GIVE_UP (R379, R407). -/
def State.copyGiveUp (s : State) : CopyKey → State
  | .image sid => s.imgGiveUp sid
  | .shard dest ckpt bed => s.ckGiveUp dest ckpt bed

/-- MOVE_PIECE (R290): a piece of a handoff makes more of it ready to send (R379). -/
def State.pieceRow (s : State) (ix : Nat) : State :=
  let t := s.movePiece ix
  match s.tiers.moves.find? fun m => m.ix == ix with
  | some m => match m.what with
    | .handoff sid _ => t.handoffPiece sid
    | _ => t
  | none => t

end Sys2Proof.Machine
end

