-- ==== Sys2Proof/Machine/RowsBringup.lean ====
section
/-! DEFINITION. The meanings of the commands: supply, temperature, reset and links. Each is one row of the command table. -/

namespace Sys2Proof.Machine

/-- POWER_ON (R495). -/
def execPowerOn (s : State) : Host.Outcome State Fault Refusal :=
  .next (s.apart fun s => s.powerOn)

/-- POWER_ON_RESET_RELEASE (R504). -/
def execPowerOnResetRelease (strap : Nat) (s : State) : Host.Outcome State Fault Refusal :=
  .next (s.apart fun s => s.powerOnRelease strap)

/-- STACK_TRAINING_COMPLETE (R504). -/
def execStackTrainingComplete (mask : W16) (s : State) : Host.Outcome State Fault Refusal :=
  .next (s.live fun s => s.stackTraining mask.toNat)

/-- MEMORY_READY (R504). -/
def execMemoryReady (s : State) : Host.Outcome State Fault Refusal :=
  .next (s.live fun s => s.memoryReady)

/-- VIN_LOW (R495). -/
def execVinLow (s : State) : Host.Outcome State Fault Refusal :=
  .next (s.awake fun s => s.vinLow)

/-- VIN_HIGH (R495). -/
def execVinHigh (s : State) : Host.Outcome State Fault Refusal :=
  .next (s.awake fun s => s.vinHigh)

/-- VIN_OVERVOLTAGE (R495). -/
def execVinOvervoltage (s : State) : Host.Outcome State Fault Refusal :=
  .next (s.supplied fun s => s.vinOver)

/-- POWER_LOSS (R497). -/
def execPowerLoss (s : State) : Host.Outcome State Fault Refusal :=
  .next (s.apart fun s => s.powerLoss)

/-- THERMAL_WARNING (R498). -/
def execThermalWarning (cls : Fin 4) (sensor : Byte) (s : State) : Host.Outcome State Fault Refusal :=
  .next (s.awake fun s => s.thermalWarning cls sensor.toNat)

/-- THERMAL_SHUTDOWN (R498). -/
def execThermalShutdown (s : State) : Host.Outcome State Fault Refusal :=
  .next (s.supplied fun s => s.thermalShutdown)

/-- DEVICE_RESET (R505). -/
def execDeviceReset (s : State) : Host.Outcome State Fault Refusal :=
  .next (s.apart fun s => s.resetInputHigh)

/-- HUB_RESET_CTRL (R503). -/
def execHubResetCtrl (v : W32) (s : State) : Host.Outcome State Fault Refusal :=
  .next (s.live fun s => s.hubResetCtrl v)

/-- HUB_REGION_RESET (R505). -/
def execHubRegionReset (mask : W16) (s : State) : Host.Outcome State Fault Refusal :=
  .next (s.live fun s => s.hubRegionReset mask.toNat)

/-- PERST (R503). -/
def execPerst (s : State) : Host.Outcome State Fault Refusal :=
  .next (s.awake fun s => s.perstLow)

/-- CXL_LINK_UP (R303). -/
def execCxlLinkUp (port : Fin 4) (width : Nat) (rate : Nat) (s : State) : Host.Outcome State Fault Refusal :=
  .next (s.live fun s => s.cxlLinkUp port width rate)

/-- HOST_LINK_UP (R504). -/
def execHostLinkUp (s : State) : Host.Outcome State Fault Refusal :=
  .next (s.awake fun s => s.hostLinkUp)

/-- HOST_LINK_DOWN (R430). -/
def execHostLinkDown (s : State) : Host.Outcome State Fault Refusal :=
  .next (s.awake fun s => s.hostLinkDown)

/-- DEV_RESET_N_ASSERT (R503). -/
def execDevResetNAssert (s : State) : Host.Outcome State Fault Refusal :=
  .next (s.apart fun s => s.resetInputLow)

/-- THERMAL_WARNING_END (R498). -/
def execThermalWarningEnd (cls : Fin 4) (sensor : Byte) (s : State) : Host.Outcome State Fault Refusal :=
  .next (s.awake fun s => s.thermalEnd cls sensor.toNat)

end Sys2Proof.Machine
end

