-- ==== Sys2Proof/Machine/RowsCheckpointing.lean ====
section
/-! DEFINITION. The meanings of the commands: checkpoint and restore. Each is one row of the command table. -/

namespace Sys2Proof.Machine

/-- CK_ARM (R404). -/
def execCkArm (d : Desc) (s : State) : Host.Outcome State Fault Refusal :=
  .next (s.command d fun s => s.ckArm d)

/-- CK_START (R405). -/
def execCkStart (d : Desc) (s : State) : Host.Outcome State Fault Refusal :=
  .next (s.command d fun s => s.ckStart d)

/-- CK_RESTORE (R419). -/
def execCkRestore (d : Desc) (s : State) : Host.Outcome State Fault Refusal :=
  .next (s.command d fun s => s.ckRestore d)

/-- CK_RESTORE_COMMIT (R422). -/
def execCkRestoreCommit (d : Desc) (s : State) : Host.Outcome State Fault Refusal :=
  .next (s.command d fun s => s.ckRestoreCommit d)

/-- CK_RESTORE_CANCEL (R421). -/
def execCkRestoreCancel (d : Desc) (s : State) : Host.Outcome State Fault Refusal :=
  .next (s.command d fun s => s.ckCancel d)

/-- CK_SHARD_FREE (R414). -/
def execCkShardFree (d : Desc) (s : State) : Host.Outcome State Fault Refusal :=
  .next (s.command d fun s => s.ckShardFree d)

/-- CK_REGROUP (R424). -/
def execCkRegroup (d : Desc) (s : State) : Host.Outcome State Fault Refusal :=
  .next (s.command d fun s => s.ckRegroup d)

/-- CK_MANIFEST_READ (R417). -/
def execCkManifestRead (d : Desc) (s : State) : Host.Outcome State Fault Refusal :=
  .next (s.command d fun s => s.ckManifestRead d)

/-- CK_NOTICE (R405). -/
def execCkNotice (m : CkMsg) (s : State) : Host.Outcome State Fault Refusal :=
  .next (s.live fun s => s.ckNotice m)

/-- CK_PREPARE (R408). -/
def execCkPrepare (m : CkMsg) (s : State) : Host.Outcome State Fault Refusal :=
  .next (s.live fun s => s.ckPrepare m)

/-- CK_READY (R408). -/
def execCkReady (m : CkMsg) (s : State) : Host.Outcome State Fault Refusal :=
  .next (s.live fun s => s.ckReady m)

/-- CK_ABORT (R416). -/
def execCkAbort (m : CkMsg) (s : State) : Host.Outcome State Fault Refusal :=
  .next (s.live fun s => s.ckAbort m)

/-- CK_DONE (R415). -/
def execCkDone (m : CkMsg) (s : State) : Host.Outcome State Fault Refusal :=
  .next (s.live fun s => s.ckDone m)

/-- CK_COMMIT (R418). -/
def execCkCommit (m : CkMsg) (s : State) : Host.Outcome State Fault Refusal :=
  .next (s.live fun s => s.ckCommit m)

/-- CK_FETCH (R407). -/
def execCkFetch (m : CkMsg) (s : State) : Host.Outcome State Fault Refusal :=
  .next (s.live fun s => s.ckFetch m)

/-- CK_DATA (R407). -/
def execCkData (m : CkMsg) (s : State) : Host.Outcome State Fault Refusal :=
  .next (s.live fun s => s.ckData m)

/-- CK_DATA_ACK (R407). -/
def execCkDataAck (m : CkMsg) (s : State) : Host.Outcome State Fault Refusal :=
  .next (s.live fun s => s.ckDataAck m)

/-- CK_DATA_END (R407). -/
def execCkDataEnd (m : CkMsg) (s : State) : Host.Outcome State Fault Refusal :=
  .next (s.live fun s => s.ckDataEnd m)

/-- CK_CUT (R408). -/
def execCkCut (bed : Fin 16) (s : State) : Host.Outcome State Fault Refusal :=
  .next (s.live fun s => s.ckCut bed)

/-- SHARD_WRITE_COMPLETE (R414). -/
def execShardWriteComplete (bed : Fin 16) (s : State) : Host.Outcome State Fault Refusal :=
  .next (s.live fun s => s.shardWrite bed)

/-- CK_DEADLINE (R416). -/
def execCkDeadline (bed : Fin 16) (s : State) : Host.Outcome State Fault Refusal :=
  .next (s.live fun s => s.ckDeadline bed)

/-- CK_ORPHAN_TIMEOUT (R416). -/
def execCkOrphanTimeout (bed : Fin 16) (s : State) : Host.Outcome State Fault Refusal :=
  .next (s.live fun s => s.ckOrphan bed)

/-- CK_STAGE_TTL_EXPIRY (R421). -/
def execCkStageTtlExpiry (bed : Fin 16) (s : State) : Host.Outcome State Fault Refusal :=
  .next (s.live fun s => s.ckStageTtl bed)

/-- RESTORE_LAYER_RESIDENT (R423). -/
def execRestoreLayerResident (sid : W64) (readable : Bool) (s : State) : Host.Outcome State Fault Refusal :=
  .next (s.live fun s => s.restoreLayer sid readable)

end Sys2Proof.Machine
end

