-- ==== Sys2Proof/Machine/RowsExchanging.lean ====
section
/-! DEFINITION. The meanings of the commands: layer exchange, sampling and Grafts. Each is one row of the command table. -/

namespace Sys2Proof.Machine

/-- LX_LAYER (R175). -/
def execLxLayer (h : LxHdr) (payload : List Byte) (s : State) : Host.Outcome State Fault Refusal :=
  .next (s.live fun s => s.lxLayer h payload)

/-- LX_RETURN (R173). -/
def execLxReturn (sid : W64) (s : State) : Host.Outcome State Fault Refusal :=
  .next (s.live fun s => s.lxReturn sid)

/-- LX_LOGITS (R177). -/
def execLxLogits (h : LxHdr) (payload : List Byte) (s : State) : Host.Outcome State Fault Refusal :=
  .next (s.live fun s => s.lxLogits h payload)

/-- ENTRY_ABANDON (R176). -/
def execEntryAbandon (sid : W64) (s : State) : Host.Outcome State Fault Refusal :=
  .next (s.live fun s => s.entryAbandon sid)

/-- ENTRY_SAMPLING (R260). -/
def execEntrySampling (sid : W64) (s : State) : Host.Outcome State Fault Refusal :=
  .next (s.live fun s => s.entrySampling sid)

/-- PREFILL_CHUNK_COMPLETE (R134). -/
def execPrefillChunkComplete (sid : W64) (s : State) : Host.Outcome State Fault Refusal :=
  .next (s.live fun s => s.chunkComplete sid)

/-- GRAFT_LOAD (R181). -/
def execGraftLoad (d : Desc) (s : State) : Host.Outcome State Fault Refusal :=
  .next (s.command d fun s => s.graftLoad d)

/-- GRAFT_DROP (R187). -/
def execGraftDrop (d : Desc) (s : State) : Host.Outcome State Fault Refusal :=
  .next (s.command d fun s => s.graftDrop d)

/-- GRAFT_STOW (R186). -/
def execGraftStow (d : Desc) (s : State) : Host.Outcome State Fault Refusal :=
  .next (s.command d fun s => s.graftStow d)

/-- GRAFT_BIND (R187). -/
def execGraftBind (d : Desc) (s : State) : Host.Outcome State Fault Refusal :=
  .next (s.command d fun s => s.graftBind d)

/-- LX_GROUP_SET (R190). -/
def execLxGroupSet (d : Desc) (s : State) : Host.Outcome State Fault Refusal :=
  .next (s.command d fun s => s.groupSet d)

/-- GRAFT_QUOTA (R190). -/
def execGraftQuota (d : Desc) (s : State) : Host.Outcome State Fault Refusal :=
  .next (s.command d fun s => s.graftQuota d)

/-- GRAFT_QUERY (R190). -/
def execGraftQuery (d : Desc) (s : State) : Host.Outcome State Fault Refusal :=
  .next (s.command d fun s => s.graftQuery d)

/-- GRAFT_LAYER_RESIDENT (R186). -/
def execGraftLayerResident (bed : Fin 16) (id : W16) (s : State) : Host.Outcome State Fault Refusal :=
  .next (s.live fun s => s.graftLayerResident bed id.toNat)

end Sys2Proof.Machine
end

