-- ==== Sys2Proof/Machine/RowsFabric.lean ====
section
/-! DEFINITION. The meanings of the commands: Plowald Link and image transfer. Each is one row of the command table. -/

namespace Sys2Proof.Machine

/-- PLW_KEY_LOAD (R370). -/
def execPlwKeyLoad (d : Desc) (s : State) : Host.Outcome State Fault Refusal :=
  .next (s.command d fun s => s.plwKeyLoad d)

/-- PLW_KEY_SEND (R370). -/
def execPlwKeySend (d : Desc) (s : State) : Host.Outcome State Fault Refusal :=
  .next (s.command d fun s => s.plwKeySend d)

/-- PLW_KEY_DROP (R370). -/
def execPlwKeyDrop (d : Desc) (s : State) : Host.Outcome State Fault Refusal :=
  .next (s.command d fun s => s.plwKeyDrop d)

/-- PLW_ENABLE (R360). -/
def execPlwEnable (p : Fin 8) (on : Bool) (s : State) : Host.Outcome State Fault Refusal :=
  .next (s.live fun s => s.plwEnable p on)

/-- LANE_LOCK (R360). -/
def execLaneLock (p : Fin 8) (lanes : Byte) (s : State) : Host.Outcome State Fault Refusal :=
  .next (s.live fun s => s.laneLock p lanes.toNat)

/-- TRAIN_BLOCK (R361). -/
def execTrainBlock (p : Fin 8) (t : Train) (s : State) : Host.Outcome State Fault Refusal :=
  .next (s.live fun s => s.trainBlock p t)

/-- PORT_TRAINING_TIMEOUT (R360). -/
def execPortTrainingTimeout (p : Fin 8) (s : State) : Host.Outcome State Fault Refusal :=
  .next (s.live fun s => s.trainingTimeout p)

/-- LANE_LOST (R360). -/
def execLaneLost (p : Fin 8) (lanes : Byte) (allSignal : Bool) (s : State) : Host.Outcome State Fault Refusal :=
  .next (s.live fun s => s.laneLost p lanes.toNat allSignal)

/-- RETRAIN_RELOCK (R360). -/
def execRetrainRelock (p : Fin 8) (lanes : Byte) (s : State) : Host.Outcome State Fault Refusal :=
  .next (s.live fun s => s.relock p lanes.toNat)

/-- DOWN_RETRY (R360). -/
def execDownRetry (p : Fin 8) (s : State) : Host.Outcome State Fault Refusal :=
  .next (s.live fun s => s.downRetry p)

/-- FRAME_RECEIVE (R366). -/
def execFrameReceive (p : Fin 8) (f : Frame) (s : State) : Host.Outcome State Fault Refusal :=
  .next (s.live fun s => s.frameReceive p f)

/-- LINK_CONTROL_BLOCK (R364). -/
def execLinkControlBlock (p : Fin 8) (c : CtlBlock) (s : State) : Host.Outcome State Fault Refusal :=
  .next (s.live fun s => s.linkControl p c)

/-- LINK_CONTROL_SEND (R364). -/
def execLinkControlSend (p : Fin 8) (s : State) : Host.Outcome State Fault Refusal :=
  .next (s.live fun s => s.linkControlSend p)

/-- FRAME_SEND (R365). -/
def execFrameSend (p : Fin 8) (s : State) : Host.Outcome State Fault Refusal :=
  .next (s.live fun s => s.frameSend p)

/-- MESSAGE_SEND (R371). -/
def execMessageSend (s : State) : Host.Outcome State Fault Refusal :=
  .next (s.live fun s => s.messageSend)

/-- REASSEMBLY_TIMEOUT (R358). -/
def execReassemblyTimeout (p : Fin 8) (s : State) : Host.Outcome State Fault Refusal :=
  .next (s.live fun s => s.reassemblyTimeout p)

/-- QUEUE_SAMPLE (R377). -/
def execQueueSample (p : Fin 8) (s : State) : Host.Outcome State Fault Refusal :=
  .next (s.live fun s => s.queueSample p)

/-- IMG_DATA (R379). -/
def execImgData (m : ImgMsg) (s : State) : Host.Outcome State Fault Refusal :=
  .next (s.live fun s => s.imgData m)

/-- IMG_ACK (R379). -/
def execImgAck (m : ImgMsg) (s : State) : Host.Outcome State Fault Refusal :=
  .next (s.live fun s => s.imgAck m)

/-- IMG_RESEND_TIMER (R379). -/
def execImgResendTimer (k : CopyKey) (s : State) : Host.Outcome State Fault Refusal :=
  .next (s.live fun s => s.copyResend k)

/-- IMG_GIVE_UP (R379). -/
def execImgGiveUp (k : CopyKey) (s : State) : Host.Outcome State Fault Refusal :=
  .next (s.live fun s => s.copyGiveUp k)

end Sys2Proof.Machine
end

