-- ==== Sys2Proof/Machine/RowsFaultControl.lean ====
section
/-! DEFINITION. The meanings of the commands: faults and built-in tests. Each is one row of the command table. -/

namespace Sys2Proof.Machine

/-- FLT_LOG_READ (R471). -/
def execFltLogRead (d : Desc) (s : State) : Host.Outcome State Fault Refusal :=
  .next (s.command d fun s => s.fltLogRead d)

/-- FLT_UNIT_UNFENCE (R467). -/
def execFltUnitUnfence (d : Desc) (s : State) : Host.Outcome State Fault Refusal :=
  .next (s.command d fun s => s.fltUnitUnfence d)

/-- FLT_REGION_RECOVER (R467). -/
def execFltRegionRecover (d : Desc) (s : State) : Host.Outcome State Fault Refusal :=
  .next (s.command d fun s => s.fltRegionRecover d)

/-- UNIT_TEST_COMPLETE (R467). -/
def execUnitTestComplete (e : TestEnd) (s : State) : Host.Outcome State Fault Refusal :=
  .next (s.live fun s => s.unitTestComplete e)

/-- FAULT_DETECT (R458). -/
def execFaultDetect (f : Detect) (s : State) : Host.Outcome State Fault Refusal :=
  .next (s.live fun s => s.raise f)

/-- UNIT_WATCHDOG (R458). -/
def execUnitWatchdog (u : Fin 1024) (sid : W64) (s : State) : Host.Outcome State Fault Refusal :=
  .next (s.live fun s => s.unitWatchdog u sid)

/-- FLT_FIRST_ARM (R465). -/
def execFltFirstArm (v : W32) (s : State) : Host.Outcome State Fault Refusal :=
  .next (s.live fun s => s.fltFirstArm v)

/-- FLT_BED_FIRST_ARM (R473). -/
def execFltBedFirstArm (bed : Fin 16) (v : W32) (s : State) : Host.Outcome State Fault Refusal :=
  .next (s.live fun s => s.fltBedFirstArm bed v)

/-- FLT_INJECT (R472). -/
def execFltInject (v : W32) (s : State) : Host.Outcome State Fault Refusal :=
  .next (s.live fun s => s.fltInject v)

end Sys2Proof.Machine
end

