-- ==== Sys2Proof/Machine/RowsFlashTiering.lean ====
section
/-! DEFINITION. The meanings of the commands: flash controllers and the keep store. Each is one row of the command table. -/

namespace Sys2Proof.Machine

/-- FL_DISCARD_SYNC (R322). -/
def execFlDiscardSync (d : Desc) (s : State) : Host.Outcome State Fault Refusal :=
  .next (s.command d fun s => s.flDiscardSync d)

/-- FL_KEEP_READ (R329). -/
def execFlKeepRead (d : Desc) (s : State) : Host.Outcome State Fault Refusal :=
  .next (s.command d fun s => s.flKeepRead d)

/-- APPEND_LOG_PROGRAM (R317). -/
def execAppendLogProgram (c : Fin 8) (s : State) : Host.Outcome State Fault Refusal :=
  .next (s.live fun s => s.appendLogProgram c)

/-- COMPOST_COPY (R318). -/
def execCompostCopy (c : Fin 8) (s : State) : Host.Outcome State Fault Refusal :=
  .next (s.live fun s => s.compostCopy c)

/-- COMPOST_COPY_COMPLETE (R319). -/
def execCompostCopyComplete (c : Fin 8) (s : State) : Host.Outcome State Fault Refusal :=
  .next (s.live fun s => s.compostComplete c)

/-- FLASH_RAKE_PAGE (R321). -/
def execFlashRakePage (c : Fin 8) (corrected : Nat) (bad : Bool) (s : State) : Host.Outcome State Fault Refusal :=
  .next (s.live fun s => s.flashRakePage c corrected bad)

/-- FLASH_OP_FAILURE (R309). -/
def execFlashOpFailure (c : Fin 8) (phys : Nat) (s : State) : Host.Outcome State Fault Refusal :=
  .next (s.live fun s => s.flashOpFailure c phys)

/-- BLOCK_ERASE (R318). -/
def execBlockErase (c : Fin 8) (phys : Nat) (s : State) : Host.Outcome State Fault Refusal :=
  .next (s.live fun s => s.blockErase c phys)

/-- KEEP_STORE_LOAD (R326). -/
def execKeepStoreLoad (failed : List (Fin 8)) (s : State) : Host.Outcome State Fault Refusal :=
  .next (s.live fun s => s.keepStoreLoad (failed.map fun c => c.val))

end Sys2Proof.Machine
end

