-- ==== Sys2Proof/Machine/RowsHost.lean ====
section
/-! DEFINITION. The meanings of the commands: register accesses, the interface, rings, mailboxes and the keep store. Each is one row of the command table. -/

namespace Sys2Proof.Machine

/-- PAIR_LOWER_READ (R12). -/
def execPairLowerRead (a : Access32) (s : State) : Host.Outcome State Fault Refusal :=
  .next (s.awake fun s => s.pairLowerRead a)

/-- PAIR_LOWER_WRITE (R12). -/
def execPairLowerWrite (a : Access32) (v : W32) (s : State) : Host.Outcome State Fault Refusal :=
  .next (s.awake fun s => s.pairLowerWrite a v)

/-- PAIR_UPPER_WRITE (R12). -/
def execPairUpperWrite (a : Access32) (v : W32) (s : State) : Host.Outcome State Fault Refusal :=
  .next (s.awake fun s => s.pairUpperWrite a v)

/-- RC_READ (R13). -/
def execRcRead (a : Access32) (set : W32) (s : State) : Host.Outcome State Fault Refusal :=
  .next (s.awake fun s => s.rcRead a set)

/-- W1C_WRITE (R82). -/
def execW1cWrite (a : Access32) (v : W32) (hw : W32) (s : State) : Host.Outcome State Fault Refusal :=
  .next (s.awake fun s => s.w1cWrite a v hw)

/-- INT_ENABLE_WRITE (R82). -/
def execIntEnableWrite (a : Access32) (v : W32) (s : State) : Host.Outcome State Fault Refusal :=
  .next (s.awake fun s => s.intEnableWrite a v)

/-- REGISTER_WRITE (R13). -/
def execRegisterWrite (a : Access32) (v : W32) (s : State) : Host.Outcome State Fault Refusal :=
  .next (s.awake fun s => s.registerWrite a v)

/-- IF_OPEN (R79). -/
def execIfOpen (d : Desc) (s : State) : Host.Outcome State Fault Refusal :=
  .next (s.command d fun s => s.ifOpen d)

/-- IF_CLOSE (R77). -/
def execIfClose (d : Desc) (s : State) : Host.Outcome State Fault Refusal :=
  .next (s.command d fun s => s.ifClose d)

/-- RING_CREATE (R75). -/
def execRingCreate (d : Desc) (s : State) : Host.Outcome State Fault Refusal :=
  .next (s.command d fun s => s.ringCreate d)

/-- RING_DESTROY (R77). -/
def execRingDestroy (d : Desc) (s : State) : Host.Outcome State Fault Refusal :=
  .next (s.command d fun s => s.ringDestroy d)

/-- RING_DRAIN_COMPLETE (R77). -/
def execRingDrainComplete (fn : Fin 17) (r : Fin 256) (s : State) : Host.Outcome State Fault Refusal :=
  .next (s.live fun s => s.ringDrain fn r)

/-- NOP (R72). -/
def execNop (d : Desc) (s : State) : Host.Outcome State Fault Refusal :=
  .next (s.command d fun s => s.nopCmd d)

/-- JOURNAL_READ (R89). -/
def execJournalRead (d : Desc) (s : State) : Host.Outcome State Fault Refusal :=
  .next (s.command d fun s => s.journalRead d)

/-- MAILBOX_GO (R73). -/
def execMailboxGo (fn : Fin 17) (m : Fin 16) (s : State) : Host.Outcome State Fault Refusal :=
  .next (s.awake fun s => s.mailboxGo fn m)

/-- RING_DOORBELL (R76). -/
def execRingDoorbell (fn : Fin 17) (r : Fin 256) (v : W16) (s : State) : Host.Outcome State Fault Refusal :=
  .next (s.awake fun s => s.ringDoorbell fn r v.toNat)

/-- DESCRIPTOR_FETCH (R76). -/
def execDescriptorFetch (fn : Fin 17) (r : Fin 256) (s : State) : Host.Outcome State Fault Refusal :=
  .next (s.live fun s => s.descriptorFetch fn r)

/-- RING_IRQ_DELAY (R81). -/
def execRingIrqDelay (fn : Fin 17) (r : Fin 256) (s : State) : Host.Outcome State Fault Refusal :=
  .next (s.live fun s => s.ringIrqDelay fn r)

/-- FUNCTION_LEVEL_RESET (R78). -/
def execFunctionLevelReset (fn : Fin 17) (s : State) : Host.Outcome State Fault Refusal :=
  .next (s.awake fun s => s.functionReset fn)

/-- KEEP_STORE_PROGRAM (R326). -/
def execKeepStoreProgram (s : State) : Host.Outcome State Fault Refusal :=
  .next (s.awake fun s => s.keepProgram)

end Sys2Proof.Machine
end

