-- ==== Sys2Proof/Machine/RowsMemoryTier.lean ====
section
/-! DEFINITION. The meanings of the commands: memory tiers, CXL ports and stacks. Each is one row of the command table. -/

namespace Sys2Proof.Machine

/-- TIER_QUOTA (R301). -/
def execTierQuota (d : Desc) (s : State) : Host.Outcome State Fault Refusal :=
  .next (s.command d fun s => s.tierQuota d)

/-- TIER_HINT (R300). -/
def execTierHint (d : Desc) (s : State) : Host.Outcome State Fault Refusal :=
  .next (s.command d fun s => s.tierHint d)

/-- TIER_SET_QUERY (R301). -/
def execTierSetQuery (d : Desc) (s : State) : Host.Outcome State Fault Refusal :=
  .next (s.command d fun s => s.tierSetQuery d)

/-- CXL_EXTENT_ADD (R295). -/
def execCxlExtentAdd (d : Desc) (s : State) : Host.Outcome State Fault Refusal :=
  .next (s.command d fun s => s.extentAdd d)

/-- CXL_EXTENT_RELEASE (R296). -/
def execCxlExtentRelease (d : Desc) (s : State) : Host.Outcome State Fault Refusal :=
  .next (s.command d fun s => s.extentRelease d)

/-- CXL_EXTENT_LOST (R297). -/
def execCxlExtentLost (d : Desc) (s : State) : Host.Outcome State Fault Refusal :=
  .next (s.command d fun s => s.extentLost d)

/-- EXTENT_RELEASE_COMPLETE (R296). -/
def execExtentReleaseComplete (port : Fin 4) (ix : Nat) (s : State) : Host.Outcome State Fault Refusal :=
  .next (s.live fun s => s.extentFree port ix)

/-- MOVE_PIECE (R290). -/
def execMovePiece (ix : Nat) (s : State) : Host.Outcome State Fault Refusal :=
  .next (s.live fun s => s.pieceRow ix)

/-- MOVE_COMPLETE (R291). -/
def execMoveComplete (ix : Nat) (s : State) : Host.Outcome State Fault Refusal :=
  .next (s.live fun s => s.moveComplete ix)

/-- BACKING_EXPIRY (R293). -/
def execBackingExpiry (ix : Nat) (s : State) : Host.Outcome State Fault Refusal :=
  .next (s.live fun s => s.backingExpiry ix)

/-- CXL_LINK_DOWN (R297). -/
def execCxlLinkDown (port : Fin 4) (s : State) : Host.Outcome State Fault Refusal :=
  .next (s.live fun s => s.cxlLinkDown port)

/-- CXL_POISON_READ (R298). -/
def execCxlPoisonRead (port : Fin 4) (ix : Nat) (s : State) : Host.Outcome State Fault Refusal :=
  .next (s.live fun s => s.cxlPoison port ix)

/-- CXL_ENABLE (R303). -/
def execCxlEnable (port : Fin 4) (on : Bool) (s : State) : Host.Outcome State Fault Refusal :=
  .next (s.live fun s => s.cxlEnable port on)

/-- HDM_COMMIT (R284). -/
def execHdmCommit (port : Fin 4) (k : Fin 8) (on : Bool) (s : State) : Host.Outcome State Fault Refusal :=
  .next (s.live fun s => s.hdmCommit port k on)

/-- CXL_IO_GO (R303). -/
def execCxlIoGo (port : Fin 4) (v : W32) (s : State) : Host.Outcome State Fault Refusal :=
  .next (s.live fun s => s.cxlIoGo port v)

/-- CXL_IO_DONE (R303). -/
def execCxlIoDone (port : Fin 4) (result : Fin 4) (data : W32) (s : State) : Host.Outcome State Fault Refusal :=
  .next (s.live fun s => s.cxlIoDone port result data)

/-- CXL_DEVICE_EVENT (R303). -/
def execCxlDeviceEvent (port : Fin 4) (s : State) : Host.Outcome State Fault Refusal :=
  .next (s.live fun s => s.cxlDeviceEvent port)

/-- CXL_RAKE_BLOCK (R282). -/
def execCxlRakeBlock (port : Fin 4) (ix : Nat) (bad : Bool) (s : State) : Host.Outcome State Fault Refusal :=
  .next (s.live fun s => s.cxlRake port ix bad)

/-- RAKE_STRIPE (R282). -/
def execRakeStripe (r : Fin 16) (inner : Nat) (wrong : List (Nat × Nat)) (s : State) : Host.Outcome State Fault Refusal :=
  .next (s.live fun s => s.rakeStripe r inner wrong)

/-- SPARE_NOW (R280). -/
def execSpareNow (r : Fin 16) (die : Fin 16) (s : State) : Host.Outcome State Fault Refusal :=
  .next (s.live fun s => s.spareNow r die)

/-- SPARE_STRIPE_COPY (R280). -/
def execSpareStripeCopy (r : Fin 16) (inner : Nat) (wrong : List (Nat × Nat)) (s : State) : Host.Outcome State Fault Refusal :=
  .next (s.live fun s => s.spareCopy r inner wrong)

end Sys2Proof.Machine
end

