-- ==== Sys2Proof/Machine/RowsObservation.lean ====
section
/-! DEFINITION. The meanings of the commands: counters and traces. Each is one row of the command table. -/

namespace Sys2Proof.Machine

/-- CTR_CLEAR (R476). -/
def execCtrClear (set : Fin 48) (s : State) : Host.Outcome State Fault Refusal :=
  .next (s.live fun s => s.ctrClearWrite set)

/-- CTR_RUN (R476). -/
def execCtrRun (set : Fin 48) (run : Bool) (s : State) : Host.Outcome State Fault Refusal :=
  .next (s.live fun s => s.ctrRunWrite set run)

/-- CTR_GLOBAL_START (R477). -/
def execCtrGlobalStart (s : State) : Host.Outcome State Fault Refusal :=
  .next (s.live fun s => s.ctrGlobalStart)

/-- CTR_GLOBAL_STOP (R477). -/
def execCtrGlobalStop (s : State) : Host.Outcome State Fault Refusal :=
  .next (s.live fun s => s.ctrGlobalStop)

/-- CTR_GRANT (R477). -/
def execCtrGrant (beds : W16) (s : State) : Host.Outcome State Fault Refusal :=
  .next (s.live fun s => s.ctrGrantWrite beds.toNat)

/-- TRC_MARK (R489). -/
def execTrcMark (d : Desc) (s : State) : Host.Outcome State Fault Refusal :=
  .next (s.command d fun s => s.trcMark d)

/-- CTR_SNAPSHOT (R489). -/
def execCtrSnapshot (d : Desc) (s : State) : Host.Outcome State Fault Refusal :=
  .next (s.command d fun s => s.ctrSnapshot d)

/-- TRACE_RECORD_WRITE (R485). -/
def execTraceRecordWrite (buffer : Fin 5) (s : State) : Host.Outcome State Fault Refusal :=
  .next (s.live fun s => s.traceDrain buffer)

/-- TRACE_HEAD_WRITE (R486). -/
def execTraceHeadWrite (fn : Fin 17) (v : W32) (s : State) : Host.Outcome State Fault Refusal :=
  .next (s.live fun s => s.traceHead fn v.toNat)

end Sys2Proof.Machine
end

