-- ==== Sys2Proof/Machine/RowsOwnership.lean ====
section
/-! DEFINITION. The meanings of the commands: ownership messages and timers. Each is one row of the command table. -/

namespace Sys2Proof.Machine

/-- OFFER (R104). -/
def execOffer (m : OwnMsg) (s : State) : Host.Outcome State Fault Refusal :=
  .next (s.live fun s => s.offer m)

/-- CLAIM (R103). -/
def execClaim (m : OwnMsg) (s : State) : Host.Outcome State Fault Refusal :=
  .next (s.live fun s => s.claim m)

/-- CONFIRM (R104). -/
def execConfirm (m : OwnMsg) (s : State) : Host.Outcome State Fault Refusal :=
  .next (s.live fun s => s.confirm m)

/-- REFUSE (R104). -/
def execRefuse (m : OwnMsg) (s : State) : Host.Outcome State Fault Refusal :=
  .next (s.live fun s => s.refuse m)

/-- QUERY (R105). -/
def execQuery (m : OwnMsg) (s : State) : Host.Outcome State Fault Refusal :=
  .next (s.live fun s => s.query m)

/-- ANSWER (R105). -/
def execAnswer (m : OwnMsg) (s : State) : Host.Outcome State Fault Refusal :=
  .next (s.live fun s => s.answer m)

/-- RENEW (R107). -/
def execRenew (m : OwnMsg) (s : State) : Host.Outcome State Fault Refusal :=
  .next (s.live fun s => s.renew m)

/-- RENEW_ACK (R108). -/
def execRenewAck (m : OwnMsg) (s : State) : Host.Outcome State Fault Refusal :=
  .next (s.live fun s => s.renewAck m)

/-- TRX_APPEND (R109). -/
def execTrxAppend (m : OwnMsg) (s : State) : Host.Outcome State Fault Refusal :=
  .next (s.live fun s => s.trxAppendIn m)

/-- TRX_ACK (R109). -/
def execTrxAck (m : OwnMsg) (s : State) : Host.Outcome State Fault Refusal :=
  .next (s.live fun s => s.trxAck m)

/-- DROP_NOTE (R99). -/
def execDropNote (m : OwnMsg) (s : State) : Host.Outcome State Fault Refusal :=
  .next (s.live fun s => s.dropNote m)

/-- CLOSE_NOTE (R99). -/
def execCloseNote (m : OwnMsg) (s : State) : Host.Outcome State Fault Refusal :=
  .next (s.live fun s => s.closeNote m)

/-- HOME_XFER (R94). -/
def execHomeXfer (m : OwnMsg) (s : State) : Host.Outcome State Fault Refusal :=
  .next (s.live fun s => s.homeXfer m)

/-- HOME_XFER_END (R94). -/
def execHomeXferEnd (m : OwnMsg) (s : State) : Host.Outcome State Fault Refusal :=
  .next (s.live fun s => s.homeXferEnd m)

/-- TRX_FETCH (R110). -/
def execTrxFetch (m : OwnMsg) (s : State) : Host.Outcome State Fault Refusal :=
  .next (s.live fun s => s.trxFetch m)

/-- TRX_DATA (R110). -/
def execTrxData (m : OwnMsg) (s : State) : Host.Outcome State Fault Refusal :=
  .next (s.live fun s => s.trxData m)

/-- HOME_XFER_RESEND (R94). -/
def execHomeXferResend (bucket : Fin 4096) (s : State) : Host.Outcome State Fault Refusal :=
  .next (s.live fun s => s.homeXferResend bucket)

/-- HOME_XFER_TIMEOUT (R94). -/
def execHomeXferTimeout (bucket : Fin 4096) (s : State) : Host.Outcome State Fault Refusal :=
  .next (s.live fun s => s.homeXferTimeout bucket)

/-- NOTE_RESEND (R99). -/
def execNoteResend (sid : W64) (s : State) : Host.Outcome State Fault Refusal :=
  .next (s.live fun s => s.noteResend sid)

/-- OWNERSHIP_QUERY_TIMER (R105). -/
def execOwnershipQueryTimer (sid : W64) (s : State) : Host.Outcome State Fault Refusal :=
  .next (s.live fun s => s.ownershipQuery sid)

/-- RENEW_SEND (R107). -/
def execRenewSend (home : Fin 512) (s : State) : Host.Outcome State Fault Refusal :=
  .next (s.live fun s => s.renewSend home)

/-- LEASE_GUARD_EXPIRY (R108). -/
def execLeaseGuardExpiry (home : Fin 512) (s : State) : Host.Outcome State Fault Refusal :=
  .next (s.live fun s => s.leaseGuard home)

/-- LEASE_EXPIRY (R108). -/
def execLeaseExpiry (owner : Fin 512) (s : State) : Host.Outcome State Fault Refusal :=
  .next (s.live fun s => s.leaseExpiry owner)

/-- HOME_UNREACHABLE_TIMEOUT (R117). -/
def execHomeUnreachableTimeout (sid : W64) (s : State) : Host.Outcome State Fault Refusal :=
  .next (s.live fun s => s.homeUnreachable sid)

/-- REBUILD_WINDOW_END (R112). -/
def execRebuildWindowEnd (s : State) : Host.Outcome State Fault Refusal :=
  .next (s.live fun s => s.rebuildEnd)

/-- TTL_PAUSED_EXPIRY (R98). -/
def execTtlPausedExpiry (sid : W64) (s : State) : Host.Outcome State Fault Refusal :=
  .next (s.live fun s => s.ttlPaused sid)

/-- TTL_CXL_EXPIRY (R98). -/
def execTtlCxlExpiry (sid : W64) (s : State) : Host.Outcome State Fault Refusal :=
  .next (s.live fun s => s.ttlCxl sid)

/-- TTL_MULCH_EXPIRY (R98). -/
def execTtlMulchExpiry (sid : W64) (s : State) : Host.Outcome State Fault Refusal :=
  .next (s.live fun s => s.ttlMulch sid)

/-- TTL_DROPPED_EXPIRY (R98). -/
def execTtlDroppedExpiry (sid : W64) (s : State) : Host.Outcome State Fault Refusal :=
  .next (s.live fun s => s.ttlDropped sid)

/-- TOMBSTONE_EXPIRY (R98). -/
def execTombstoneExpiry (sid : W64) (s : State) : Host.Outcome State Fault Refusal :=
  .next (s.live fun s => s.tombstone sid)

end Sys2Proof.Machine
end

