-- ==== Sys2Proof/Machine/RowsPages.lean ====
section
/-! DEFINITION. The meanings of the commands: KV pages. Each is one row of the command table. -/

namespace Sys2Proof.Machine

/-- KV_MAP (R222). -/
def execKvMap (d : Desc) (s : State) : Host.Outcome State Fault Refusal :=
  .next (s.command d fun s => s.kvMap d)

/-- KV_UNMAP (R222). -/
def execKvUnmap (d : Desc) (s : State) : Host.Outcome State Fault Refusal :=
  .next (s.command d fun s => s.kvUnmap d)

/-- KV_SEQ_SET (R222). -/
def execKvSeqSet (d : Desc) (s : State) : Host.Outcome State Fault Refusal :=
  .next (s.command d fun s => s.kvSeqSet d)

/-- KV_PREFIX_FLUSH (R222). -/
def execKvPrefixFlush (d : Desc) (s : State) : Host.Outcome State Fault Refusal :=
  .next (s.command d fun s => s.kvPrefixFlush d)

/-- KV_PAGE_QUERY (R222). -/
def execKvPageQuery (d : Desc) (s : State) : Host.Outcome State Fault Refusal :=
  .next (s.command d fun s => s.kvPageQuery d)

/-- PFX_ENABLE_WRITE (R223). -/
def execPfxEnableWrite (bed : Fin 16) (v : W32) (s : State) : Host.Outcome State Fault Refusal :=
  .next (s.live fun s => s.pfxWrite bed v)

/-- KV_COPY_PASS (R219). -/
def execKvCopyPass (sid : W64) (s : State) : Host.Outcome State Fault Refusal :=
  .next (s.live fun s => s.copyPass sid)

end Sys2Proof.Machine
end

