-- ==== Sys2Proof/Machine/RowsScheduling.lean ====
section
/-! DEFINITION. The meanings of the commands: profiles and step boundaries. Each is one row of the command table. -/

namespace Sys2Proof.Machine

/-- SCH_PROFILE_LOAD (R122). -/
def execSchProfileLoad (d : Desc) (s : State) : Host.Outcome State Fault Refusal :=
  .next (s.command d fun s => s.profileLoad d)

/-- SCH_PROFILE_UNLOAD (R122). -/
def execSchProfileUnload (d : Desc) (s : State) : Host.Outcome State Fault Refusal :=
  .next (s.command d fun s => s.profileUnload d)

/-- SCH_SLOT_READ (R138). -/
def execSchSlotRead (d : Desc) (s : State) : Host.Outcome State Fault Refusal :=
  .next (s.command d fun s => s.slotRead d)

/-- SCH_SET_SEQ (R138). -/
def execSchSetSeq (d : Desc) (s : State) : Host.Outcome State Fault Refusal :=
  .next (s.command d fun s => s.setSeq d)

/-- STEP_BOUNDARY (R127). -/
def execStepBoundary (bed : Fin 16) (pid : W16) (s : State) : Host.Outcome State Fault Refusal :=
  .next (s.live fun s => s.stepBoundary bed pid.toNat)

end Sys2Proof.Machine
end

