-- ==== Sys2Proof/Machine/RowsSessions.lean ====
section
/-! DEFINITION. The meanings of the commands: session commands. Each is one row of the command table. -/

namespace Sys2Proof.Machine

/-- SES_OPEN (R98). -/
def execSesOpen (d : Desc) (s : State) : Host.Outcome State Fault Refusal :=
  .next (s.command d fun s => s.sesOpen d)

/-- SES_CLOSE (R98). -/
def execSesClose (d : Desc) (s : State) : Host.Outcome State Fault Refusal :=
  .next (s.command d fun s => s.sesClose d)

/-- SES_PAUSE (R98). -/
def execSesPause (d : Desc) (s : State) : Host.Outcome State Fault Refusal :=
  .next (s.command d fun s => s.sesPause d)

/-- SES_RESUME (R98). -/
def execSesResume (d : Desc) (s : State) : Host.Outcome State Fault Refusal :=
  .next (s.command d fun s => s.sesResume d)

/-- SES_PARK (R513). -/
def execSesPark (d : Desc) (s : State) : Host.Outcome State Fault Refusal :=
  .next (s.command d fun s => s.sesPark d)

/-- SES_CUT (R114). -/
def execSesCut (d : Desc) (s : State) : Host.Outcome State Fault Refusal :=
  .next (s.command d fun s => s.sesCut d)

/-- SES_MOVE (R104). -/
def execSesMove (d : Desc) (s : State) : Host.Outcome State Fault Refusal :=
  .next (s.command d fun s => s.sesMove d)

/-- SES_ACCEPT (R104). -/
def execSesAccept (d : Desc) (s : State) : Host.Outcome State Fault Refusal :=
  .next (s.command d fun s => s.sesAccept d)

/-- SES_QUERY (R514). -/
def execSesQuery (d : Desc) (s : State) : Host.Outcome State Fault Refusal :=
  .next (s.command d fun s => s.sesQuery d)

/-- SES_SET_LIMIT (R117). -/
def execSesSetLimit (d : Desc) (s : State) : Host.Outcome State Fault Refusal :=
  .next (s.command d fun s => s.sesSetLimit d)

/-- SES_MAP_LOAD (R94). -/
def execSesMapLoad (d : Desc) (s : State) : Host.Outcome State Fault Refusal :=
  .next (s.command d fun s => s.sesMapLoad d)

end Sys2Proof.Machine
end

