-- ==== Sys2Proof/Machine/RowsSharedMemory.lean ====
section
/-! DEFINITION. The meanings of the commands: exported memory. Each is one row of the command table. -/

namespace Sys2Proof.Machine

/-- EXP_CREATE (R384). -/
def execExpCreate (d : Desc) (s : State) : Host.Outcome State Fault Refusal :=
  .next (s.command d fun s => s.expCreate d)

/-- EXP_REVOKE (R394). -/
def execExpRevoke (d : Desc) (s : State) : Host.Outcome State Fault Refusal :=
  .next (s.command d fun s => s.expRevoke d)

/-- EXP_NODE_LOST (R393). -/
def execExpNodeLost (d : Desc) (s : State) : Host.Outcome State Fault Refusal :=
  .next (s.command d fun s => s.expNodeLost d)

/-- MEM_FILL (R395). -/
def execMemFill (d : Desc) (s : State) : Host.Outcome State Fault Refusal :=
  .next (s.command d fun s => s.memFill d)

/-- MEM_COPY (R397). -/
def execMemCopy (d : Desc) (s : State) : Host.Outcome State Fault Refusal :=
  .next (s.command d fun s => s.memCopy d)

/-- MEM_COMPARE (R395). -/
def execMemCompare (d : Desc) (s : State) : Host.Outcome State Fault Refusal :=
  .next (s.command d fun s => s.memCompare d)

/-- MEM_REDUCE (R395). -/
def execMemReduce (d : Desc) (s : State) : Host.Outcome State Fault Refusal :=
  .next (s.command d fun s => s.memReduce d)

/-- EXP_PUBLISH (R398). -/
def execExpPublish (d : Desc) (s : State) : Host.Outcome State Fault Refusal :=
  .next (s.command d fun s => s.expPublish d)

/-- EXP_WITHDRAW (R399). -/
def execExpWithdraw (d : Desc) (s : State) : Host.Outcome State Fault Refusal :=
  .next (s.command d fun s => s.expWithdraw d)

/-- MEM_HINT (R401). -/
def execMemHint (d : Desc) (s : State) : Host.Outcome State Fault Refusal :=
  .next (s.command d fun s => s.memHint d)

/-- EXP_QUERY (R402). -/
def execExpQuery (d : Desc) (s : State) : Host.Outcome State Fault Refusal :=
  .next (s.command d fun s => s.expQuery d)

/-- MR_READ (R389). -/
def execMrRead (m : MrMsg) (key : Option W32) (s : State) : Host.Outcome State Fault Refusal :=
  .next (s.live fun s => s.mrRequest .read m (key.map fun k => k.toNat))

/-- MR_WRITE (R389). -/
def execMrWrite (m : MrMsg) (key : Option W32) (s : State) : Host.Outcome State Fault Refusal :=
  .next (s.live fun s => s.mrRequest .write m (key.map fun k => k.toNat))

/-- MR_ACQUIRE (R391). -/
def execMrAcquire (m : MrMsg) (key : Option W32) (s : State) : Host.Outcome State Fault Refusal :=
  .next (s.live fun s => s.mrRequest .acquire m (key.map fun k => k.toNat))

/-- MR_WRITEBACK (R391). -/
def execMrWriteback (m : MrMsg) (key : Option W32) (s : State) : Host.Outcome State Fault Refusal :=
  .next (s.live fun s => s.mrRequest .writeback m (key.map fun k => k.toNat))

/-- MR_OP (R395). -/
def execMrOp (m : MrMsg) (key : Option W32) (s : State) : Host.Outcome State Fault Refusal :=
  .next (s.live fun s => s.mrRequest .op m (key.map fun k => k.toNat))

/-- MR_PUBLISH (R398). -/
def execMrPublish (m : MrMsg) (key : Option W32) (s : State) : Host.Outcome State Fault Refusal :=
  .next (s.live fun s => s.mrRequest .publish m (key.map fun k => k.toNat))

/-- MR_PUB_READ (R399). -/
def execMrPubRead (m : MrMsg) (key : Option W32) (s : State) : Host.Outcome State Fault Refusal :=
  .next (s.live fun s => s.mrRequest .pubRead m (key.map fun k => k.toNat))

/-- MR_RECALL_DATA (R392). -/
def execMrRecallData (m : MrMsg) (s : State) : Host.Outcome State Fault Refusal :=
  .next (s.live fun s => s.mrRecallData m)

/-- MR_RESP (R397). -/
def execMrResp (m : MrMsg) (s : State) : Host.Outcome State Fault Refusal :=
  .next (s.live fun s => s.mrResp m)

/-- RECALL_TIMEOUT (R393). -/
def execRecallTimeout (bed : Fin 16) (id : W32) (s : State) : Host.Outcome State Fault Refusal :=
  .next (s.live fun s => s.recallTimeout bed id)

/-- REMOTE_COPY_TIMEOUT (R397). -/
def execRemoteCopyTimeout (id : W32) (s : State) : Host.Outcome State Fault Refusal :=
  .next (s.live fun s => s.remoteCopyTimeout id)

/-- GRANULE_MIGRATE (R401). -/
def execGranuleMigrate (bed : Fin 16) (s : State) : Host.Outcome State Fault Refusal :=
  .next (s.live fun s => s.granuleMigrate bed)

end Sys2Proof.Machine
end

