-- ==== Sys2Proof/Machine/RowsText.lean ====
section
/-! DEFINITION. The meanings of the commands: intake, sampling controls and Furrows. Each is one row of the command table. -/

namespace Sys2Proof.Machine

/-- IN_SUBMIT (R235). -/
def execInSubmit (d : Desc) (s : State) : Host.Outcome State Fault Refusal :=
  .next (s.command d fun s => s.inSubmit d)

/-- IN_TABLE_LOAD (R243). -/
def execInTableLoad (d : Desc) (s : State) : Host.Outcome State Fault Refusal :=
  .next (s.command d fun s => s.tableLoad d [1, 2, 3])

/-- IN_TABLE_UNLOAD (R246). -/
def execInTableUnload (d : Desc) (s : State) : Host.Outcome State Fault Refusal :=
  .next (s.command d fun s => s.inTableUnload d)

/-- IN_TOKENIZE (R248). -/
def execInTokenize (d : Desc) (s : State) : Host.Outcome State Fault Refusal :=
  .next (s.command d fun s => s.inTokenize d)

/-- TOKENIZE_CHUNK (R242). -/
def execTokenizeChunk (q : Fin 4) (sid : W64) (s : State) : Host.Outcome State Fault Refusal :=
  .next (s.live fun s => s.tokenizeChunk q sid)

/-- FUR_CREATE (R274). -/
def execFurCreate (d : Desc) (s : State) : Host.Outcome State Fault Refusal :=
  .next (s.command d fun s => s.furCreate d)

/-- FUR_DESTROY (R274). -/
def execFurDestroy (d : Desc) (s : State) : Host.Outcome State Fault Refusal :=
  .next (s.command d fun s => s.furDestroy d)

/-- SMP_SET (R274). -/
def execSmpSet (d : Desc) (s : State) : Host.Outcome State Fault Refusal :=
  .next (s.command d fun s => s.smpSet d)

/-- SMP_STOP_SET (R265). -/
def execSmpStopSet (d : Desc) (s : State) : Host.Outcome State Fault Refusal :=
  .next (s.command d fun s => s.stopSet d)

/-- SMP_GRAMMAR_LOAD (R274). -/
def execSmpGrammarLoad (d : Desc) (s : State) : Host.Outcome State Fault Refusal :=
  .next (s.command d fun s => s.grammarLoad d)

/-- SMP_GRAMMAR_UNLOAD (R274). -/
def execSmpGrammarUnload (d : Desc) (s : State) : Host.Outcome State Fault Refusal :=
  .next (s.command d fun s => s.grammarUnload d)

/-- FURROW_HEAD_WRITE (R266). -/
def execFurrowHeadWrite (bed : Fin 16) (v : W32) (s : State) : Host.Outcome State Fault Refusal :=
  .next (s.live fun s => s.furrowHead bed (bits v.toNat 15 0) (bits v.toNat 31 16))

/-- FURROW_BACKLOG_DRAIN (R271). -/
def execFurrowBacklogDrain (sid : W64) (s : State) : Host.Outcome State Fault Refusal :=
  .next (s.live fun s => s.backlogDrain sid)

/-- FURROW_IRQ_DELAY (R266). -/
def execFurrowIrqDelay (furrow : W16) (s : State) : Host.Outcome State Fault Refusal :=
  .next (s.live fun s => s.furrowIrq furrow.toNat)

end Sys2Proof.Machine
end

