-- ==== Sys2Proof/Machine/RowsTime.lean ====
section
/-! DEFINITION. The meanings of the commands: Frame Time and region clocks. Each is one row of the command table. -/

namespace Sys2Proof.Machine

/-- BEACON (R47). -/
def execBeacon (p : Fin 8) (m : TimeMsg) (s : State) : Host.Outcome State Fault Refusal :=
  .next (s.live fun s => s.beacon p m)

/-- DELAY_REQUEST (R47). -/
def execDelayRequest (s : State) : Host.Outcome State Fault Refusal :=
  .next (s.live fun s => s.delayRequest)

/-- DELAY_RESPONSE (R47). -/
def execDelayResponse (m : TimeMsg) (s : State) : Host.Outcome State Fault Refusal :=
  .next (s.live fun s => s.delayResponse m)

/-- EXCHANGE_ABANDON (R47). -/
def execExchangeAbandon (s : State) : Host.Outcome State Fault Refusal :=
  .next (s.live fun s => s.exchangeAbandon)

/-- FT_HOST_COMMIT (R48). -/
def execFtHostCommit (v : W64) (s : State) : Host.Outcome State Fault Refusal :=
  .next (s.live fun s => s.ftHostCommit v)

/-- SLEW_END (R508). -/
def execSlewEnd (s : State) : Host.Outcome State Fault Refusal :=
  .next (s.live fun s => s.slewEnd)

/-- FT_BEACON_TIMEOUT (R44). -/
def execFtBeaconTimeout (s : State) : Host.Outcome State Fault Refusal :=
  .next (s.live fun s => s.beaconTimeout)

/-- HOLDOVER_EXPIRED (R44). -/
def execHoldoverExpired (s : State) : Host.Outcome State Fault Refusal :=
  .next (s.live fun s => s.holdoverExpired)

/-- FT_SOURCE_WRITE (R44). -/
def execFtSourceWrite (v : Fin 4) (s : State) : Host.Outcome State Fault Refusal :=
  .next (s.live fun s => s.ftSourceWrite v)

/-- STEP_NOW (R43). -/
def execStepNow (s : State) : Host.Outcome State Fault Refusal :=
  .next (s.live fun s => s.stepNow)

/-- TIME_WORD (R49). -/
def execTimeWord (dt : Nat) (s : State) : Host.Outcome State Fault Refusal :=
  .next (s.supplied fun s => s.timeWord dt)

/-- REPLICA_WORD_LOSS (R52). -/
def execReplicaWordLoss (x : ReplicaOf) (s : State) : Host.Outcome State Fault Refusal :=
  .next (s.live fun s => s.replicaLoss x)

/-- REPLICA_RESYNC (R51). -/
def execReplicaResync (r : Fin 16) (s : State) : Host.Outcome State Fault Refusal :=
  .next (s.live fun s => s.replicaResync r)

/-- GATE_REQ (R31). -/
def execGateReq (r : Fin 16) (on : Bool) (s : State) : Host.Outcome State Fault Refusal :=
  .next (s.live fun s => s.gateReq r on)

/-- REGION_CLOCK_STOP (R31). -/
def execRegionClockStop (r : Fin 16) (s : State) : Host.Outcome State Fault Refusal :=
  .next (s.live fun s => s.clockStop r)

/-- REGION_CLOCK_RESTART (R32). -/
def execRegionClockRestart (r : Fin 16) (s : State) : Host.Outcome State Fault Refusal :=
  .next (s.live fun s => s.clockRestart r)

/-- SUPPLY_DROOP (R30). -/
def execSupplyDroop (r : Fin 16) (mhz : Nat) (s : State) : Host.Outcome State Fault Refusal :=
  .next (s.live fun s => s.supplyDroop r mhz)

end Sys2Proof.Machine
end

