-- ==== Sys2Proof/Machine/RowsTrust.lean ====
section
/-! DEFINITION. The meanings of the commands: security and the out-of-band endpoint. Each is one row of the command table. -/

namespace Sys2Proof.Machine

/-- SEC_OWNER_ENROLL (R433). -/
def execSecOwnerEnroll (d : Desc) (s : State) : Host.Outcome State Fault Refusal :=
  .next (s.command d fun s => s.secOwnerEnroll d)

/-- SEC_BUNDLE_LOAD (R436). -/
def execSecBundleLoad (d : Desc) (s : State) : Host.Outcome State Fault Refusal :=
  .next (s.command d fun s => s.secBundleLoad d)

/-- SEC_PARTITION_RESET (R444). -/
def execSecPartitionReset (d : Desc) (s : State) : Host.Outcome State Fault Refusal :=
  .next (s.command d fun s => s.secPartitionReset d)

/-- SEC_NONCE (R445). -/
def execSecNonce (d : Desc) (s : State) : Host.Outcome State Fault Refusal :=
  .next (s.command d fun s => s.secNonce d)

/-- SEC_ZEROIZE (R445). -/
def execSecZeroize (d : Desc) (s : State) : Host.Outcome State Fault Refusal :=
  .next (s.command d fun s => s.secZeroize d)

/-- SEC_CERT_READ (R448). -/
def execSecCertRead (d : Desc) (s : State) : Host.Outcome State Fault Refusal :=
  .next (s.command d fun s => s.secCertRead d)

/-- SEC_MEASURE (R449). -/
def execSecMeasure (d : Desc) (s : State) : Host.Outcome State Fault Refusal :=
  .next (s.command d fun s => s.secMeasure d)

/-- ZEROIZE_NONCE_LAPSE (R445). -/
def execZeroizeNonceLapse (s : State) : Host.Outcome State Fault Refusal :=
  .next (s.live fun s => s.nonceLapse)

/-- SELFTEST_COMPLETE (R432). -/
def execSelftestComplete (pass : Bool) (s : State) : Host.Outcome State Fault Refusal :=
  .next (s.live fun s => s.selftest pass)

/-- DRBG_HEALTH_FAILURE (R432). -/
def execDrbgHealthFailure (s : State) : Host.Outcome State Fault Refusal :=
  .next (s.live fun s => s.drbgFailure)

/-- IDE_INTEGRITY_FAILURE (R446). -/
def execIdeIntegrityFailure (ix : Nat) (s : State) : Host.Outcome State Fault Refusal :=
  .next (s.live fun s => s.ideFailure ix)

/-- TDISP_REQUEST (R447). -/
def execTdispRequest (bed : Fin 16) (r : Tdisp) (s : State) : Host.Outcome State Fault Refusal :=
  .next (s.live fun s => s.tdispRequest bed r)

/-- SPDM_REQUEST (R451). -/
def execSpdmRequest (oob : Bool) (r : SpdmReq) (s : State) : Host.Outcome State Fault Refusal :=
  .next (s.supplied fun s => s.spdmRequest oob r)

/-- MCTP_JOURNAL_READ (R452). -/
def execMctpJournalRead (start : W32) (s : State) : Host.Outcome State Fault Refusal :=
  .next (s.live fun s => s.oobJournalRead start)

/-- FAULT_READ (R470). -/
def execFaultRead (start : W32) (s : State) : Host.Outcome State Fault Refusal :=
  .next (s.supplied fun s => s.faultRead start)

/-- HEALTH_READ (R470). -/
def execHealthRead (s : State) : Host.Outcome State Fault Refusal :=
  .next (s.supplied fun s => s.healthRead)

/-- ZEROIZE_NONCE (R452). -/
def execZeroizeNonce (s : State) : Host.Outcome State Fault Refusal :=
  .next (s.live fun s => s.oobNonce)

/-- ZEROIZE (R452). -/
def execZeroize (token : List Byte) (s : State) : Host.Outcome State Fault Refusal :=
  .next (s.live fun s => s.oobZeroize token)

end Sys2Proof.Machine
end

