-- ==== Sys2Proof/Machine/RowsVectorSearch.lean ====
section
/-! DEFINITION. The meanings of the commands: vector search. Each is one row of the command table. -/

namespace Sys2Proof.Machine

/-- VS_PUBLISH (R331). -/
def execVsPublish (d : Desc) (s : State) : Host.Outcome State Fault Refusal :=
  .next (s.command d fun s => s.vsPublish d)

/-- VS_UNLOAD (R337). -/
def execVsUnload (d : Desc) (s : State) : Host.Outcome State Fault Refusal :=
  .next (s.command d fun s => s.vsUnload d)

/-- VS_QUERY (R347). -/
def execVsQuery (d : Desc) (s : State) : Host.Outcome State Fault Refusal :=
  .next (s.command d fun s => s.vsQuery d)

/-- VS_DELETE (R338). -/
def execVsDelete (d : Desc) (s : State) : Host.Outcome State Fault Refusal :=
  .next (s.command d fun s => s.vsDelete d)

/-- VS_SHARE (R345). -/
def execVsShare (d : Desc) (s : State) : Host.Outcome State Fault Refusal :=
  .next (s.command d fun s => s.vsShare d)

/-- VS_INFO (R348). -/
def execVsInfo (d : Desc) (s : State) : Host.Outcome State Fault Refusal :=
  .next (s.command d fun s => s.vsInfo d)

/-- VS_WALK_COMPLETE (R342). -/
def execVsWalkComplete (ix : Nat) (s : State) : Host.Outcome State Fault Refusal :=
  .next (s.live fun s => s.vsWalkComplete ix)

/-- VS_REQ (R345). -/
def execVsReq (m : VsMsg) (s : State) : Host.Outcome State Fault Refusal :=
  .next (s.live fun s => s.vsReq m)

/-- VS_RESP (R346). -/
def execVsResp (m : VsMsg) (s : State) : Host.Outcome State Fault Refusal :=
  .next (s.live fun s => s.vsResp m)

/-- SHARD_TIMEOUT (R346). -/
def execShardTimeout (ix : Nat) (s : State) : Host.Outcome State Fault Refusal :=
  .next (s.live fun s => s.shardTimeout ix)

end Sys2Proof.Machine
end

