-- ==== Sys2Proof/Machine/Dispatch.lean ====
section
/-! DEFINITION. One arm for each command: a direct call of its meaning. -/

namespace Sys2Proof.Machine

def exec (i : Instr) (s : State) : Host.Outcome State Fault Refusal :=
  match i with
  | .pairLowerRead a => Sys2Proof.Machine.execPairLowerRead a s
  | .pairLowerWrite a v => Sys2Proof.Machine.execPairLowerWrite a v s
  | .pairUpperWrite a v => Sys2Proof.Machine.execPairUpperWrite a v s
  | .rcRead a set => Sys2Proof.Machine.execRcRead a set s
  | .w1cWrite a v hw => Sys2Proof.Machine.execW1cWrite a v hw s
  | .intEnableWrite a v => Sys2Proof.Machine.execIntEnableWrite a v s
  | .registerWrite a v => Sys2Proof.Machine.execRegisterWrite a v s
  | .beacon p m => Sys2Proof.Machine.execBeacon p m s
  | .delayRequest => Sys2Proof.Machine.execDelayRequest s
  | .delayResponse m => Sys2Proof.Machine.execDelayResponse m s
  | .exchangeAbandon => Sys2Proof.Machine.execExchangeAbandon s
  | .ftHostCommit v => Sys2Proof.Machine.execFtHostCommit v s
  | .slewEnd => Sys2Proof.Machine.execSlewEnd s
  | .ftBeaconTimeout => Sys2Proof.Machine.execFtBeaconTimeout s
  | .holdoverExpired => Sys2Proof.Machine.execHoldoverExpired s
  | .ftSourceWrite v => Sys2Proof.Machine.execFtSourceWrite v s
  | .stepNow => Sys2Proof.Machine.execStepNow s
  | .timeWord dt => Sys2Proof.Machine.execTimeWord dt s
  | .replicaWordLoss x => Sys2Proof.Machine.execReplicaWordLoss x s
  | .replicaResync r => Sys2Proof.Machine.execReplicaResync r s
  | .gateReq r on => Sys2Proof.Machine.execGateReq r on s
  | .regionClockStop r => Sys2Proof.Machine.execRegionClockStop r s
  | .regionClockRestart r => Sys2Proof.Machine.execRegionClockRestart r s
  | .supplyDroop r mhz => Sys2Proof.Machine.execSupplyDroop r mhz s
  | .ifOpen d => Sys2Proof.Machine.execIfOpen d s
  | .ifClose d => Sys2Proof.Machine.execIfClose d s
  | .ringCreate d => Sys2Proof.Machine.execRingCreate d s
  | .ringDestroy d => Sys2Proof.Machine.execRingDestroy d s
  | .ringDrainComplete fn r => Sys2Proof.Machine.execRingDrainComplete fn r s
  | .nop d => Sys2Proof.Machine.execNop d s
  | .journalRead d => Sys2Proof.Machine.execJournalRead d s
  | .mailboxGo fn m => Sys2Proof.Machine.execMailboxGo fn m s
  | .ringDoorbell fn r v => Sys2Proof.Machine.execRingDoorbell fn r v s
  | .descriptorFetch fn r => Sys2Proof.Machine.execDescriptorFetch fn r s
  | .ringIrqDelay fn r => Sys2Proof.Machine.execRingIrqDelay fn r s
  | .functionLevelReset fn => Sys2Proof.Machine.execFunctionLevelReset fn s
  | .keepStoreProgram => Sys2Proof.Machine.execKeepStoreProgram s
  | .sesOpen d => Sys2Proof.Machine.execSesOpen d s
  | .sesClose d => Sys2Proof.Machine.execSesClose d s
  | .sesPause d => Sys2Proof.Machine.execSesPause d s
  | .sesResume d => Sys2Proof.Machine.execSesResume d s
  | .sesPark d => Sys2Proof.Machine.execSesPark d s
  | .sesCut d => Sys2Proof.Machine.execSesCut d s
  | .sesMove d => Sys2Proof.Machine.execSesMove d s
  | .sesAccept d => Sys2Proof.Machine.execSesAccept d s
  | .sesQuery d => Sys2Proof.Machine.execSesQuery d s
  | .sesSetLimit d => Sys2Proof.Machine.execSesSetLimit d s
  | .sesMapLoad d => Sys2Proof.Machine.execSesMapLoad d s
  | .offer m => Sys2Proof.Machine.execOffer m s
  | .claim m => Sys2Proof.Machine.execClaim m s
  | .confirm m => Sys2Proof.Machine.execConfirm m s
  | .refuse m => Sys2Proof.Machine.execRefuse m s
  | .query m => Sys2Proof.Machine.execQuery m s
  | .answer m => Sys2Proof.Machine.execAnswer m s
  | .renew m => Sys2Proof.Machine.execRenew m s
  | .renewAck m => Sys2Proof.Machine.execRenewAck m s
  | .trxAppend m => Sys2Proof.Machine.execTrxAppend m s
  | .trxAck m => Sys2Proof.Machine.execTrxAck m s
  | .dropNote m => Sys2Proof.Machine.execDropNote m s
  | .closeNote m => Sys2Proof.Machine.execCloseNote m s
  | .homeXfer m => Sys2Proof.Machine.execHomeXfer m s
  | .homeXferEnd m => Sys2Proof.Machine.execHomeXferEnd m s
  | .trxFetch m => Sys2Proof.Machine.execTrxFetch m s
  | .trxData m => Sys2Proof.Machine.execTrxData m s
  | .homeXferResend bucket => Sys2Proof.Machine.execHomeXferResend bucket s
  | .homeXferTimeout bucket => Sys2Proof.Machine.execHomeXferTimeout bucket s
  | .noteResend sid => Sys2Proof.Machine.execNoteResend sid s
  | .ownershipQueryTimer sid => Sys2Proof.Machine.execOwnershipQueryTimer sid s
  | .renewSend home => Sys2Proof.Machine.execRenewSend home s
  | .leaseGuardExpiry home => Sys2Proof.Machine.execLeaseGuardExpiry home s
  | .leaseExpiry owner => Sys2Proof.Machine.execLeaseExpiry owner s
  | .homeUnreachableTimeout sid => Sys2Proof.Machine.execHomeUnreachableTimeout sid s
  | .rebuildWindowEnd => Sys2Proof.Machine.execRebuildWindowEnd s
  | .ttlPausedExpiry sid => Sys2Proof.Machine.execTtlPausedExpiry sid s
  | .ttlCxlExpiry sid => Sys2Proof.Machine.execTtlCxlExpiry sid s
  | .ttlMulchExpiry sid => Sys2Proof.Machine.execTtlMulchExpiry sid s
  | .ttlDroppedExpiry sid => Sys2Proof.Machine.execTtlDroppedExpiry sid s
  | .tombstoneExpiry sid => Sys2Proof.Machine.execTombstoneExpiry sid s
  | .schProfileLoad d => Sys2Proof.Machine.execSchProfileLoad d s
  | .schProfileUnload d => Sys2Proof.Machine.execSchProfileUnload d s
  | .schSlotRead d => Sys2Proof.Machine.execSchSlotRead d s
  | .schSetSeq d => Sys2Proof.Machine.execSchSetSeq d s
  | .stepBoundary bed pid => Sys2Proof.Machine.execStepBoundary bed pid s
  | .lxLayer h payload => Sys2Proof.Machine.execLxLayer h payload s
  | .lxReturn sid => Sys2Proof.Machine.execLxReturn sid s
  | .lxLogits h payload => Sys2Proof.Machine.execLxLogits h payload s
  | .entryAbandon sid => Sys2Proof.Machine.execEntryAbandon sid s
  | .entrySampling sid => Sys2Proof.Machine.execEntrySampling sid s
  | .prefillChunkComplete sid => Sys2Proof.Machine.execPrefillChunkComplete sid s
  | .graftLoad d => Sys2Proof.Machine.execGraftLoad d s
  | .graftDrop d => Sys2Proof.Machine.execGraftDrop d s
  | .graftStow d => Sys2Proof.Machine.execGraftStow d s
  | .graftBind d => Sys2Proof.Machine.execGraftBind d s
  | .lxGroupSet d => Sys2Proof.Machine.execLxGroupSet d s
  | .graftQuota d => Sys2Proof.Machine.execGraftQuota d s
  | .graftQuery d => Sys2Proof.Machine.execGraftQuery d s
  | .graftLayerResident bed id => Sys2Proof.Machine.execGraftLayerResident bed id s
  | .kvMap d => Sys2Proof.Machine.execKvMap d s
  | .kvUnmap d => Sys2Proof.Machine.execKvUnmap d s
  | .kvSeqSet d => Sys2Proof.Machine.execKvSeqSet d s
  | .kvPrefixFlush d => Sys2Proof.Machine.execKvPrefixFlush d s
  | .kvPageQuery d => Sys2Proof.Machine.execKvPageQuery d s
  | .pfxEnableWrite bed v => Sys2Proof.Machine.execPfxEnableWrite bed v s
  | .kvCopyPass sid => Sys2Proof.Machine.execKvCopyPass sid s
  | .inSubmit d => Sys2Proof.Machine.execInSubmit d s
  | .inTableLoad d => Sys2Proof.Machine.execInTableLoad d s
  | .inTableUnload d => Sys2Proof.Machine.execInTableUnload d s
  | .inTokenize d => Sys2Proof.Machine.execInTokenize d s
  | .tokenizeChunk q sid => Sys2Proof.Machine.execTokenizeChunk q sid s
  | .furCreate d => Sys2Proof.Machine.execFurCreate d s
  | .furDestroy d => Sys2Proof.Machine.execFurDestroy d s
  | .smpSet d => Sys2Proof.Machine.execSmpSet d s
  | .smpStopSet d => Sys2Proof.Machine.execSmpStopSet d s
  | .smpGrammarLoad d => Sys2Proof.Machine.execSmpGrammarLoad d s
  | .smpGrammarUnload d => Sys2Proof.Machine.execSmpGrammarUnload d s
  | .furrowHeadWrite bed v => Sys2Proof.Machine.execFurrowHeadWrite bed v s
  | .furrowBacklogDrain sid => Sys2Proof.Machine.execFurrowBacklogDrain sid s
  | .furrowIrqDelay furrow => Sys2Proof.Machine.execFurrowIrqDelay furrow s
  | .tierQuota d => Sys2Proof.Machine.execTierQuota d s
  | .tierHint d => Sys2Proof.Machine.execTierHint d s
  | .tierSetQuery d => Sys2Proof.Machine.execTierSetQuery d s
  | .cxlExtentAdd d => Sys2Proof.Machine.execCxlExtentAdd d s
  | .cxlExtentRelease d => Sys2Proof.Machine.execCxlExtentRelease d s
  | .cxlExtentLost d => Sys2Proof.Machine.execCxlExtentLost d s
  | .extentReleaseComplete port ix => Sys2Proof.Machine.execExtentReleaseComplete port ix s
  | .movePiece ix => Sys2Proof.Machine.execMovePiece ix s
  | .moveComplete ix => Sys2Proof.Machine.execMoveComplete ix s
  | .backingExpiry ix => Sys2Proof.Machine.execBackingExpiry ix s
  | .cxlLinkDown port => Sys2Proof.Machine.execCxlLinkDown port s
  | .cxlPoisonRead port ix => Sys2Proof.Machine.execCxlPoisonRead port ix s
  | .cxlEnable port on => Sys2Proof.Machine.execCxlEnable port on s
  | .hdmCommit port k on => Sys2Proof.Machine.execHdmCommit port k on s
  | .cxlIoGo port v => Sys2Proof.Machine.execCxlIoGo port v s
  | .cxlIoDone port result data => Sys2Proof.Machine.execCxlIoDone port result data s
  | .cxlDeviceEvent port => Sys2Proof.Machine.execCxlDeviceEvent port s
  | .cxlRakeBlock port ix bad => Sys2Proof.Machine.execCxlRakeBlock port ix bad s
  | .rakeStripe r inner wrong => Sys2Proof.Machine.execRakeStripe r inner wrong s
  | .spareNow r die => Sys2Proof.Machine.execSpareNow r die s
  | .spareStripeCopy r inner wrong => Sys2Proof.Machine.execSpareStripeCopy r inner wrong s
  | .flDiscardSync d => Sys2Proof.Machine.execFlDiscardSync d s
  | .flKeepRead d => Sys2Proof.Machine.execFlKeepRead d s
  | .appendLogProgram c => Sys2Proof.Machine.execAppendLogProgram c s
  | .compostCopy c => Sys2Proof.Machine.execCompostCopy c s
  | .compostCopyComplete c => Sys2Proof.Machine.execCompostCopyComplete c s
  | .flashRakePage c corrected bad => Sys2Proof.Machine.execFlashRakePage c corrected bad s
  | .flashOpFailure c phys => Sys2Proof.Machine.execFlashOpFailure c phys s
  | .blockErase c phys => Sys2Proof.Machine.execBlockErase c phys s
  | .keepStoreLoad failed => Sys2Proof.Machine.execKeepStoreLoad failed s
  | .vsPublish d => Sys2Proof.Machine.execVsPublish d s
  | .vsUnload d => Sys2Proof.Machine.execVsUnload d s
  | .vsQuery d => Sys2Proof.Machine.execVsQuery d s
  | .vsDelete d => Sys2Proof.Machine.execVsDelete d s
  | .vsShare d => Sys2Proof.Machine.execVsShare d s
  | .vsInfo d => Sys2Proof.Machine.execVsInfo d s
  | .vsWalkComplete ix => Sys2Proof.Machine.execVsWalkComplete ix s
  | .vsReq m => Sys2Proof.Machine.execVsReq m s
  | .vsResp m => Sys2Proof.Machine.execVsResp m s
  | .shardTimeout ix => Sys2Proof.Machine.execShardTimeout ix s
  | .plwKeyLoad d => Sys2Proof.Machine.execPlwKeyLoad d s
  | .plwKeySend d => Sys2Proof.Machine.execPlwKeySend d s
  | .plwKeyDrop d => Sys2Proof.Machine.execPlwKeyDrop d s
  | .plwEnable p on => Sys2Proof.Machine.execPlwEnable p on s
  | .laneLock p lanes => Sys2Proof.Machine.execLaneLock p lanes s
  | .trainBlock p t => Sys2Proof.Machine.execTrainBlock p t s
  | .portTrainingTimeout p => Sys2Proof.Machine.execPortTrainingTimeout p s
  | .laneLost p lanes allSignal => Sys2Proof.Machine.execLaneLost p lanes allSignal s
  | .retrainRelock p lanes => Sys2Proof.Machine.execRetrainRelock p lanes s
  | .downRetry p => Sys2Proof.Machine.execDownRetry p s
  | .frameReceive p f => Sys2Proof.Machine.execFrameReceive p f s
  | .linkControlBlock p c => Sys2Proof.Machine.execLinkControlBlock p c s
  | .linkControlSend p => Sys2Proof.Machine.execLinkControlSend p s
  | .frameSend p => Sys2Proof.Machine.execFrameSend p s
  | .messageSend => Sys2Proof.Machine.execMessageSend s
  | .reassemblyTimeout p => Sys2Proof.Machine.execReassemblyTimeout p s
  | .queueSample p => Sys2Proof.Machine.execQueueSample p s
  | .imgData m => Sys2Proof.Machine.execImgData m s
  | .imgAck m => Sys2Proof.Machine.execImgAck m s
  | .imgResendTimer k => Sys2Proof.Machine.execImgResendTimer k s
  | .imgGiveUp k => Sys2Proof.Machine.execImgGiveUp k s
  | .expCreate d => Sys2Proof.Machine.execExpCreate d s
  | .expRevoke d => Sys2Proof.Machine.execExpRevoke d s
  | .expNodeLost d => Sys2Proof.Machine.execExpNodeLost d s
  | .memFill d => Sys2Proof.Machine.execMemFill d s
  | .memCopy d => Sys2Proof.Machine.execMemCopy d s
  | .memCompare d => Sys2Proof.Machine.execMemCompare d s
  | .memReduce d => Sys2Proof.Machine.execMemReduce d s
  | .expPublish d => Sys2Proof.Machine.execExpPublish d s
  | .expWithdraw d => Sys2Proof.Machine.execExpWithdraw d s
  | .memHint d => Sys2Proof.Machine.execMemHint d s
  | .expQuery d => Sys2Proof.Machine.execExpQuery d s
  | .mrRead m key => Sys2Proof.Machine.execMrRead m key s
  | .mrWrite m key => Sys2Proof.Machine.execMrWrite m key s
  | .mrAcquire m key => Sys2Proof.Machine.execMrAcquire m key s
  | .mrWriteback m key => Sys2Proof.Machine.execMrWriteback m key s
  | .mrOp m key => Sys2Proof.Machine.execMrOp m key s
  | .mrPublish m key => Sys2Proof.Machine.execMrPublish m key s
  | .mrPubRead m key => Sys2Proof.Machine.execMrPubRead m key s
  | .mrRecallData m => Sys2Proof.Machine.execMrRecallData m s
  | .mrResp m => Sys2Proof.Machine.execMrResp m s
  | .recallTimeout bed id => Sys2Proof.Machine.execRecallTimeout bed id s
  | .remoteCopyTimeout id => Sys2Proof.Machine.execRemoteCopyTimeout id s
  | .granuleMigrate bed => Sys2Proof.Machine.execGranuleMigrate bed s
  | .ckArm d => Sys2Proof.Machine.execCkArm d s
  | .ckStart d => Sys2Proof.Machine.execCkStart d s
  | .ckRestore d => Sys2Proof.Machine.execCkRestore d s
  | .ckRestoreCommit d => Sys2Proof.Machine.execCkRestoreCommit d s
  | .ckRestoreCancel d => Sys2Proof.Machine.execCkRestoreCancel d s
  | .ckShardFree d => Sys2Proof.Machine.execCkShardFree d s
  | .ckRegroup d => Sys2Proof.Machine.execCkRegroup d s
  | .ckManifestRead d => Sys2Proof.Machine.execCkManifestRead d s
  | .ckNotice m => Sys2Proof.Machine.execCkNotice m s
  | .ckPrepare m => Sys2Proof.Machine.execCkPrepare m s
  | .ckReady m => Sys2Proof.Machine.execCkReady m s
  | .ckAbort m => Sys2Proof.Machine.execCkAbort m s
  | .ckDone m => Sys2Proof.Machine.execCkDone m s
  | .ckCommit m => Sys2Proof.Machine.execCkCommit m s
  | .ckFetch m => Sys2Proof.Machine.execCkFetch m s
  | .ckData m => Sys2Proof.Machine.execCkData m s
  | .ckDataAck m => Sys2Proof.Machine.execCkDataAck m s
  | .ckDataEnd m => Sys2Proof.Machine.execCkDataEnd m s
  | .ckCut bed => Sys2Proof.Machine.execCkCut bed s
  | .shardWriteComplete bed => Sys2Proof.Machine.execShardWriteComplete bed s
  | .ckDeadline bed => Sys2Proof.Machine.execCkDeadline bed s
  | .ckOrphanTimeout bed => Sys2Proof.Machine.execCkOrphanTimeout bed s
  | .ckStageTtlExpiry bed => Sys2Proof.Machine.execCkStageTtlExpiry bed s
  | .restoreLayerResident sid readable => Sys2Proof.Machine.execRestoreLayerResident sid readable s
  | .secOwnerEnroll d => Sys2Proof.Machine.execSecOwnerEnroll d s
  | .secBundleLoad d => Sys2Proof.Machine.execSecBundleLoad d s
  | .secPartitionReset d => Sys2Proof.Machine.execSecPartitionReset d s
  | .secNonce d => Sys2Proof.Machine.execSecNonce d s
  | .secZeroize d => Sys2Proof.Machine.execSecZeroize d s
  | .secCertRead d => Sys2Proof.Machine.execSecCertRead d s
  | .secMeasure d => Sys2Proof.Machine.execSecMeasure d s
  | .zeroizeNonceLapse => Sys2Proof.Machine.execZeroizeNonceLapse s
  | .selftestComplete pass => Sys2Proof.Machine.execSelftestComplete pass s
  | .drbgHealthFailure => Sys2Proof.Machine.execDrbgHealthFailure s
  | .ideIntegrityFailure ix => Sys2Proof.Machine.execIdeIntegrityFailure ix s
  | .tdispRequest bed r => Sys2Proof.Machine.execTdispRequest bed r s
  | .spdmRequest oob r => Sys2Proof.Machine.execSpdmRequest oob r s
  | .mctpJournalRead start => Sys2Proof.Machine.execMctpJournalRead start s
  | .faultRead start => Sys2Proof.Machine.execFaultRead start s
  | .healthRead => Sys2Proof.Machine.execHealthRead s
  | .zeroizeNonce => Sys2Proof.Machine.execZeroizeNonce s
  | .zeroize token => Sys2Proof.Machine.execZeroize token s
  | .fltLogRead d => Sys2Proof.Machine.execFltLogRead d s
  | .fltUnitUnfence d => Sys2Proof.Machine.execFltUnitUnfence d s
  | .fltRegionRecover d => Sys2Proof.Machine.execFltRegionRecover d s
  | .unitTestComplete e => Sys2Proof.Machine.execUnitTestComplete e s
  | .faultDetect f => Sys2Proof.Machine.execFaultDetect f s
  | .unitWatchdog u sid => Sys2Proof.Machine.execUnitWatchdog u sid s
  | .fltFirstArm v => Sys2Proof.Machine.execFltFirstArm v s
  | .fltBedFirstArm bed v => Sys2Proof.Machine.execFltBedFirstArm bed v s
  | .fltInject v => Sys2Proof.Machine.execFltInject v s
  | .ctrClear set => Sys2Proof.Machine.execCtrClear set s
  | .ctrRun set run => Sys2Proof.Machine.execCtrRun set run s
  | .ctrGlobalStart => Sys2Proof.Machine.execCtrGlobalStart s
  | .ctrGlobalStop => Sys2Proof.Machine.execCtrGlobalStop s
  | .ctrGrant beds => Sys2Proof.Machine.execCtrGrant beds s
  | .trcMark d => Sys2Proof.Machine.execTrcMark d s
  | .ctrSnapshot d => Sys2Proof.Machine.execCtrSnapshot d s
  | .traceRecordWrite buffer => Sys2Proof.Machine.execTraceRecordWrite buffer s
  | .traceHeadWrite fn v => Sys2Proof.Machine.execTraceHeadWrite fn v s
  | .powerOn => Sys2Proof.Machine.execPowerOn s
  | .powerOnResetRelease strap => Sys2Proof.Machine.execPowerOnResetRelease strap s
  | .stackTrainingComplete mask => Sys2Proof.Machine.execStackTrainingComplete mask s
  | .memoryReady => Sys2Proof.Machine.execMemoryReady s
  | .vinLow => Sys2Proof.Machine.execVinLow s
  | .vinHigh => Sys2Proof.Machine.execVinHigh s
  | .vinOvervoltage => Sys2Proof.Machine.execVinOvervoltage s
  | .powerLoss => Sys2Proof.Machine.execPowerLoss s
  | .thermalWarning cls sensor => Sys2Proof.Machine.execThermalWarning cls sensor s
  | .thermalShutdown => Sys2Proof.Machine.execThermalShutdown s
  | .deviceReset => Sys2Proof.Machine.execDeviceReset s
  | .hubResetCtrl v => Sys2Proof.Machine.execHubResetCtrl v s
  | .hubRegionReset mask => Sys2Proof.Machine.execHubRegionReset mask s
  | .perst => Sys2Proof.Machine.execPerst s
  | .cxlLinkUp port width rate => Sys2Proof.Machine.execCxlLinkUp port width rate s
  | .hostLinkUp => Sys2Proof.Machine.execHostLinkUp s
  | .hostLinkDown => Sys2Proof.Machine.execHostLinkDown s
  | .devResetNAssert => Sys2Proof.Machine.execDevResetNAssert s
  | .thermalWarningEnd cls sensor => Sys2Proof.Machine.execThermalWarningEnd cls sensor s

end Sys2Proof.Machine
end

