-- ==== Sys2Proof/Safety.lean ====
section
/-! DEFINITION. What a sound state is, and what a safe run is, in the terms the statements use. -/

namespace Sys2Proof.Machine

/-- Near memory, host memory and the ring SRAM are each in the canonical form. -/
def State.memoryCanonical (s : State) : Bool := Mem.wf s.mem.near && Mem.wf s.mem.host && Mem.wf s.mem.sram

/-- Every command that waits can be sent. -/
def State.queueWellFormed (s : State) : Bool := s.pending.all Instr.wf

/-- The device is on, not held in reset, and not in the safe state: everything may happen (R463, R503). -/
def State.active (s : State) : Bool := s.powered && !s.flt.safe

/-- The engine may run a descriptor now: the device acts, the descriptor is in flight, nothing it waits for is before it (R83), no C3
fault has stopped its Bed (R462), no other node holds a line of its buffers (R391), and what it reads first carries no poison (R71). -/
def State.mayRun (s : State) (d : Desc) : Bool :=
  s.active && s.running d && !s.blocked d && !((dBed d).any fun b => s.flt.fatalBeds.contains b) && (s.mustRecall d).isEmpty &&
  !s.inputPoison d

/-- The version of the home map held, as ownership messages carry it (R94, R102). -/
def State.heldVersion (s : State) : W32 := match s.ses.map with | some h => h.version | none => 0

end Sys2Proof.Machine
end

