-- ==== Sys2Proof/Certificates/Slice0/Obligations.lean ====
section
/-! DEFINITION. The statements for the provers. Parts: register accesses, time and the command engine; sessions; scheduling, layer exchange,
Grafts and pages; text, Furrows and the memory tiers; search and links; exported memory and checkpoints; security, faults,
observation and power; rules of the whole device. -/

section Statements

open Sys2Proof Sys2Proof.Machine

/-- Frame Time, the exchange (R47, R48): each command of an exchange answers a next state, and which. -/
def Obligations.TimeExchangeRuns : Prop :=
  (∀ (s : State) (p : Fin 8) (m : TimeMsg), s.active = true → s.timeFits m = true → s.timePort = some p.val →
    s.time.exch = none →
    exec (.beacon p m) s = .next { s with time := { s.time with
      exch := some { port := p, seq := m.seq, t1 := m.time, t2 := s.dieFt (p / 2), corr := m.corr } } }) ∧
  (∀ (s : State) (x : Exchange), s.active = true → s.time.exch = some x → x.t3 = none →
    exec .delayRequest s = .next { s with
      time := { s.time with exch := some { x with t3 := some (s.dieFt (x.port / 2)) } }
      toSend := s.toSend ++ [{ dest := s.fget F.FT_REF_NODE_NODE_ID 0, port := some x.port, msg := (.time 2
        { version := 1, domain := s.fget F.FT_REF_NODE_DOMAIN 0, sender := s.node, seq := x.seq, time := 0, corr := 0,
          target := s.fget F.FT_REF_NODE_NODE_ID 0 }) }] }) ∧
  (∀ (s : State) (m : TimeMsg) (x : Exchange) (t3 : W64), s.active = true → s.time.exch = some x → x.t3 = some t3 →
    s.timeFits m = true → m.target = s.node → m.seq = x.seq → ftLater (s.dieFt (x.port / 2)) (ftAdd t3 48) = false →
    exec (.delayResponse m) s = .next (s.apart fun s =>
      let inward := ftDiff x.t2 x.t1 - x.corr.toInt
      let outward := ftDiff m.time t3 - m.corr.toInt
      let offset := s.freeDiv (inward - outward) 2
      let delay := offset.2.freeDiv (inward + outward) 2
      let ended : State := { delay.2 with time := { delay.2.time with exch := none } }
      let shown := ended.wrN .FT_PATH_DELAY (min (2 ^ 32 - 1) delay.1.toNat) 0
      shown.exchanged (offset.1 - shown.rdInt .FT_ASYM_CORR) shown.byFabric)) ∧
  (∀ (s : State) (x : Exchange) (t3 : W64), s.active = true → s.time.exch = some x → x.t3 = some t3 →
    ftReached (s.dieFt (x.port / 2)) (ftAdd t3 48) = true →
    exec .exchangeAbandon s = .next { s with time := { s.time with exch := none } }) ∧
  (∀ (s : State) (v : W64), s.active = true → s.fget F.FT_CTRL_SOURCE 0 = 1 →
    exec (.ftHostCommit v) s = .next (s.apart fun s =>
      let u := (s.wr64 .FT_HOST_LO .FT_HOST_HI v.toNat 0).wrN .FT_PATH_DELAY 0 0
      u.exchanged (ftDiff u.time.hub v - u.rdInt .FT_ASYM_CORR) byPf))

/-- Frame Time, the hub (R43, R44, R49, R508). -/
def Obligations.HubTimeRuns : Prop :=
  (∀ s : State, s.active = true → s.time.slew ≠ 0 → s.freq ≠ s.applied →
    exec .slewEnd s = .next (s.apart fun s =>
      let rate := (s.freq - s.applied).natAbs
      let dt := (s.time.slew.natAbs * 1000000000 + rate - 1) / rate
      State.steerAll { s with time := { s.time with
        hub := s.time.hub + BitVec.ofInt 64 (corrected dt s.freq - s.time.slew), slew := 0
        removed := s.time.removed + s.time.slew } })) ∧
  (∀ s : State, s.active = true →
    ftReached s.now (ftAdd s.time.lastDone (48 * max 1 (s.rdN .FT_BEACON_TIMEOUT 0))) = true →
    (s.ftState = Fs.acquiring →
      exec .ftBeaconTimeout s = .next (s.apart fun s => (s.ftGo Fs.free byDevice).setStatus F.FT_STATUS_REF_LOST 0)) ∧
    (s.ftState = Fs.locked →
      exec .ftBeaconTimeout s = .next (s.apart fun s => (s.ftGo Fs.holdover byDevice).setStatus F.FT_STATUS_REF_LOST 0))) ∧
  (∀ s : State, s.active = true → s.ftState = Fs.holdover →
    ftReached s.now (ftAdd s.time.since (s.rdN .FT_HOLDOVER_LIMIT 0)) = true →
    exec .holdoverExpired s =
      .next (s.apart fun s => (s.ftGo Fs.free byDevice).setStatus F.FT_STATUS_HOLDOVER_EXPIRED 0)) ∧
  (∀ (s : State) (v : Fin 4), s.active = true → s.fget F.FT_CTRL_SOURCE 0 ≠ v.val →
    exec (.ftSourceWrite v) s = .next (s.apart fun s =>
      let u := s.fset F.FT_CTRL_SOURCE v 0
      let w : State := { u with time := { u.time with exch := none, prev := none } }
      (w.ftEntry byPf (2 + 256 * s.fget F.FT_CTRL_SOURCE 0 + 65536 * v.val) 0 0).ftGo Fs.free byPf)) ∧
  (∀ s : State, s.active = true →
    let offset := (BitVec.ofNat 64 (s.rd64 .FT_OFFSET_LO .FT_OFFSET_HI 0)).toInt
    (offset ≤ 0 ∨ s.serving = false → exec .stepNow s = .next (s.apart fun s => s.ftStep (-offset) byPf)) ∧
    (0 < offset → s.serving = true →
      exec .stepNow s = .next (s.apart fun s => s.setStatus F.FT_STATUS_STEP_REFUSED 0))) ∧
  (∀ (s : State) (dt : Nat), s.pow.supply = .on →
    exec (.timeWord dt) s = .next { s with time :=
      let u := (s.advance dt).time
      { u with regions := u.regions.map (steer u.hub), dies := u.dies.map (steer u.hub) } })

/-- Region clocks and replicas (R30 to R33, R51, R52). -/
def Obligations.RegionClockRuns : Prop :=
  (∀ (s : State) (r : Nat), s.active = true →
    exec (.replicaWordLoss (.region r)) s = .next (s.apart fun s =>
      State.raise { s with time := { s.time with
        regions := s.time.regions.modify r fun x => { x with failed := true, synced := false, track := 0 } } }
        { source := 0x20, bed := s.bedOfRegion r, location := r })) ∧
  (∀ (s : State) (q : Nat), s.active = true →
    exec (.replicaWordLoss (.die q)) s = .next (s.apart fun s =>
      State.raise { s with time := { s.time with
        dies := s.time.dies.modify q fun x => { x with failed := true, synced := false, track := 0 } } }
        { source := 0x28, location := q })) ∧
  (∀ (s : State) (r : Fin 16), s.active = true → s.fget F.RGN_CLK_STATUS_RESYNC_PENDING r = 1 →
    exec (.replicaResync r) s = .next (State.fset { s with time := { s.time with
      regions := s.time.regions.modify r fun x =>
        { x with count := s.time.hub, synced := true, track := 0, failed := false } } }
      F.RGN_CLK_STATUS_RESYNC_PENDING 0 r)) ∧
  (∀ (s : State) (r : Fin 16) (on : Bool), s.active = true →
    exec (.gateReq r on) s = .next (s.fset F.RGN_CLK_CTRL_GATE_REQ (if on then 1 else 0) r)) ∧
  (∀ (s : State) (r : Fin 16), s.active = true → s.fget F.RGN_CLK_CTRL_GATE_REQ r = 1 →
    s.fget F.RGN_CLK_STATUS_STOPPED r = 0 → s.fget F.RGN_CLK_STATUS_RESYNC_PENDING r = 0 → s.quiescent r = true →
    ∃ t, exec (.regionClockStop r) s = .next t ∧ t.fget F.RGN_CLK_STATUS_STOPPED r = 1 ∧
      t.fget F.RGN_CLK_STATUS_FREQ_MHZ r = 0 ∧ t.fget F.RGN_CLK_STATUS_STRETCHED r = 1 ∧ t.mem = s.mem ∧
      t.sch = s.sch ∧ t.time.hub = s.time.hub ∧
      t.time.regions = s.time.regions.modify r fun x => { x with synced := false, track := 0 }) ∧
  (∀ (s : State) (r : Fin 16), s.active = true → s.fget F.RGN_CLK_STATUS_STOPPED r = 1 →
    ∃ t, exec (.regionClockRestart r) s = .next t ∧ t.fget F.RGN_CLK_STATUS_STOPPED r = 0 ∧
      t.fget F.RGN_CLK_STATUS_RESYNC_PENDING r = 1 ∧ t.fget F.RGN_CLK_STATUS_FREQ_MHZ r = 1800 ∧
      t.fget F.RGN_CLK_CTRL_GATE_REQ r = s.fget F.RGN_CLK_CTRL_GATE_REQ r ∧ t.mem = s.mem ∧ t.time = s.time) ∧
  (∀ (s : State) (r : Fin 16) (mhz : Nat), s.active = true → s.fget F.RGN_CLK_STATUS_STOPPED r = 0 →
    (1200 ≤ mhz → mhz ≤ 1800 → ∃ t, exec (.supplyDroop r mhz) s = .next t ∧
      t.fget F.RGN_CLK_STATUS_FREQ_MHZ r = mhz ∧ t.fget F.RGN_CLK_STATUS_STRETCHED r = (if mhz < 1800 then 1 else 0) ∧
      t.mem = s.mem ∧ t.time = s.time ∧ t.sch = s.sch) ∧
    (mhz < 1200 → exec (.supplyDroop r mhz) s =
      .next (s.apart fun s => s.raise { source := 0x21, bed := s.bedOfRegion r, location := r })))

/-- Register accesses of the host (R11 to R14, R82). -/
def Obligations.RegisterAccessRuns : Prop :=
  (∀ (s : State) (a : Access32) (r : Reg) (up : RN), s.active = true → s.admits a = true → s.locate a = .reg r →
    r.name.upper = some up → s.freeView r = false → s.freeView { r with name := up } = false →
    ∃ t, exec (.pairLowerRead a) s = .next t ∧ t.bus.readData = (s.shown r).1 ∧
      t.latched ⟨a.fn, r⟩ = some (s.shown { r with name := up }).1 ∧ t.regs = s.regs ∧ t.mem = s.mem ∧ t.time = s.time) ∧
  (∀ (s : State) (a : Access32) (v : W32) (r : Reg), s.active = true → s.admits a = true → s.locate a = .reg r →
    r.name.upper.isSome = true → r.name.writeMask ≠ 0 →
    ∃ t, exec (.pairLowerWrite a v) s = .next t ∧ t.heldHalf ⟨a.fn, r⟩ = some v ∧ t.regs = s.regs ∧ t.mem = s.mem ∧
      t.time = s.time) ∧
  (∀ (s : State) (a : Access32) (v : W32) (r : Reg) (low : RN), s.active = true → s.admits a = true →
    s.locate a = .reg r → r.name.lower = some low → r.name.writeMask ≠ 0 → low ≠ .FT_HOST_LO → low ≠ .TRC_BASE_LO →
    let key : PairKey := ⟨a.fn, { r with name := low }⟩
    ∃ t, exec (.pairUpperWrite a v) s = .next t ∧ t.rd r = v ∧
      t.rd { r with name := low } = (s.heldHalf key).getD (s.rd { r with name := low }) ∧ t.heldHalf key = none ∧
      (∀ q, q ≠ r → q ≠ { r with name := low } → t.rd q = s.rd q) ∧ t.mem = s.mem ∧ t.time = s.time) ∧
  (∀ (s : State) (a : Access32) (hw : W32) (r : Reg), s.active = true → s.admits a = true → s.locate a = .reg r →
    r.name.upper = none → r.name.lower = none → r.name.rcMask ≠ 0 → s.freeView r = false →
    ∃ t, exec (.rcRead a hw) s = .next t ∧ t.bus.readData = (s.shown r).1 ∧
      t.rd r = (s.rd r &&& ~~~r.name.rcMask) ||| (hw &&& r.name.rcMask) ∧ (∀ q, q ≠ r → t.rd q = s.rd q) ∧
      t.mem = s.mem ∧ t.time = s.time) ∧
  (∀ (s : State) (a : Access32) (v hw : W32) (r : Reg), s.active = true → s.admits a = true → s.locate a = .reg r →
    (r.name.maskOf fun i => i.acc == .w1c) ≠ 0 →
    exec (.w1cWrite a v hw) s = .next (s.apart fun s => s.w1c r v hw)) ∧
  (∀ (s : State) (a : Access32) (v : W32) (r st : Reg), s.active = true → s.admits a = true → s.locate a = .reg r →
    r.governed = some st →
    exec (.intEnableWrite a v) s = .next (s.apart fun s =>
      (s.wr r ((s.rd r &&& ~~~r.name.writeMask) ||| (v &&& r.name.writeMask))).resignal st)) ∧
  (∀ (s : State) (a : Access32) (v : W32) (r : Reg), s.active = true → s.admits a = true → s.locate a = .reg r →
    s.plainFields r ≠ 0 → plwClass r.name = none → r.name ≠ .RING_CQ →
    exec (.registerWrite a v) s =
      .next (s.wr r ((s.rd r &&& ~~~s.plainFields r) ||| (v &&& s.plainFields r)))) ∧
  (∀ (s : State) (a : Access32) (v : W32), s.active = true → s.admits a = true → s.locate a = .nothing →
    exec (.registerWrite a v) s = .next s)

/-- The interface and its rings (R72, R75, R77, R79). -/
def Obligations.InterfaceCommandsRun : Prop :=
  (∀ (s : State) (d : Desc) (major minor : Nat) (rest : List (Nat × Nat)), s.mayRun d = true →
    (dBed d).all (s.start d).bedConfigured = true →
    ((dBed d).any fun b => bitSet (s.start d).sec.policy 0 && (s.start d).fget F.SEC_BED_STATE_TDI b != 2) = false →
    ((s.start d).ifOpenBit (dFn d) && (s.start d).host.rings.any fun q => q.fn == dFn d) = false →
    (s.start d).common (dArg d 48 4 % 8) [dArg d 49 1, dArg d 50 1, dArg d 51 1] = (major, minor) :: rest →
    exec (.ifOpen d) s = .next (s.apart fun s =>
      let u := s.start d
      let heard : State := { u with host := { u.host with quiet := u.host.quiet.filter fun f => f != dFn d } }
      (heard.wrN .IF_STATE (256 + (major * 16 + minor % 16)) (dFn d)).complete d St.ok (major * 16 + minor % 16))) ∧
  (∀ (s : State) (d : Desc), s.mayRun d = true → ((s.start d).host.rings.any fun q => q.fn == dFn d) = false →
    (s.start d).host.closing = [] →
    exec (.ifClose d) s = .next (s.apart fun s => ((s.start d).wrN .IF_STATE 0 (dFn d)).complete d St.ok)) ∧
  (∀ (s : State) (d : Desc), s.mayRun d = true → dArg d 48 2 < ringMax (dFn d) →
    (s.start d).ring? (dFn d) (dArg d 48 2) = none →
    exec (.ringCreate d) s = .next (s.apart fun s =>
      let fn := dFn d
      let r := dArg d 48 2
      let u := (((s.start d).wrN .RING_SQ 0 fn r).wrN .RING_CQ 0 fn r).wrN .RING_IRQ_CTRL
        (dArg d 52 1 * 2 ^ 24 + dArg d 51 1 % 64 * 2 ^ 16 + dArg d 54 2) fn r
      let w := u.wrN .RING_STATE (1 + (max 4 (min 16 (dArg d 50 1)) - 4) * 4) fn r
      State.complete { w with host := { w.host with
        rings := w.host.rings ++ [{ fn := fn, idx := r, sq := d.addr0, cq := d.addr1 }] } } d St.ok)) ∧
  (∀ (s : State) (d : Desc), s.mayRun d = true → ((s.start d).ring? (dFn d) (dArg d 48 2)).isSome = true →
    (s.start d).ringState (dFn d) (dArg d 48 2) = 1 →
    exec (.ringDestroy d) s = .next (s.apart fun s => (s.start d).ringStop (dFn d) (dArg d 48 2) (some d))) ∧
  (∀ (s : State) (fn : Fin 17) (r : Fin 256) (q : Ring), s.active = true → s.ring? fn r = some q →
    s.ringState fn r = 2 → s.ringInflight fn r = 0 →
    exec (.ringDrainComplete fn r) s = .next (s.apart fun s =>
      let u := s.fset F.RING_STATE_STATE 0 fn r
      let w : State := { u with host := { u.host with
        rings := u.host.rings.filter fun x => !(x.fn == fn.val && x.idx == r.val) } }
      (w.complete? q.destroy St.ok (s.fget F.RING_SQ_HEAD fn r + q.discarded % 2 ^ 16 * 2 ^ 16)).closeDone fn)) ∧
  (∀ (s : State) (d : Desc), s.mayRun d = true →
    exec (.nop d) s = .next (s.apart fun s => (s.start d).complete d St.ok))

/-- The command engine and the keep store (R73, R76, R78, R81, R88, R89, R326). -/
def Obligations.CommandEngineRuns : Prop :=
  (∀ (s : State) (d : Desc) (f : W32) (gap : Bool) (n : W32), s.mayRun d = true →
    (s.start d).journalStart (BitVec.ofNat 32 (dArg d 48 4)) = (some f, gap, n) →
    exec (.journalRead d) s = .next (s.apart fun s =>
      let u := s.start d
      let found := u.entriesFrom f (fun bs => (dBed d).all fun b => bytesAt bs 7 1 == b) (dLen0 d / 64)
      let bytes := List.flatten (found.map fun r => r.2)
      let next := u.readNext (found.getLast?.map fun r => r.1)
      (next.2.writeAddr d d.addr0 bytes).complete d St.ok
        (next.1.toNat + found.length % 2 ^ 16 * 2 ^ 32 + if gap then 2 ^ 63 else 0))) ∧
  (∀ (s : State) (fn : Fin 17) (m : Fin 16), s.active = true → s.fget F.MB_STATUS_BUSY fn m ≠ 1 →
    let bytes := (List.range 16).flatMap fun k => leBytes 4 (s.rdN .MB_DESC fn (m * 16 + k))
    let d := dParse (.mailbox fn m) bytes
    (s.fset F.MB_STATUS_BUSY 1 fn m).gate d = none →
    exec (.mailboxGo fn m) s = .next { s.fset F.MB_STATUS_BUSY 1 fn m with
      host := { s.host with inflight := s.host.inflight ++ [{ desc := d }] } }) ∧
  (∀ (s : State) (fn : Fin 17) (r : Fin 256) (v : W16), s.active = true → s.ringState fn r = 1 →
    exec (.ringDoorbell fn r v) s = .next (s.fset F.RING_SQ_TAIL (v.toNat % s.ringSize fn r) fn r)) ∧
  (∀ (s : State) (fn : Fin 17) (r : Fin 256) (q : Ring), s.active = true → s.ring? fn r = some q →
    s.fetchable fn r = true →
    let head := s.fget F.RING_SQ_HEAD fn r
    exec (.descriptorFetch fn r) s = .next (s.apart fun s =>
      let addr := q.sq + BitVec.ofNat 64 (64 * head)
      (((s.served fn r).touchAddr { src := .ring fn r head } addr 64).fset F.RING_SQ_HEAD ((head + 1) % s.ringSize fn r) fn r).take
        (dParse (.ring fn r head) (s.readAddr { src := .ring fn r head } addr 64)))) ∧
  (∀ (s : State) (fn : Fin 17) (r : Fin 256) (q : Ring), s.active = true → s.ring? fn r = some q → q.pending ≠ 0 →
    s.fget F.RING_IRQ_CTRL_DELAY fn r ≠ 0 →
    ftReached s.now (q.oldest + BitVec.ofNat 64 (s.fget F.RING_IRQ_CTRL_DELAY fn r * 2 ^ 16)) = true →
    ∃ t, exec (.ringIrqDelay fn r) s = .next t ∧
      t.bus.msix = (fn.val, s.fget F.RING_IRQ_CTRL_VECTOR fn r) :: s.bus.msix ∧ t.regs = s.regs ∧ t.mem = s.mem ∧
      t.host.rings = updFirst (fun q => q.fn == fn.val && q.idx == r.val) (fun q => { q with pending := 0 }) s.host.rings) ∧
  (∀ (s : State) (fn : Fin 17), s.powered = true →
    ∃ t, exec (.functionLevelReset fn) s = .next t ∧ t.host.rings = s.host.rings.filter (fun q => q.fn != fn.val) ∧
      t.host.inflight = s.host.inflight.filter (fun i => dFn i.desc != fn.val) ∧
      t.mem = { s.mem with sram := Mem.clear s.mem.sram (sramAddr fn 0) 65536 } ∧ t.keep = s.keep ∧ t.time = s.time ∧
      t.ses = s.ses) ∧
  (∀ s : State, s.active = true → s.keep.ready = true → s.keep.queue ≠ [] →
    exec .keepStoreProgram s = .next (s.apart fun s =>
      let opened := State.keepBatch { s with keep := { s.keep with queue := [] } }
      let durable := s.keep.queue.foldl (fun s i => s.programItem i) opened
      s.keep.queue.foldl (fun s i => s.effect i.eff) durable))

/-- Session commands that a Bed issues about a session (R98, R110, R114, R117, R513). -/
def Obligations.SessionCommandsRun : Prop :=
  (∀ (s u : State) (d : Desc) (home : Nat), s.mayRun d = true → u = s.start d → u.entry? d.target = none →
    (u.ses.waits.any fun w => w.sid == d.target && w.why == SesWhy.open) = false →
    (u.profile? (State.cmdBed d) (dArg d 48 2)).isSome = true → u.ownsFurrow (State.cmdBed d) (dArg d 52 2) = true →
    u.dirQuotaOk (State.cmdBed d) = true → u.liveQuotaOk (State.cmdBed d) = true → u.homeOf d.target = some home →
    exec (.sesOpen d) s = .next (s.apart fun _ =>
      (u.addWait { sid := d.target, why := .open, since := u.now, d := some d }).sendHome d.target .claim
        { flagNew := true })) ∧
  (∀ (s u : State) (d : Desc) (e : Entry), s.mayRun d = true → u = s.start d → u.heldEntry d d.target = .ok e →
    (e.state = .live → exec (.sesClose d) s = .next (s.apart fun _ => u.addBoundary e.sid (.close (some d)))) ∧
    (e.state ≠ .live → e.state ≠ .closed →
      exec (.sesClose d) s = .next (s.apart fun _ => u.closeNow e.sid (some d)))) ∧
  (∀ (s u : State) (d : Desc) (e : Entry), s.mayRun d = true → u = s.start d → u.heldEntry d d.target = .ok e →
    e.state = .live →
    exec (.sesPause d) s = .next (s.apart fun _ => u.addBoundary e.sid (.pause (dArg d 48 1 % 4) d))) ∧
  (∀ (s u t : State) (d : Desc) (o e : Entry), s.mayRun d = true → u = s.start d → u.owner? d.target = some o →
    u.heldEntry d d.target = .ok e → e.state ≠ .live → e.state ≠ .closed → dArg d 48 2 = 0xFFFF →
    u.liveQuotaOk e.bed = true → u.owner? e.sid = some e → u.wake e (some d) = .ok t →
    exec (.sesResume d) s = .next (s.apart fun _ => t)) ∧
  (∀ (s u t : State) (d : Desc) (e : Entry), s.mayRun d = true → u = s.start d → u.heldEntry d d.target = .ok e →
    dArg d 48 1 = 1 ∨ dArg d 48 1 = 2 →
    (e.state = .live →
      exec (.sesPark d) s = .next (s.apart fun _ => u.addBoundary e.sid (.park (tierOf (dArg d 48 1)) d))) ∧
    (e.state = .paused → u.liveWaits e.sid = false → u.moveOf (.session e.sid) = none →
      ((u.flushIntake e.sid).idleSlot e.sid).startDown e (dArg d 48 1) (some d) = .ok t →
      exec (.sesPark d) s = .next (s.apart fun _ => t.updEntry e.sid fun e =>
        { e with state := .paused, slot := none, pauseReason := 3, expiry := 0 }))) ∧
  (∀ (s u : State) (d : Desc) (e : Entry), s.mayRun d = true → u = s.start d → u.heldEntry d d.target = .ok e →
    (e.state = .live → exec (.sesCut d) s = .next (s.apart fun _ =>
      u.addBoundary e.sid (.cut (dArg d 48 1) (dArg d 56 8 % 2 ^ 23) (BitVec.ofNat 64 (dArg d 56 8)) d))) ∧
    (e.state = .paused → exec (.sesCut d) s = .next (s.apart fun _ =>
      let q := u.cutPoint e (dArg d 48 1) (dArg d 56 8 % 2 ^ 23) (BitVec.ofNat 64 (dArg d 56 8))
      (u.applyCut e q).complete d St.ok (q + (e.position - q) * 2 ^ 32))))

/-- Session commands that reach further than the session (R94, R104, R117, R514). -/
def Obligations.SessionPlacementRuns : Prop :=
  (∀ (s u : State) (d : Desc) (e : Entry), s.mayRun d = true → u = s.start d → u.heldEntry d d.target = .ok e →
    u.ses.map.isSome = true →
    (e.state = .live → exec (.sesMove d) s = .next (s.apart fun _ => u.addBoundary e.sid (.move (dArg d 48 2) d))) ∧
    (e.state = .paused → u.moveOf (.session e.sid) = none → u.liveWaits e.sid = false →
      u.ckCovered e.bed e.sid = false →
      exec (.sesMove d) s = .next (s.apart fun _ => u.moveNow e (dArg d 48 2) d))) ∧
  (∀ (s u : State) (d : Desc), s.mayRun d = true → u = s.start d →
    exec (.sesAccept d) s = .next (s.apart fun _ =>
      let others := u.ses.armed.filter fun x => x != (State.cmdBed d, d.target)
      State.complete { u with ses := { u.ses with
        armed := if dArg d 48 1 % 2 = 1 then others else others ++ [(State.cmdBed d, d.target)] } } d St.ok)) ∧
  (∀ (s u : State) (d : Desc) (home : Nat), s.mayRun d = true → u = s.start d →
    let copied := u.writeAddr d d.addr0 (match u.view? d d.target with
      | some e => entryBytes e
      | none => List.replicate 64 0)
    copied.homeOf d.target = some home → home ≠ copied.node →
    exec (.sesQuery d) s = .next (s.apart fun _ => (copied.sendHome d.target .query {}).addWait
      { sid := d.target, why := .query, since := copied.now, d := some d
        path := if (u.view? d d.target).isSome then 1 else 0 })) ∧
  (∀ (s u : State) (d : Desc), s.mayRun d = true → u = s.start d → u.bedConfigured (limitBed d) = true →
    dArg d 48 1 ≤ 5 → (decide (dArg d 48 1 < 2) = (dFn d == 0)) → u.keep.ready = true →
    exec (.sesSetLimit d) s = .next (s.apart fun _ =>
      let old := u.rdN (limitReg (dArg d 48 1)) (limitBed d)
      u.submit { journal := [u.jCmd d 0x0003 (limitBed d) (dArg d 48 1) (limitBed d) (dig32 old) (dig32 (dArg d 52 4))]
                 eff := .cmd d [] old })) ∧
  (∀ (s u : State) (d : Desc) (m : HomeMap), s.mayRun d = true → u = s.start d →
    parseMap (u.buf0 d) = some m →
    u.heldVersion.toNat < m.version.toNat → u.keep.ready = true →
    exec (.sesMapLoad d) s = .next (s.apart fun _ => u.submit
      { writes := [{ typ := 0x0040, key := 0, payload := u.buf0 d }]
        journal := [u.jCmd d 0x0004 0xFF (7 * 256) m.version.toNat
          (match u.ses.map with | some h => digest128 h.table | none => 0) (digest128 (u.buf0 d))]
        eff := .cmd d (u.buf0 d) 0 }))

/-- Ownership messages as the home takes them (R99, R103, R105, R107, R109). -/
def Obligations.HomeMessagesRun : Prop :=
  (∀ (s u t : State) (m : OwnMsg), s.active = true → u = s.msgReach m → m.mapVersion = u.heldVersion →
    u.servesHome m.sid = true → u.record? m.sid = none → m.flagNew = true → u.newRecord m.sid m.sender 1 = some t →
    exec (.claim m) s = .next (s.apart fun _ => t.confirmClaim m 1)) ∧
  (∀ (s u : State) (m : OwnMsg) (r : Entry), s.active = true → u = s.msgReach m → m.mapVersion = u.heldVersion →
    u.servesHome m.sid = true → u.record? m.sid = some r → (m.flagNew || m.flagRebuild || m.flagRevive) = false →
    homeState r = .held → r.recNode = m.node → r.recEpoch = m.epoch → m.epoch ≠ 0xFFFFFFFF#32 → m.node ≠ m.sender →
    (r.isOwner && r.state == .dropped) = false →
    exec (.claim m) s = .next (s.apart fun _ =>
      ((u.setRecord m.sid .held m.sender (m.epoch + 1)).confirmClaim m (m.epoch + 1)).sendOwn m.node none .confirm
        { sid := m.sid, epoch := m.epoch + 1, node := m.sender })) ∧
  (∀ (s u : State) (m : OwnMsg) (r : Entry), s.active = true → u = s.msgReach m → m.mapVersion = u.heldVersion →
    u.servesHome m.sid = true → u.record? m.sid = some r →
    exec (.query m) s = .next (s.apart fun _ => u.replyOwn m .answer
      { code := SesNum (homeState r), epoch := r.recEpoch, node := r.recNode, position := r.confirmed })) ∧
  (∀ (s u : State) (m : OwnMsg), s.active = true → u = s.msgReach m → m.mapVersion = u.heldVersion →
    exec (.renew m) s = .next (s.apart fun _ =>
      (u.seenOwner m.sender false).replyOwn m .renewAck { flagRebuild := u.rebuilding })) ∧
  (∀ (s u : State) (m : OwnMsg) (r : Entry), s.active = true → u = s.msgReach m → m.mapVersion = u.heldVersion →
    u.servesHome m.sid = true → u.record? m.sid = some r →
    (noteFits r m = true →
      exec (.trxAppend m) s = .next (s.apart fun _ => u.logAppend m)) ∧
    (noteFits r m = false →
      exec (.trxAppend m) s = .next (s.apart fun _ => u.replyOwn m .refuse { code := Rf.notHeld }))) ∧
  (∀ (s u : State) (m : OwnMsg) (r r' : Entry), s.active = true → u = s.msgReach m → m.mapVersion = u.heldVersion →
    u.servesHome m.sid = true → u.record? m.sid = some r → noteFits r m = true → homeState r = .held →
    r.isOwner = false →
    let dropped := (u.setRecord m.sid .dropped r.recNode r.recEpoch).settleTrx m.sid
    dropped.record? m.sid = some r' →
    exec (.dropNote m) s = .next (s.apart fun _ => dropped.answerOf m r')) ∧
  (∀ (s u : State) (m : OwnMsg) (r r' : Entry), s.active = true → u = s.msgReach m → m.mapVersion = u.heldVersion →
    u.servesHome m.sid = true → u.record? m.sid = some r → noteFits r m = true →
    let closed := (u.updEntry m.sid fun e =>
      { e with state := .closed, expiry := ftSample (ftAdd u.now u.tombstoneFt) }).settleTrx m.sid
    closed.record? m.sid = some r' →
    exec (.closeNote m) s = .next (s.apart fun _ => closed.answerOf m r'))

/-- Ownership messages as an owner takes them (R99, R104, R105, R108, R109). -/
def Obligations.OwnerMessagesRun : Prop :=
  (∀ (s u t v : State) (m : OwnMsg) (bed : Nat) (x e : Entry), s.active = true → u = s.msgReach m →
    m.mapVersion = u.heldVersion → u.ses.armed.find? (fun a => a.2 == m.sid) = some (bed, m.sid) → m.entry = some x →
    u.owner? m.sid = none → u.dirQuotaOk bed = true → (x.state ≠ .live ∨ u.liveQuotaOk bed = true) →
    (u.profile? bed x.profile).isSome = true → x.furrow = none →
    e =
      { sid := m.sid, state := x.state, own := .awaiting, isOwner := true, bed := bed, tier := .near, prio := x.prio,
        ownerNode := u.node, epoch := x.epoch + 1, profile := x.profile,
        furrow := minNat? ((u.smp.furrows.filter fun f => f.bed == bed).map fun f => f.num),
        pauseReason := x.pauseReason, position := x.position, confirmed := x.confirmed, expiry := x.expiry,
        turnStart := x.turnStart, graft := x.graft } →
    u.newOwner e = some t → t.enterNear e e.profile none = .ok v →
    exec (.offer m) s = .next (s.apart fun _ =>
      State.touchOwn { v with ses := { v.ses with armed := v.ses.armed.filter fun y => y != (bed, m.sid) } } m.sid)) ∧
  (∀ (s r u : State) (m : OwnMsg) (e : Entry), s.active = true → r = s.msgReach m → m.mapVersion = r.heldVersion →
    u = r.touchOwn m.sid →
    u.ses.waits.find? (fun w => w.sid == m.sid && (w.why == SesWhy.open || w.why == SesWhy.revive)) = none →
    u.stagedConfirm m = none → u.owner? m.sid = some e →
    (e.own = .awaiting → m.node = u.node → m.epoch = e.epoch →
      exec (.confirm m) s = .next (s.apart fun _ => ((u.firstAck m.sid (r.claimFt m.sid)).setConfirmed m.sid).settle m.sid)) ∧
    (e.own = .offered → m.node ≠ u.node → m.epoch = e.epoch + 1 →
      exec (.confirm m) s = .next (s.apart fun _ => u.movedAway e m))) ∧
  (∀ (s : State) (m : OwnMsg), s.active = true → m.code = Rf.mapMismatch →
    exec (.refuse m) s = .next { s with ses := { s.ses with
      xferOut := updAll (fun (x : Xfer) => x.seq == m.seq && x.dest == m.sender) (fun x => { x with refused := true })
        s.ses.xferOut } }) ∧
  (∀ (s r u : State) (m : OwnMsg) (e : Entry), s.active = true → r = s.msgReach m → m.mapVersion = r.heldVersion →
    u = (r.touchOwn m.sid).endQueries m.sid (some (m.epoch, m.node, m.code)) →
    u.ses.notes.find? (fun n => n.sid == m.sid && m.code == (if n.close then SesNum .closed else SesNum .dropped)) =
      none →
    u.owner? m.sid = some e → e.own = .inDoubt → m.code = SesNum .held → m.node = u.node → m.epoch = e.epoch →
    exec (.answer m) s = .next (s.apart fun _ => u.resumeDoubt e)) ∧
  (∀ (s : State) (m : OwnMsg) (x : Nat × W16 × W64), s.active = true → m.sid = 0 → m.mapVersion = s.heldVersion →
    s.ses.renewSent.find? (fun x => x.1 == m.sender && x.2.1 == m.seq) = some x → m.flagRebuild = false →
    exec (.renewAck m) s = .next { s with ses := { s.ses with
      acked := (m.sender, x.2.2) :: s.ses.acked.filter fun y => y.1 != m.sender
      renewSent := s.ses.renewSent.filter fun y => y.1 != m.sender || ftLater y.2.2 x.2.2 || y == x } }) ∧
  (∀ (s r u : State) (m : OwnMsg) (e : Entry), s.active = true → r = s.msgReach m → m.mapVersion = r.heldVersion →
    u = { r with ses := { r.ses with trxAcks := Table.set r.ses.trxAcks 0 m.sid m.ft } } → u.owner? m.sid = some e →
    exec (.trxAck m) s = .next (s.apart fun _ =>
      ((u.updEntry m.sid fun e => { e with confirmed := m.position }).touchOwn m.sid).ckTrxAck m.sid m.position))

/-- Transfer of buckets and of transcripts (R94, R110). -/
def Obligations.TransferMessagesRun : Prop :=
  (∀ (s u t : State) (m : OwnMsg) (x : Entry), s.active = true → u = s.msgReach m → m.mapVersion = u.heldVersion →
    m.entry = some x → u.isHome x.sid = true → u.entry? x.sid = none →
    u.addEntry { sid := x.sid, state := x.state, isHome := true, ownerNode := x.ownerNode, epoch := x.epoch,
                 confirmed := x.confirmed, expiry := x.expiry, recEpoch := x.epoch, recNode := x.ownerNode } = some t →
    exec (.homeXfer m) s = .next (s.apart fun _ => t)) ∧
  (∀ (s : State) (m : OwnMsg), s.active = true → m.sid = 0 → m.mapVersion = s.heldVersion →
    exec (.homeXferEnd m) s = .next { s with ses := { s.ses with
      takeUp := s.ses.takeUp.filter fun x => !(x.1 == m.node && x.2.1 == m.sender) } }) ∧
  (∀ (s u : State) (m : OwnMsg) (t : Transcript), s.active = true → u = s.msgReach m → m.mapVersion = u.heldVersion →
    u.servesHome m.sid = true → u.transcript? m.sid = some t → t.tokens.length - m.position < 64 →
    exec (.trxFetch m) s = .next (s.apart fun _ =>
      u.replyOwn m .trxData { position := m.position, tokens := (t.tokens.drop m.position).take 64 })) ∧
  (∀ (s v u : State) (m : OwnMsg) (r : Revival) (e : Entry), s.active = true → v = s.msgReach m →
    m.mapVersion = v.heldVersion → v.isHome m.sid = false → u = v.touchOwn m.sid →
    u.ses.revivals.find? (fun r => r.sid == m.sid) = some r → u.owner? m.sid = some e → e.state = .dropped →
    m.tokens.length = 64 →
    exec (.trxData m) s = .next (s.apart fun _ => { u with ses := { u.ses with
      revivals := updFirst (fun x => x.sid == m.sid)
        (fun (x : Revival) => { x with tokens := r.tokens.take m.position ++ m.tokens }) u.ses.revivals } })) ∧
  (∀ (s : State) (bucket : Fin 4096) (x : Xfer), s.active = true →
    s.ses.xferOut.filter (fun x => x.bucket == bucket.val && x.refused && ftReached s.now (ftAdd x.lastSent 48)) = [x] →
    exec (.homeXferResend bucket) s = .next (s.apart fun _ => State.sendXfer { s with ses := { s.ses with
      xferOut := s.ses.xferOut.filter fun x =>
        !(x.bucket == bucket.val && x.refused && ftReached s.now (ftAdd x.lastSent 48)) } } x)) ∧
  (∀ (s : State) (bucket : Fin 4096) (x : Nat × Nat × W64), s.active = true →
    s.ses.takeUp.find? (fun x => x.1 == bucket.val) = some x → ftReached s.now (ftAdd x.2.2 s.leaseFt) = true →
    exec (.homeXferTimeout bucket) s = .next { s with ses := { s.ses with
      takeUp := s.ses.takeUp.filter fun y => y.1 != bucket.val
      lateTake := (bucket.val, ftAdd s.now s.leaseFt) :: s.ses.lateTake } })

/-- Timers of ownership and leases (R99, R105, R107, R108, R112, R117). -/
def Obligations.LeaseTimersRun : Prop :=
  (∀ (s : State) (sid : W64) (n : Note), s.active = true →
    s.ses.notes.find? (fun n => n.sid == sid && ftReached s.now (ftAdd n.lastSent 48)) = some n →
    exec (.noteResend sid) s = .next (s.apart fun _ => State.sendHome { s with ses := { s.ses with
      notes := updFirst (fun x => x == n) (fun x => { x with lastSent := s.now }) s.ses.notes } } sid
        (if n.close then .closeNote else .dropNote) { epoch := n.epoch })) ∧
  (∀ (s : State) (sid : W64) (e : Entry), s.active = true → s.owner? sid = some e → e.own = .inDoubt →
    (∀ q, s.ses.queries.find? (fun q => q.1 == sid) = some q → ftReached s.now (ftAdd q.2 48) = true) →
    exec (.ownershipQueryTimer sid) s = .next (s.apart fun _ => State.sendHome { s with ses := { s.ses with
      queries := (sid, s.now) :: s.ses.queries.filter fun q => q.1 != sid } } sid .query {})) ∧
  (∀ (s : State) (home : Fin 512), s.active = true → (s.ownedUnder home) ≠ [] →
    ((s.ses.renewSent.filter fun x => x.1 == home.val).getLast?.all fun x =>
      ftReached s.now (ftAdd x.2.2 s.renewFt)) = true →
    exec (.renewSend home) s = .next (s.apart fun _ =>
      let sent := s.sendOwn home none .renew {}
      { sent with ses := { sent.ses with renewSent := sent.ses.renewSent ++ [(home.val, s.ses.msgSeq, sent.now)] } })) ∧
  (∀ (s : State) (home : Fin 512) (x : Nat × W64), s.active = true →
    s.ses.acked.find? (fun x => x.1 == home.val) = some x →
    ftReached s.now (ftAdd x.2 (s.leaseFt - s.guardFt)) = true →
    exec (.leaseGuardExpiry home) s = .next (s.apart fun _ =>
      ((s.ownedUnder home).filter fun e => e.own == .confirmed).foldl (fun s e => s.putInDoubt e) s)) ∧
  (∀ (s : State) (owner : Fin 512) (x : Nat × W64), s.active = true →
    s.ses.renewSeen.find? (fun x => x.1 == owner.val) = some x → ftReached s.now (ftAdd x.2 s.leaseFt) = true →
    let es := s.ses.entries.filter fun e => e.isHome && homeState e == .held && e.recNode == owner.val
    let doubted := (es.filter fun e => e.isOwner && e.own == .confirmed && owner.val == s.node).foldl
      (fun s e => s.putInDoubt e) s
    exec (.leaseExpiry owner) s = .next (s.apart fun _ => es.foldl (fun s e =>
      ((if e.isOwner then s.setStatus F.SES_STATUS_DROPPED e.bed else s).updEntry e.sid fun e =>
        { e with state := .dropped }).settleTrx e.sid) doubted)) ∧
  (∀ (s : State) (sid : W64) (w : SesWait), s.active = true →
    s.ses.waits.find? (fun w => w.sid == sid && ftReached s.now (ftAdd w.since 480) &&
      (w.why == SesWhy.query || w.why == SesWhy.revive || (w.why == SesWhy.open && !(s.owner? sid).isSome))) = some w →
    w.why = .query →
    exec (.homeUnreachableTimeout sid) s = .next (s.apart fun _ =>
      let x := s.takeWaits sid fun x => x == .query
      x.1.foldl (fun s w => s.complete? w.d SesSt.homeUnreachable (copiedBit (w.path == 1))) x.2)) ∧
  (∀ (s : State) (t : W64), s.active = true → s.ses.rebuildUntil = some t → ftReached s.now t = true →
    exec .rebuildWindowEnd s = .next (s.apart fun _ =>
      (s.ses.transcripts.filter fun x => !(s.ses.entries.any fun e => e.sid == x.sid && e.isHome)).foldl
        (fun s x => s.discardTranscript x.sid) { s with ses := { s.ses with rebuildUntil := none } }))

/-- The times-to-live of a session (R98, R294). -/
def Obligations.TimeToLiveRuns : Prop :=
  (∀ (s t : State) (sid : W64) (e : Entry), s.active = true → s.ttlDue sid .paused none = some e →
    let shown := s.setStatus F.SES_STATUS_TTL_EXPIRED e.bed
    ((shown.parkTiers sid).findSome? fun k => if shown.tierTtl e.bed k = 0 then none else
      match (shown.flushIntake sid).startDown e k none with | .ok x => some x | .error _ => none) = some t →
    exec (.ttlPausedExpiry sid) s = .next (s.apart fun _ => t.updEntry sid fun e => { e with expiry := 0 })) ∧
  (∀ (s : State) (sid : W64) (e : Entry), s.active = true → s.ttlDue sid .parked (some .cxl) = some e →
    let shown := s.setStatus F.SES_STATUS_TTL_EXPIRED e.bed
    ((shown.parkTiers sid).contains 2 && shown.tierTtl e.bed 2 != 0) = false →
    exec (.ttlCxlExpiry sid) s = .next (s.apart fun _ =>
      (shown.setStatus F.TIER_STATUS_PARK_FALLBACK e.bed).dropSession e.sid)) ∧
  (∀ (s : State) (sid : W64) (e : Entry), s.active = true → s.ttlDue sid .parked (some .mulch) = some e →
    exec (.ttlMulchExpiry sid) s = .next (s.apart fun _ =>
      (s.setStatus F.SES_STATUS_TTL_EXPIRED e.bed).dropSession sid)) ∧
  (∀ (s : State) (sid : W64) (e : Entry), s.active = true → s.ttlDue sid .dropped none = some e →
    exec (.ttlDroppedExpiry sid) s = .next (s.apart fun _ =>
      (s.setStatus F.SES_STATUS_TTL_EXPIRED e.bed).closeNow sid none)) ∧
  (∀ (s : State) (sid : W64) (e : Entry), s.active = true → s.entry? sid = some e → e.isHome = true →
    e.isOwner = false → e.state = .closed → ftReached s.now (ftExtend40 e.expiry) = true →
    exec (.tombstoneExpiry sid) s = .next (s.apart fun _ => (s.freeEntry sid).discardTranscript sid))

/-- Profiles, slots and a step boundary (R122, R125, R127, R138). -/
def Obligations.SchedulingRuns : Prop :=
  (∀ (s u : State) (d : Desc), s.mayRun d = true → u = s.start d →
    u.profileRefusal (profileFrom ((dBed d).getD 0) (u.buf0N d 256)) (dLen0 d) = none → u.keep.ready = true →
    exec (.schProfileLoad d) s = .next (s.apart fun _ =>
      let p := profileFrom ((dBed d).getD 0) (u.buf0N d 256)
      u.submit { journal := [u.profileEntry d ((dBed d).getD 0) p.id 0 0 (digest128 (u.buf0N d 256))]
                 eff := .cmd d (u.buf0N d 256) 0 })) ∧
  (∀ (s u : State) (d : Desc) (p : Profile), s.mayRun d = true → u = s.start d →
    u.profile? ((dBed d).getD 0) (dArg d 48 2) = some p → u.profileNamed ((dBed d).getD 0) (dArg d 48 2) = false →
    u.keep.ready = true →
    exec (.schProfileUnload d) s = .next (s.apart fun _ =>
      u.submit { journal := [u.profileEntry d ((dBed d).getD 0) (dArg d 48 2) 1 (digest128 p.bytes) 0]
                 eff := .cmd d [] 0 })) ∧
  (∀ (s u : State) (d : Desc) (t : Slot), s.mayRun d = true → u = s.start d → u.slotTarget d = some t →
    exec (.schSlotRead d) s = .next (s.apart fun _ =>
      (u.writeAddr d d.addr0 (slotBytes t)).complete d St.ok t.lastM)) ∧
  (∀ (s u : State) (d : Desc) (t : Slot) (e : Entry), s.mayRun d = true → u = s.start d → u.slotTarget d = some t →
    u.heldEntry d t.sid = .ok e →
    (dArg d 48 1 = 0 → exec (.schSetSeq d) s = .next (s.apart fun _ =>
      let slots := u.updSlot t.sid fun t => { t with chPrio := some (min (dArg d 52 4) 3) }
      (slots.updEntry t.sid fun e => { e with prio := min (dArg d 52 4) 3 }).complete d St.ok (t.chPrio.getD t.prio))) ∧
    (dArg d 48 1 = 1 → exec (.schSetSeq d) s = .next (s.apart fun _ =>
      let cap := match u.profile? e.bed e.profile with | some p => p.treeMax | none => 0
      (u.updSlot t.sid fun t => { t with chTree := some (min (dArg d 52 4) cap) }).complete d St.ok
        (t.chTree.getD t.treeNodes))) ∧
    (dArg d 48 1 = 2 → exec (.schSetSeq d) s = .next (s.apart fun _ =>
      (u.updSlot t.sid fun t => { t with chClient := some (dArg d 52 4 % 256) }).complete d St.ok
        (t.chClient.getD t.client)))) ∧
  (∀ (s : State) (bed : Fin 16) (pid : W16) (p q : Profile) (f : W64) (b : Nat), s.active = true →
    s.profile? bed pid.toNat = some p → s.latest p = some (b, 0, f) → s.inTurn p b = true → p.lag = [] →
    let rs := (s.regionsOf bed).filter fun r => s.raises r
    let lag := ((s.regionsOf bed).filter fun r => !rs.contains r).map fun r => (r, p.nextB)
    let counted := ((s.bump .SCH_STEPS bed).skip bed 0).updProfile bed pid.toNat fun p =>
      { p with nextB := nextGrid p b, lag := lag }
    counted.flt.fatalBeds.contains bed.val = false → counted.ckPart? bed = none →
    let changed := (counted.applyBoundary bed pid.toNat).applyRegroups bed b
    changed.profile? bed pid.toNat = some q →
    exec (.stepBoundary bed pid) s = .next (s.apart fun _ => changed.buildLists q (ftOfSample b) (ftOfSample b) 0 rs)) ∧
  (∀ (s : State) (bed : Fin 16) (pid : W16) (p : Profile) (r n : Nat) (f : W64), s.active = true →
    s.profile? bed pid.toNat = some p → s.latest p = none → s.lateAt p = some (r, n, f) →
    exec (.stepBoundary bed pid) s = .next (s.apart fun s => s.raiseLate p r n f))

/-- The layer exchange and sampling of an entry (R172, R175, R177, R134, R260). -/
def Obligations.LayerExchangeRuns : Prop :=
  (∀ (s : State) (h : LxHdr) (payload : List Byte) (w : Work) (p : Profile), s.active = true →
    s.lxCheck h = .ok (w, p) → layerOrder w h = true → h.graft = w.graft.isSome →
    h.length = h.count * 2 * lxElems p w.graft.isSome → payload.length = h.length → 0 < h.first →
    let counted := s.bump64 .LX_LAYER_MSGS_LO .LX_LAYER_MSGS_HI w.bed
    counted.layerHere w h.layer = true →
    exec (.lxLayer h payload) s = .next (s.apart fun _ =>
      let part := partOf p w.graft.isSome h payload
      (counted.updWork w.sid fun w =>
        { w with parts := w.parts ++ [part], covered := w.covered + h.count, got := true }).runPart p w part)) ∧
  (∀ (s : State) (sid : W64) (w : Work) (p : Profile) (x : Part), s.active = true → s.work? sid = some w →
    s.profile? w.bed w.profile = some p → w.parts.find? (fun x => x.ready) = some x →
    exec (.lxReturn sid) s = .next (s.apart fun s => s.sendReturn w p x)) ∧
  (∀ (s : State) (h : LxHdr) (payload : List Byte) (w : Work) (p : Profile) (t : Table) (recs : List LogitRec),
    s.active = true → s.lxCheck h = .ok (w, p) → logitOrder w p = true → s.table? w.bed 1 p.vocabId = some t →
    payload.length = h.length →
    logitRecs p.logitMode (fun n => if n < 16 then t.nsSize n else 0) h.count payload = some recs →
    exec (.lxLogits h payload) s = .next (s.apart fun s => s.tookLogits w h.last recs)) ∧
  (∀ (s : State) (sid : W64) (w : Work) (p : Profile), s.active = true → s.work? sid = some w →
    s.profile? w.bed w.profile = some p → s.abandonDue w p = true →
    exec (.entryAbandon sid) s = .next (s.apart fun s => s.abandon w)) ∧
  (∀ (s : State) (sid : W64) (w : Work) (p : Profile) (e : Entry), s.active = true → s.work? sid = some w →
    s.owner? sid = some e → s.profile? w.bed w.profile = some p → w.sampling = true → w.done = false →
    s.samplerTurn w = true →
    (w.kind = .decode → exec (.entrySampling sid) s = .next (s.apart fun s => s.sampleDecode e w p)) ∧
    (w.kind = .finalChunk → exec (.entrySampling sid) s = .next (s.apart fun s => s.sampleFinal w p))) ∧
  (∀ (s : State) (sid : W64) (w : Work) (p : Profile), s.active = true → s.work? sid = some w →
    s.profile? w.bed w.profile = some p → w.kind = .chunk → chunkDone w p = true → w.parts = [] →
    exec (.prefillChunkComplete sid) s =
      .next (s.apart fun s => ((s.commitChunk w p).finishWork w).prefixLookup sid))

/-- Grafts and partner groups (R181, R182, R186, R187, R190). -/
def Obligations.GraftCommandsRun : Prop :=
  (∀ (s u t : State) (d : Desc) (near : List Nat) (area : Option Nat), s.mayRun d = true → u = s.start d →
    u.keep.ready = true → u.graftVerdict ((dBed d).getD 0) (u.buf0 d) = .accept →
    u.takeWhole ((dBed d).getD 0) (u.buf0 d).length = some (near, area, t) →
    exec (.graftLoad d) s = .next (s.apart fun _ => t.submit
      { journal := [u.graftEntry d ((dBed d).getD 0) 0 (graftTabId (u.buf0 d)) (graftTabVersion (u.buf0 d))
          (u.graftDigest ((dBed d).getD 0) (graftTabId (u.buf0 d))) (digest128 (u.buf0 d)) false]
        eff := .load d (u.buf0 d) near area })) ∧
  (∀ (s u : State) (d : Desc) (g : Graft), s.mayRun d = true → u = s.start d → u.keep.ready = true →
    u.graft? ((dBed d).getD 0) (dArg d 48 2) = some g →
    exec (.graftDrop d) s = .next (s.apart fun _ => u.submit
      { journal := [u.graftEntry d ((dBed d).getD 0) 1 g.id g.version (digest128 g.table) 0 false]
        eff := .cmd d [] g.version.toNat })) ∧
  (∀ (s u t : State) (d : Desc) (g : Graft), s.mayRun d = true → u = s.start d →
    u.graft? ((dBed d).getD 0) (dArg d 48 2) = some g → u.moveOf (.graft ((dBed d).getD 0) g.id g.version) = none →
    g.stow = none → g.tier ≠ dArg d 50 1 → dArg d 50 1 = 1 ∨ dArg d 50 1 = 2 →
    (u.bindings ((dBed d).getD 0) g.id g.version ≠ 0 →
      exec (.graftStow d) s = .next (s.apart fun _ => u.updGraft ((dBed d).getD 0) g.id g.version fun g =>
        { g with stow := some (dArg d 50 1, d) })) ∧
    (u.bindings ((dBed d).getD 0) g.id g.version = 0 → u.startStow g (dArg d 50 1) (some d) = .ok t →
      exec (.graftStow d) s = .next (s.apart fun _ => t))) ∧
  (∀ (s u : State) (d : Desc) (sid : W64) (e : Entry), s.mayRun d = true → u = s.start d →
    u.targetSid d = some sid → u.heldEntry d sid = .ok e →
    let new := if dArg d 48 2 = 0xFFFF then none else some (dArg d 48 2 % 4096)
    (u.slotOf sid = none → exec (.graftBind d) s = .next (s.apart fun _ =>
      (u.updEntry sid fun e => { e with graft := new }).complete d St.ok (graftField e.graft))) ∧
    (∀ t, u.slotOf sid = some t → t.chGraft = none → exec (.graftBind d) s = .next (s.apart fun _ =>
      (u.updSlot sid fun t => { t with chGraft := some new }).complete d St.ok (graftField e.graft)))) ∧
  (∀ (s u : State) (d : Desc), s.mayRun d = true → u = s.start d → u.keep.ready = true → dArg d 48 1 ≤ 15 →
    exec (.lxGroupSet d) s = .next (s.apart fun _ => u.submit
      { journal := [u.jCmd d 0x0008 ((dBed d).getD 0) (5 * 2 ^ 24) (dArg d 48 1)
          (groupDigest (u.groupRegs ((dBed d).getD 0) (dArg d 48 1))) (groupDigest (groupValues d))]
        eff := .cmd d [] 0 })) ∧
  (∀ (s u : State) (d : Desc), s.mayRun d = true → u = s.start d → u.keep.ready = true →
    u.bedConfigured (dArg d 50 1) = true →
    exec (.graftQuota d) s = .next (s.apart fun _ => u.submit
      { journal := [u.jCmd d 0x0003 (dArg d 50 1) 0x10 (dArg d 50 1) (dig32 (u.rdN .LX_GRAFT_QUOTA (dArg d 50 1)))
          (dig32 (dArg d 52 2))]
        eff := .cmd d [] (u.rdN .LX_GRAFT_QUOTA (dArg d 50 1)) })) ∧
  (∀ (s u : State) (d : Desc) (g : Graft), s.mayRun d = true → u = s.start d →
    u.graft? ((dBed d).getD 0) (dArg d 48 2) = some g →
    exec (.graftQuery d) s = .next (s.apart fun _ =>
      let copied := (u.writeAddr d d.addr0 (g.table.take 64))
      copied.complete d St.ok ((if g.moving then 3 else g.tier) +
        copied.bindings ((dBed d).getD 0) g.id g.version % 2 ^ 32 * 2 ^ 16))) ∧
  (∀ (s : State) (bed : Fin 16) (id : W16) (g : Graft), s.active = true → s.arriving bed id.toNat = some g →
    exec (.graftLayerResident bed id) s = .next (s.apart fun s =>
      let shown := s.updGraft bed id.toNat g.version fun g => { g with resident := g.resident + 1 }
      (shown.sch.work.filter fun w => w.bed == bed.val && w.graft == some (id.toNat, g.version)).foldl
        (fun s w => s.wakeParts w.sid) shown))

/-- The page commands and the prefix table (R219, R222, R223). -/
def Obligations.PageCommandsRun : Prop :=
  (∀ (s u t : State) (d : Desc) (n : Nat), s.mayRun d = true → u = s.start d → dArg d 48 1 = 0xFF →
    State.mapGranules ((dBed d).getD 0) none (u.granuleVas ((dBed d).getD 0) d.addr0.toNat (dLen0 d)) 0 u = .ok (n, t) →
    exec (.kvMap d) s = .next (s.apart fun _ => t.complete d St.ok n)) ∧
  (∀ (s u : State) (d : Desc), s.mayRun d = true → u = s.start d →
    exec (.kvUnmap d) s = .next (s.apart fun _ =>
      let vas := u.granuleVas ((dBed d).getD 0) d.addr0.toNat (dLen0 d)
      (vas.foldl (fun s va => s.unmapGranule ((dBed d).getD 0) va) u).complete d St.ok
        (vas.filter fun va => (u.granuleAt ((dBed d).getD 0) va).isSome).length)) ∧
  (∀ (s u : State) (d : Desc) (q : Seq), s.mayRun d = true → u = s.start d → u.seqFor d = .ok q →
    (dArg d 48 1 = 0 → exec (.kvSeqSet d) s = .next (s.apart fun _ =>
      (u.updSeq q.sid fun q => { q with share := dArg d 56 1 % 2 == 1 }).complete d St.ok (if q.share then 1 else 0))) ∧
    (dArg d 48 1 = 1 → ((u.owner? q.sid).any fun e => e.position != 0) = false →
      exec (.kvSeqSet d) s = .next (s.apart fun _ =>
        (u.updSeq q.sid fun q => { q with salt := BitVec.ofNat 64 (dArg d 56 8) }).complete d St.ok
          (q.salt.toNat % 2 ^ 32)))) ∧
  (∀ (s u : State) (d : Desc), s.mayRun d = true → u = s.start d →
    exec (.kvPrefixFlush d) s = .next (s.apart fun _ =>
      (u.flushNodes ((dBed d).getD 0)).complete d St.ok (u.looseNodes ((dBed d).getD 0)).length)) ∧
  (∀ (s u : State) (d : Desc) (q : Seq), s.mayRun d = true → u = s.start d → u.seqFor d = .ok q →
    (q.leaf? (dArg d 48 2) (dArg d 52 4) = none →
      exec (.kvPageQuery d) s = .next (s.apart fun _ => u.complete d St.ok 0)) ∧
    (∀ l, q.leaf? (dArg d 48 2) (dArg d 52 4) = some l →
      exec (.kvPageQuery d) s = .next (s.apart fun _ => u.complete d St.ok
        (1 + (if l.sv then 2 else 0) + (if l.shared then 4 else 0) + (if l.dirty then 8 else 0) +
          (if l.cow then 16 else 0) + paRegion l.frame % 16 * 2 ^ 8 +
          (if l.shared then l.node % 2 ^ 23 else 0) * 2 ^ 16)))) ∧
  (∀ (s t : State) (bed : Fin 16) (v : W32) (l : List Nat), s.active = true → s.fget F.KV_PFX_CTRL_ENABLE bed = 0 →
    F.KV_PFX_CTRL_ENABLE.get v = 1 →
    let sized := (s.fset F.KV_PFX_CTRL_LOG2_BUCKETS (F.KV_PFX_CTRL_LOG2_BUCKETS.get v) bed).dropPfxTable bed
    sized.takeObject bed (sized.pfxBuckets bed * 512) (sized.bedOrder bed) = some (l, t) →
    exec (.pfxEnableWrite bed v) s = .next (s.apart fun _ =>
      State.fset { t with kv := { t.kv with pfxOn := (bed.val, l) :: t.kv.pfxOn } } F.KV_PFX_CTRL_ENABLE 1 bed)) ∧
  (∀ (s : State) (sid : W64) (q : Seq) (e : Entry) (m : Move) (c : KvCopy) (p : Profile) (dst : Nat), s.active = true →
    s.seq? sid = some q → s.owner? sid = some e → s.moveOf (.session sid) = some m →
    (s.sch.work.any fun w => w.sid == sid) = false → q.copy = some c → m.pieces ≤ m.doneP →
    s.profile? e.bed e.profile = some p → m.dst = some dst → (q.leaves.filter fun l => l.dirty) = [] →
    exec (.kvCopyPass sid) s = .next (s.apart fun s => s.updSeq sid fun q =>
      { q with copy := some { passes := (q.copy.getD {}).passes + 1, complete := true } }))

/-- Input and the tokenizer tables (R235, R240 to R246). -/
def Obligations.TextIntakeRuns : Prop :=
  (∀ (s u : State) (d : Desc) (sid : W64) (e : Entry), s.mayRun d = true → u = s.start d →
    u.targetSid d = some sid → u.heldEntry d sid = .ok e → e.state = .live →
    exec (.inSubmit d) s = .next (s.apart fun _ =>
      ({ u with intake := { u.intake with
          submits := u.intake.submits ++ [{ d := d, sid := sid, records := u.buf0 d }] } } : State).pumpIntake sid)) ∧
  (∀ (s u t : State) (d : Desc) (near : List Nat) (area : Option Nat), s.mayRun d = true → u = s.start d →
    u.keep.ready = true → u.loadVerdict ((dBed d).getD 0) (tableKind (u.buf0 d)) (u.buf0 d) = .accept →
    u.takeWhole ((dBed d).getD 0) (u.buf0 d).length = some (near, area, t) →
    let entry := u.tableEntry d ((dBed d).getD 0) (tableKind (u.buf0 d)) 0 (tableId (u.buf0 d)) (tableVersion (u.buf0 d))
      (u.tableDigest ((dBed d).getD 0) (tableKind (u.buf0 d)) (tableId (u.buf0 d))) (digest128 (u.buf0 d)) false
    (1 ≤ tableKind (u.buf0 d) → tableKind (u.buf0 d) ≤ 3 → exec (.inTableLoad d) s = .next (s.apart fun _ =>
      t.submit { journal := [entry], eff := .load d (u.buf0 d) near area })) ∧
    (tableKind (u.buf0 d) = 4 → exec (.smpGrammarLoad d) s = .next (s.apart fun _ =>
      t.submit { journal := [entry], eff := .load d (u.buf0 d) near area }))) ∧
  (∀ (s u : State) (d : Desc) (kind id : Nat) (t : Table), s.mayRun d = true → u = s.start d → u.keep.ready = true →
    u.table? ((dBed d).getD 0) kind id = some t → u.tableNamed ((dBed d).getD 0) kind id = false →
    let gone := s.apart fun _ => u.submit
      { journal := [u.tableEntry d ((dBed d).getD 0) kind 1 id t.version (digest128 t.bytes) 0 false]
        eff := .cmd d [] (kind) }
    (1 ≤ kind → kind ≤ 3 → dArg d 48 1 = kind → dArg d 50 2 = id → exec (.inTableUnload d) s = .next gone) ∧
    (kind = 4 → dArg d 48 2 = id → exec (.smpGrammarUnload d) s = .next gone)) ∧
  (∀ (s u : State) (d : Desc) (p : Profile) (env : TokEnv) (t : TokSt), s.mayRun d = true → u = s.start d →
    u.profile? ((dBed d).getD 0) (dArg d 48 2) = some p → u.tokEnv p (u.tablesNow p) = some env →
    t = (({} : TokSt).text env (u.buf0 d)).flush env →
    exec (.inTokenize d) s = .next (s.apart fun _ =>
      (((u.tokAnywhere env ((dBed d).getD 0) (u.buf0 d).length t.n).writeAddr d d.addr1
        (List.flatten ((t.out.take (dLen1 d / 4)).map fun k => leBytes 4 k.toNat))).complete d St.ok
          ((min (dLen1 d / 4) t.out.length + t.out.length * 2 ^ 32))))) ∧
  (∀ (s : State) (q : Fin 4) (sid : W64) (e : Entry) (sq : Seq) (x : Submit) (p : Profile) (bs : List Byte) (last : Bool),
    s.active = true → s.owner? sid = some e → s.seq? sid = some sq →
    (s.intake.submits.find? fun y => y.sid == sid) = some x → s.profile? e.bed e.profile = some p →
    x.text = some (bs, last) → dieOf sq.region = q.val → x.begun = true → s.engineTurn q e.bed x = true →
    exec (.tokenizeChunk q sid) s = .next (s.apart fun s =>
      let r := s.textSubmit x p q (bs.take 4096) (last && (bs.drop 4096).isEmpty)
      let y := if (bs.drop 4096).isEmpty then (r.1, ({ r.2 with text := none } : Submit).hold)
        else r.1.queueChunk { r.2 with text := some (bs.drop 4096, last) }
      let t := { y.1 with intake := { y.1.intake with
        submits := updFirst (fun z => z.sid == x.sid) (fun _ => y.2) y.1.intake.submits } }
      (t.countFree (16 + q) 0x20 0 (some p.bed)).pumpIntake x.sid))

/-- Furrows, and the sampling controls of a session (R265, R271, R274). -/
def Obligations.FurrowCommandsRun : Prop :=
  (∀ (s u : State) (d : Desc), s.mayRun d = true → u = s.start d → u.furrow? (dArg d 48 2) = none →
    4 ≤ dArg d 50 1 → dArg d 50 1 ≤ 16 →
    exec (.furCreate d) s = .next (s.apart fun _ =>
      ({ u with smp := { u.smp with furrows := u.smp.furrows ++
        [{ num := dArg d 48 2, bed := (dBed d).getD 0, log2 := dArg d 50 1, base := d.addr0
           vector := dArg d 51 1 % 64, count := dArg d 52 1, delay := dArg d 54 2 }] } } : State).complete d St.ok 0)) ∧
  (∀ (s u : State) (d : Desc) (f : Furrow), s.mayRun d = true → u = s.start d → u.furrow? (dArg d 48 2) = some f →
    f.bed = (dBed d).getD 0 →
    (u.ses.entries.any fun e => e.isOwner && e.bed == (dBed d).getD 0 && e.furrow == some f.num) = false →
    exec (.furDestroy d) s = .next (s.apart fun _ =>
      ({ u with smp := { u.smp with furrows := u.smp.furrows.filter fun x => x.num != f.num } } : State).complete d St.ok
        (f.tail))) ∧
  (∀ (s u : State) (d : Desc) (sid : W64) (e : Entry), s.mayRun d = true → u = s.start d →
    u.targetSid d = some sid → u.heldEntry d sid = .ok e →
    (∀ (old : Nat) (ctl : Controls), dArg d 48 1 ≠ 5 → setField (u.lastSet e).ctl (dArg d 48 1) (dArg d 56 8) = some (old, ctl) →
      exec (.smpSet d) s = .next (s.apart fun _ => (u.setLast { u.lastSet e with ctl := ctl }).complete d St.ok old)) ∧
    (let found := (List.range 8).map fun i => stopString (u.buf0N d 512) i
     exec (.smpStopSet d) s = .next (s.apart fun _ =>
      (u.setLast { u.lastSet e with stops := found }).complete d St.ok
        ((found.filter fun x => !x.isEmpty).length)))) ∧
  (∀ (s : State) (bed : Fin 16) (v : W32) (f : Furrow), s.active = true → s.furrow? (bits v.toNat 15 0) = some f →
    f.bed = bed.val → (bits v.toNat 31 16 % furSize f + furSize f - f.head) % furSize f ≤ f.used →
    exec (.furrowHeadWrite bed v) s = .next (s.apart fun s => s.updFurrow (bits v.toNat 15 0) fun x =>
      { x with head := bits v.toNat 31 16 % furSize f
               used := x.used - (bits v.toNat 31 16 % furSize f + furSize f - f.head) % furSize f })) ∧
  (∀ (s u : State) (sid : W64) (f f' : Furrow) (c c' : OutCtx) (e : Entry), s.active = true → s.furrowOf sid = some f →
    s.ctx? sid = some c → s.flt.fatalBeds.contains f.bed = false →
    u = State.drain (c.backlog.length + c.paused.length) s sid → u.furrowOf sid = some f' → u.ctx? sid = some c' →
    u.owner? sid = some e →
    (c'.backlog ≠ [] → u.work? sid = none → exec (.furrowBacklogDrain sid) s = .next (s.apart fun _ => u)) ∧
    (∀ v : State, c'.backlog = [] → c'.paused = [] → c'.drained ≠ 0 → f'.used < furSize f' →
      v = (u.event sid 0x18 e.position 0 (leBytes 4 c'.drained)).updCtx sid (fun c => { c with drained := 0 }) →
      v.work? sid = none → exec (.furrowBacklogDrain sid) s = .next (s.apart fun _ => v))) ∧
  (∀ (s : State) (n : W16) (f : Furrow), s.active = true → s.furrow? n.toNat = some f → f.delay ≠ 0 → f.pending ≠ 0 →
    ftReached s.now (f.oldest + BitVec.ofNat 64 (f.delay * 65536)) = true →
    exec (.furrowIrqDelay n) s = .next (s.apart fun s => s.furSignal f))

/-- The commands of the memory tiers (R288, R295 to R297, R300, R301). -/
def Obligations.TierCommandsRun : Prop :=
  (∀ (s u : State) (d : Desc), s.mayRun d = true → u = s.start d → u.bedConfigured (dArg d 50 1) = true →
    u.keep.ready = true →
    exec (.tierQuota d) s = .next (s.apart fun _ =>
      let old := u.rdN (tierQuotaReg (dArg d 48 1)) (dArg d 50 1)
      u.submit { journal := [u.jCmd d 0x0003 (dArg d 50 1) (0x20 + dArg d 48 1) (dArg d 50 1) (dig32 old) (dig32 (dArg d 52 4))]
                 eff := .cmd d [] (old) })) ∧
  (∀ (s u : State) (d : Desc) (sid : W64) (e : Entry) (c : OutCtx), s.mayRun d = true → u = s.start d →
    u.targetSid d = some sid → u.heldEntry d sid = .ok e → u.ctx? sid = some c →
    exec (.tierHint d) s = .next (s.apart fun _ =>
      (u.updCtx sid fun c => { c with hint := dArg d 48 1, parkOrder := dArg d 49 1 }).complete d St.ok
        ((c.hint + 256 * c.parkOrder)))) ∧
  (∀ (s u : State) (d : Desc) (t : TensorSet), s.mayRun d = true → u = s.start d →
    u.setOf (BitVec.ofNat 64 (dArg d 56 8)) = some t → (∀ b, dBed d = some b → t.bed = b) →
    exec (.tierSetQuery d) s = .next (s.apart fun _ =>
      (u.writeAddr d d.addr0 (setBytes t)).complete d St.ok (((setBytes t).getD 0 0).toNat))) ∧
  (∀ (s u : State) (d : Desc) (ix : Nat), s.mayRun d = true → u = s.start d → u.keep.ready = true →
    u.ownerOk (dArg d 49 1) = true → u.extentOk (dArg d 48 1) (dArg d 56 8) (dArg d 52 4 * hdmUnit) = true → u.freeExtent (dArg d 48 1) = some ix →
    exec (.cxlExtentAdd d) s = .next (s.apart fun _ =>
      u.submit { journal := [u.jCmd d 0x0008 0xFF (extDetail 0) (extObject (dArg d 48 1) ix) 0 0]
                 eff := .cmd d [] (ix) })) ∧
  (∀ (s u : State) (d : Desc) (e : Extent), s.mayRun d = true → u = s.start d → u.keep.ready = true →
    u.extent? (dArg d 48 1) (dArg d 49 1) = some e → e.state = .active →
    exec (.cxlExtentRelease d) s = .next (s.apart fun _ =>
      u.submit { journal := [u.jCmd d 0x0008 0xFF (extDetail 1) (extObject e.port e.ix) 0 0], eff := .cmd d [] 0 })) ∧
  (∀ (s u : State) (d : Desc) (e : Extent), s.mayRun d = true → u = s.start d → u.keep.ready = true → (u.extentGone e).2.keep.ready = true →
    u.lostExtents d = [e] →
    exec (.cxlExtentLost d) s = .next (s.apart fun _ =>
      (u.extentGone e).2.submit { journal := [u.jCmd d 0x0008 0xFF (extDetail 2) (extObject e.port e.ix) 0 0]
                                  eff := .complete d St.ok (BitVec.ofNat 64 (u.extentGone e).1) }))

/-- Moves, backing images, extents and the Rakes of memory (R280, R282, R290 to R298, R379). -/
def Obligations.TierEventsRun : Prop :=
  (∀ (s : State) (port : Fin 4) (ix : Nat) (e : Extent), s.active = true → s.extent? port ix = some e →
    e.state = .draining → (s.tiers.sets.any fun t => setIn e t) = false →
    exec (.extentReleaseComplete port ix) s = .next (s.apart fun s =>
      ((s.journal (s.jDev 0x0008 0xFF (extDetail 1) (extObject port ix) 0 0)).dropExtent port ix).complete? e.d St.ok
        (e.relocated))) ∧
  (∀ (s : State) (ix : Nat) (m : Move) (sid : W64) (node : Nat), s.active = true → s.move? ix = some m →
    m.what = .handoff sid node → 0 < m.admitted → m.waiting = false → m.doneP < m.pieces → m.failed = false →
    s.pulling sid m.doneP = false →
    exec (.movePiece ix) s = .next (s.apart fun s => (s.updMove ix fun m =>
      { m with doneP := m.doneP + 1, admitted := m.admitted - 1 }).handoffPiece sid)) ∧
  (∀ (s : State) (ix : Nat) (m : Move) (sid : W64) (e : Entry), s.active = true → s.move? ix = some m →
    m.failed = false → m.pieces ≤ m.doneP → m.what = .session sid → s.owner? sid = some e → m.toTier = 0 →
    exec (.moveComplete ix) s = .next (s.apart fun s => (s.dropMove ix).finishUp m e)) ∧
  (∀ (s : State) (ix : Nat) (t : TensorSet), s.active = true → s.setIx? ix = some t → t.state = .backing → t.expiry ≠ 0 →
    ftReached s.now (ftExtend40 t.expiry) = true →
    exec (.backingExpiry ix) s = .next (s.apart fun s => s.releaseSet ix)) ∧
  (∀ (s : State) (port : Fin 4) (ix : Nat) (t : TensorSet), s.active = true → s.setIx? ix = some t → t.tier = 1 →
    (t.runs.any fun r => r.1 == port.val) = true →
    exec (.cxlPoisonRead port ix) s = .next (s.apart fun s =>
      (s.setStatus F.CXL_EVENT_POISON_READ port).loseSet ix) ∧
    (s.fget F.CXL_STATUS_LINK_UP port ≠ 0 → exec (.cxlRakeBlock port ix false) s = .next (s.apart fun s =>
      let counted := (s.bump64 .CXL_RD_BYTES_LO .CXL_RD_BYTES_HI port cxlBlock).count (28 + port) 0x34 0 (some t.bed)
        (cxlBlock / 64)
      { counted with tiers := { counted.tiers with cxlRake := counted.tiers.cxlRake.modify port (· + 1) } }))) ∧
  (∀ (s : State) (r : Fin 16) (inner : Nat) (wrong : List (Nat × Nat)), s.active = true →
    (s.fget F.RGN_CLK_STATUS_STOPPED r ≠ 1 → (s.stack r).rake + 1 ≠ stripeCount →
      exec (.rakeStripe r inner wrong) s = .next (s.apart fun s =>
        (((s.stripeDecode r (s.stack r).rake inner wrong).countFree r 0x12 0 none).updStack r fun k =>
          { k with rake := (s.stack r).rake + 1 }).fset F.RGN_RAKE_POS_PERCENT
            (((s.stack r).rake + 1) * 100 / stripeCount) r)) ∧
    ((s.stack r).spare = .copying → s.fget F.RGN_CLK_STATUS_STOPPED r ≠ 1 → (s.stack r).ptr + 1 = stripeCount →
      exec (.spareStripeCopy r inner wrong) s = .next (s.apart fun s =>
        ((((s.stripeDecode r (s.stack r).ptr inner wrong).countFree r 0x12 0 none).updStack r fun k =>
          { k with spare := .done, ptr := (s.stack r).ptr + 1 }).setStatus F.RGN_MEM_STATUS_SPARE_DONE r).spareNote r)) ∧
    (∀ (die : Fin 16), (s.stack r).spare ≠ .none → exec (.spareNow r die) s = .next (s.apart fun s =>
      (s.fset F.RGN_MEM_CTRL_SPARE_DIE die r).setStatus F.RGN_MEM_STATUS_SPARE_NONE r)) ∧
    (∀ (die : Fin 16), (s.stack r).spare = .none → exec (.spareNow r die) s = .next (s.apart fun s =>
      (((s.fset F.RGN_MEM_CTRL_SPARE_DIE die r).updStack r fun k => { k with spare := .copying, die := die, ptr := 0 }).setStatus
        F.RGN_MEM_STATUS_SPARE_START r).spareNote r)))

/-- The CXL link, its decoders and the access engine (R284, R297, R303). -/
def Obligations.ExpanderLinkRuns : Prop :=
  (∀ (s : State) (port : Fin 4), s.active = true →
    (s.fget F.CXL_STATUS_LINK_UP port ≠ 0 → exec (.cxlLinkDown port) s = .next (s.apart fun s =>
      ((((s.fset F.CXL_STATUS_LINK_UP 0 port).fset F.CXL_STATUS_WIDTH 0 port).fset F.CXL_STATUS_RATE 0 port).setStatus
        F.CXL_EVENT_LINK_DOWN port).portGone port)) ∧
    exec (.cxlDeviceEvent port) s = .next (s.apart fun s => s.setStatus F.CXL_EVENT_DEVICE_EVENT port) ∧
    (∀ on : Bool, s.keep.ready = true → exec (.cxlEnable port on) s = .next (s.apart fun s => s.submit
      { journal := [{ s.jDev 0x0008 0xFF (3 * 2 ^ 24) port (dig32 (s.rd ⟨.CXL_CTRL, port, 0⟩).toNat)
          (dig32 (if on then 1 else 0)) with originType := 1 }]
        eff := .linkCtl ⟨.CXL_CTRL, port, 0⟩ (if on then 1 else 0) })) ∧
    (∀ (k : Fin 8) (on : Bool), s.keep.ready = true → s.hdmOn port k = !on →
      (if on then s.hdmFits port k else s.hdmIdle port k) = true →
      exec (.hdmCommit port k on) s = .next (s.apart fun s => s.submit
        { journal := [{ s.jDev 0x0008 0xFF (3 * 2 ^ 24 + 0x108 + 16 * k) (port + 256 * k)
            (digest128 (s.hdmBytes port k (s.rd ⟨.CXL_HDM_CTRL, port, k⟩)))
            (digest128 (s.hdmBytes port k (if on then 3 else 0))) with originType := 1 }]
          eff := .linkCtl ⟨.CXL_HDM_CTRL, port, k⟩ (if on then 3 else 0) })) ∧
    (∀ (v : W32) (u : State), s.fget F.CXL_IO_CTRL_BUSY port ≠ 1 → F.CXL_IO_CTRL_GO.get v ≠ 0 →
      u = (s.fset F.CXL_IO_CTRL_OP (F.CXL_IO_CTRL_OP.get v) port).fset F.CXL_IO_CTRL_BE (F.CXL_IO_CTRL_BE.get v) port →
      exec (.cxlIoGo port v) s = .next (s.apart fun _ => ({ u with tiers := { u.tiers with io := u.tiers.io ++
        [{ port := port, op := F.CXL_IO_CTRL_OP.get v, be := F.CXL_IO_CTRL_BE.get v
           addr := BitVec.ofNat 64 (u.rd64 .CXL_IO_ADDR_LO .CXL_IO_ADDR_HI port)
           data := u.rd ⟨.CXL_IO_DATA, port, 0⟩ }] } } : State).fset F.CXL_IO_CTRL_BUSY 1 port)) ∧
    (∀ (result : Fin 4) (data : W32) (a : CxlIo) (u : State), (s.tiers.io.find? fun a => a.port == port.val) = some a →
      u = (({ s with tiers := { s.tiers with io := s.tiers.io.filter fun x => x.port != port.val } } : State).fset
        F.CXL_IO_CTRL_BUSY 0 port).fset F.CXL_IO_CTRL_RESULT result port →
      (result.val = 0 → a.op % 2 = 0 → exec (.cxlIoDone port result data) s = .next (s.apart fun _ =>
        (u.wrN .CXL_IO_DATA data.toNat port).setStatus F.CXL_EVENT_IO_DONE port)) ∧
      (result.val ≠ 0 → exec (.cxlIoDone port result data) s = .next (s.apart fun _ =>
        u.setStatus F.CXL_EVENT_IO_DONE port))))

/-- The flash stacks and the keep store's load (R309, R317 to R322, R326, R504). -/
def Obligations.FlashRuns : Prop :=
  (∀ (s u : State) (d : Desc), s.mayRun d = true → u = s.start d →
    (∀ (mine : Release → Bool) (rs : List (Nat × Nat × Nat)),
      (∀ b, dBed d = some b → ∀ r, mine r = (r.bed == some b)) → (dBed d = none → ∀ r, mine r = true) →
      rs = List.flatten ((List.range 8).map fun i =>
        ((u.flashCtl i).releases.filter mine).map fun r => (i, r.ix, r.erased)) →
      (rs = [] → exec (.flDiscardSync d) s = .next (s.apart fun _ => u.complete d St.ok 0)) ∧
      (rs ≠ [] → exec (.flDiscardSync d) s = .next (s.apart fun _ =>
        { u with flash := { u.flash with syncs := u.flash.syncs ++
          [{ d := d, waitsFor := rs.map fun x => (x.1, x.2.1), erased := (rs.map fun x => x.2.2).sum }] } }))) ∧
    (∀ (r : KeepRec), (dArg d 48 2 < 0x10 ∨ 0x1F < dArg d 48 2) →
      u.keepCur (dArg d 48 2) (BitVec.ofNat 64 (dArg d 56 8)) = some r →
      exec (.flKeepRead d) s = .next (s.apart fun _ => (u.writeAddr d d.addr0 (keepImage r)).complete d St.ok
        ((r.payload.length % 2 ^ 16 + r.seq.toNat % 2 ^ 48 * 2 ^ 16))))) ∧
  (∀ (s : State) (c : Fin 8), s.active = true →
    (∀ (a : AppendRec) (rest fit : List AppendRec), (s.flashCtl c).append = a :: rest →
      fit = appendFit 16384 (a :: rest) → ftReached s.now (ftAdd a.at_ 1) = true →
      exec (.appendLogProgram c) s = .next (s.apart fun s =>
        fit.foldl (fun s a => s.appendDone a) ((s.updFlash c fun f =>
          { f with append := f.append.drop fit.length }).appendPage c true fit))) ∧
    (∀ (b : LBlock) (op : CopyOp) (dst : Nat) (f : Flash), f = (s.compostMode c).flashCtl c → f.copy = none →
      (s.compostMode c).flt.flashOff.contains c.val = false → (s.compostMode c).nextCopy c = some (b, op) →
      (if op = .wear then f.mostWorn else f.leastWorn 0) = some dst →
      exec (.compostCopy c) s = .next (s.apart fun s => (s.compostMode c).updFlash c fun f =>
        { f with
          copy := some
            { lb := b.lb, op := if b.log.isSome && (op == .wear || op == .refresh) then .merge else op, move := f.nextMove
              dest := dst, oldData := some b.phys, oldLog := b.log, pages := (s.compostMode c).curPages b }
          nextMove := (f.nextMove + 1) % 2 ^ 32 })) ∧
    (∀ (x : FlashCopy) (a m t : State) (w : W64), (s.flashCtl c).copy = some x → s.flt.flashOff.contains c.val = false →
      a = (s.updFlash c fun f => { f with copy := none }).copyPages c x → w = (a.flashCtl c).wseq - 1 →
      m = ((a.keepSave (intentRecord c x 1 w)).mapMoved x).eraseOld x →
      t = (m.keepSave (m.mapSegment c (x.lb / 8 / 1024))).keepSave (intentRecord c x 2 w) →
      exec (.compostCopyComplete c) s = .next (s.apart fun _ =>
        (if x.op = .merge then t.bump .FL_MERGES c else t.bump .FL_MOVES c).applyDue x.lb)) ∧
    (∀ (corrected page : Nat) (r : PageRun) (u : State), s.flt.flashOff.contains c.val = false →
      ((s.programmed c).find? fun r => decide ((s.flashCtl c).rake < r.at_ + r.count)) = some r →
      page = max (s.flashCtl c).rake r.at_ →
      u = ((s.updFlash c fun f => { f with rake := page + 1 }).fset F.FL_RAKE_POS_PERCENT
        (((((s.programmed c).filter fun y => y.at_ < r.at_).map fun y => y.count).sum + (page - r.at_) + 1) * 100 /
          max 1 ((s.programmed c).map fun y => y.count).sum) c).flashRead c r.phys 1 →
      corrected ≤ min 120 (u.fget F.FL_REFRESH_BITS_VALUE c) →
      exec (.flashRakePage c corrected false) s = .next (s.apart fun _ => u) ∧
      exec (.flashRakePage c corrected true) s = .next (s.apart fun _ => u.pageLost c r.phys (page - r.phys * 1536))) ∧
    (∀ (phys : Nat) (u : State), (s.flashCtl c).retired.contains phys = false → phys < stackBlocks →
      s.vacate c phys = some u →
      exec (.flashOpFailure c phys) s = .next (s.apart fun _ => (u.discardErased c phys).retireBlock c phys)) ∧
    (∀ (phys : Nat), (s.flashCtl c).stale.contains phys = true → (s.flashCtl c).appendBlock? phys = none →
      exec (.blockErase c phys) s = .next (s.apart fun s => (s.eraseBlock c phys).discardErased c phys))) ∧
  (∀ (s u v : State), s.active = true → s.seq = 1 →
    u = ({ s.loadFlash with keep := { s.loadFlash.keep with ready := true },
                            ck := { s.loadFlash.ck with
                              stored := s.loadFlash.ck.stored.filter s.loadFlash.ckRecorded } } : State) →
    v = u.loadHomeMap.loadSec.showJournal →
    exec (.keepStoreLoad []) s = .next (s.apart fun _ =>
      (((v.wrN .FLT_LOG_SEQ u.keptFaultSeq 0).fset F.HUB_BOOT_FLASH_READY 255 0).fset F.HUB_BOOT_KEEP_READY 1 0).fset
        F.SEC_STATE_SEQ 2 0))

/-- The commands of vector search (R332, R337, R338, R341, R345, R347, R348). -/
def Obligations.SearchCommandsRun : Prop :=
  (∀ (s u w : State) (d : Desc) (t : List Byte) (near : List Nat) (area : Option Nat), s.mayRun d = true → u = s.start d →
    u.keep.ready = true → t = u.buf0 d → u.vsVerdict ((dBed d).getD 0) t = .accept →
    u.vsTake ((dBed d).getD 0) t.length (u.vsIndex? ((dBed d).getD 0) (vtId t)).isNone = some (near, area, w) →
    (∀ v, u.vsCurrent ((dBed d).getD 0) (vtId t) = some v → exec (.vsPublish d) s = .next (s.apart fun _ => w.submit
      { journal := [u.vsEntry d ((dBed d).getD 0) 0 (vtId t) (vtVersion t) (digest128 v.table) (digest128 t) false]
        eff := .load d t near area })) ∧
    (u.vsCurrent ((dBed d).getD 0) (vtId t) = none → exec (.vsPublish d) s = .next (s.apart fun _ => w.submit
      { journal := [u.vsEntry d ((dBed d).getD 0) 0 (vtId t) (vtVersion t) 0 (digest128 t) false]
        eff := .load d t near area }))) ∧
  (∀ (s u : State) (d : Desc) (v : VsVersion), s.mayRun d = true → u = s.start d → u.keep.ready = true →
    u.vsCurrent ((dBed d).getD 0) (dArg d 48 2) = some v →
    exec (.vsUnload d) s = .next (s.apart fun _ => u.submit
      { journal := [u.vsEntry d ((dBed d).getD 0) 1 v.id v.version (digest128 v.table) 0 false], eff := .cmd d [] 0 })) ∧
  (∀ (s u : State) (d : Desc) (r : List Byte) (v : VsVersion) (x : VsIndex) (w : Nat) (sent : List (Nat × W16) × State),
    s.mayRun d = true → u = s.start d → r = u.buf0N d 64 → u.vsCurrent ((dBed d).getD 0) (vqIndex r) = some v →
    u.vsIndex? ((dBed d).getD 0) (vqIndex r) = some x → vqDim r = vtDim v.table → vqLimits r = true →
    u.freeWalker (u.queryDie d ((dBed d).getD 0)) = some w →
    sent = (u.touchAddr d d.addr0 (vqBytes r)).sendShards (vtShard v.table) ((dBed d).getD 0) (u.buf0N d (vqBytes r))
      (vqRemotes r) →
    exec (.vsQuery d) s = .next (s.apart fun _ => sent.2.startQuery
      { ix := 0, d := some d, bed := (dBed d).getD 0, id := v.id, version := v.version, num := v.num, dseq := x.dseq
        die := u.queryDie d ((dBed d).getD 0), walker := w, rec64 := r
        vec := vqVector r ((u.buf0N d (vqBytes r)).drop 64)
        started := (u.touchAddr d d.addr0 (vqBytes r)).now, remotes := sent.1 })) ∧
  (∀ (s u : State) (d : Desc) (v : VsVersion) (x : VsIndex), s.mayRun d = true → u = s.start d →
    u.vsCurrent ((dBed d).getD 0) (dArg d 48 2) = some v → u.vsIndex? ((dBed d).getD 0) (dArg d 48 2) = some x →
    ((vsKeys x).length + ((vsKeyList (u.buf0 d)).eraseDups.filter fun k => !(vsKeys x).contains k).length ≤ 65536 →
      exec (.vsDelete d) s = .next (s.apart fun _ =>
        (u.updVsIndex ((dBed d).getD 0) (dArg d 48 2) fun y =>
          { y with dseq := x.dseq + 1
                   dels := y.dels ++ (vsKeyList (u.buf0 d)).eraseDups.map fun k => (k, x.dseq + 1) }).complete d St.ok
          (x.dseq + 1).toNat)) ∧
    (u.keep.ready = true → exec (.vsShare d) s = .next (s.apart fun _ => u.submit
      { journal := [u.jCmd d 0x0008 ((dBed d).getD 0) (6 * 2 ^ 24) (dArg d 48 2) (digest128 (shareBytes x.share))
          (digest128 (shareBytes (vsShareArg d)))]
        eff := .cmd d [] 0 }))) ∧
  (∀ (s u : State) (d : Desc) (bed : Nat) (v : VsVersion) (x : VsIndex), s.mayRun d = true → u = s.start d →
    (dBed d = some bed ∨ (dBed d = none ∧ bed = dArg d 50 1)) → u.bedConfigured bed = true →
    u.vsCurrent bed (dArg d 48 2) = some v → u.vsIndex? bed (dArg d 48 2) = some x →
    exec (.vsInfo d) s = .next (s.apart fun _ => (u.writeAddr d d.addr0 (v.table.take 64)).complete d St.ok
      (x.dseq.toNat + (vsKeys x).length % 65536 * 2 ^ 32 +
        (u.vs.queries.filter fun q => q.bed == bed && q.id == dArg d 48 2).length % 65536 * 2 ^ 48)))

/-- Walks, and the requests and answers of shared indexes (R342, R345, R346). -/
def Obligations.SearchMessagesRun : Prop :=
  (∀ (s : State) (ix : Nat) (q : VsQuery) (v : VsVersion) (x : VsIndex), s.active = true → s.query? ix = some q →
    q.walk = none →
    (s.vs.versions.find? fun v => v.bed == q.bed && v.id == q.id && v.num == q.num) = some v →
    s.vsIndex? q.bed q.id = some x →
    ∀ (own : VsResult) (u : State), q.asker = none → own = vsWalkAll
      { t := v.table, q := vqConvert v.table q.vec, r := q.rec64, gone := (s.vsGone x q.dseq).1
        bad := fun o n => s.holdBad v.near o n } →
      u = (((s.vsGone x q.dseq).2.bump64 .DS_GW_VISITS_LO .DS_GW_VISITS_HI q.die own.visits).count (16 + q.die) 0x23 0
        (some q.bed) own.visits).bump64 .VS_VISITS_LO .VS_VISITS_HI q.bed own.visits →
      exec (.vsWalkComplete ix) s = .next (s.apart fun _ =>
        (u.updQuery ix fun q => { q with walk := some own }).tryMerge ix)) ∧
  (∀ (s : State) (m : VsMsg) (v : VsVersion), s.active = true → s.sharedVersion m.shard m.sender = some v →
    (vqDim (m.payload.take 64) ≠ vtDim v.table → exec (.vsReq m) s = .next (s.apart fun s => s.refuseShard m (some v.bed) 3)) ∧
    (∀ (w : Nat) (x : VsIndex), vqDim (m.payload.take 64) = vtDim v.table → s.freeWalker (s.quietDie v.bed) = some w →
      s.vsIndex? v.bed v.id = some x →
      exec (.vsReq m) s = .next (s.apart fun s => (s.bump .VS_REMOTE_SERVED v.bed).startQuery
        { ix := 0, asker := some (m.sender, m.reqId, m.shard), bed := v.bed, id := v.id, version := v.version
          num := v.num, dseq := x.dseq, die := s.quietDie v.bed, walker := w, rec64 := m.payload.take 64
          vec := vqVector (m.payload.take 64) (m.payload.drop 64), started := s.now }))) ∧
  (∀ (s : State) (m : VsMsg) (q : VsQuery) (k : Nat), s.active = true →
    (s.vs.queries.find? fun q => !q.timedOut && (vsPlace q m).isSome) = some q → vsPlace q m = some k →
    ftLater s.now (ftAdd q.started (vqTimeout q.rec64)) = false →
    exec (.vsResp m) s = .next (s.apart fun s => (s.updQuery q.ix fun q =>
      { q with answers := q.answers ++ [(k, if m.code = 0 then some (vsParse m.payload) else none)] }).tryMerge q.ix)) ∧
  (∀ (s : State) (ix : Nat) (q : VsQuery), s.active = true → s.query? ix = some q →
    ftReached s.now (ftAdd q.started (vqTimeout q.rec64)) = true →
    exec (.shardTimeout ix) s = .next (s.apart fun s => (s.updQuery ix fun q => { q with timedOut := true }).tryMerge ix))

/-- Job keys, port enabling and training (R360, R361, R370, R372, R380, R381). -/
def Obligations.LinkTrainingRuns : Prop :=
  (∀ (s u : State) (d : Desc) (key : List Byte), s.mayRun d = true → u = s.start d → u.keep.ready = true →
    dKey d ≠ 0 → u.keyUnwraps d = some key → u.keySlot? (dKey d) = none → u.freeKeySlot ≠ none →
    u.keyMarks.length < 1048576 →
    exec (.plwKeyLoad d) s = .next (s.apart fun _ => u.submit
      { journal := [u.keyEntry d 0 (dKey d) false true false], eff := .cmd d key 0 })) ∧
  (∀ (s u : State) (d : Desc) (k : KeySlot), s.mayRun d = true → u = s.start d → u.keep.ready = true →
    u.myKey d = some k →
    exec (.plwKeySend d) s = .next (s.apart fun _ => u.submit
      { journal := [u.keyEntry d 1 k.keyId true true false], eff := .cmd d [] 0 }) ∧
    exec (.plwKeyDrop d) s = .next (s.apart fun _ => u.submit
      { journal := [u.keyEntry d 2 k.keyId true false false], eff := .cmd d [] 0 })) ∧
  (∀ (s u : State) (p : Fin 8) (on : Bool), s.active = true → u = s.fset F.PLW_CTRL_ENABLE (if on then 1 else 0) p →
    exec (.plwEnable p on) s = .next (s.apart fun _ =>
      (u.journal (u.plwEntry 1 p 0 (s.rd ⟨.PLW_CTRL, p, 0⟩) (u.rd ⟨.PLW_CTRL, p, 0⟩))).enablePort p on)) ∧
  (∀ (s : State) (p : Fin 8) (lanes : Byte) (use both : Nat), s.active = true →
    use = (lanes.toNat &&& s.fget F.PLW_CTRL_LANE_MASK p) % 256 →
    both = (lanes.toNat &&& s.fget F.PLW_CTRL_LANE_MASK p &&& (s.port p).agreed) % 256 →
    ftLater s.now (ftAdd (s.port p).since 4) = false →
    (s.portState p = Pst.optical → use ≠ 0 → exec (.laneLock p lanes) s = .next (s.apart fun s =>
      (s.portGo p Pst.negotiate).updPort p fun q => { q with lanes := use })) ∧
    (s.portState p = Pst.retrain → both ≠ 0 → exec (.retrainRelock p lanes) s = .next (s.apart fun s =>
      (((s.portGo p Pst.active).setStatus F.PLW_STATUS_RETRAINED p).fset F.PLW_STATE_WIDTH (widthOf (laneCount both)) p).updPort
        p fun q => { q with lanes := both, replayAt := q.replay.head?.map fun f => f.lseq, replays := 0 }))) ∧
  (∀ (s u : State) (p : Fin 8) (t : Train) (v : Nat), s.active = true → t.good = true →
    u = ((s.fset F.PLW_STATE_ROLE t.role p).fset F.PLW_PARTNER_PORT t.port p).fset F.PLW_PARTNER_NODE t.node p →
    (u.portState p ≠ Pst.negotiate → exec (.trainBlock p t) s = .next (s.apart fun _ => u)) ∧
    (u.portState p = Pst.negotiate → u.commonVersion p t = none →
      exec (.trainBlock p t) s = .next (s.apart fun _ => (u.fset F.PLW_STATE_VERSION 0 p).portDown p)) ∧
    (u.portState p = Pst.negotiate → u.commonVersion p t = some v → t.ack = true → (u.port p).lanes &&& t.lanes ≠ 0 →
      exec (.trainBlock p t) s = .next (s.apart fun _ =>
        ((((u.fset F.PLW_STATE_VERSION v p).fset F.PLW_STATE_RATE
          (if (u.fset F.PLW_STATE_VERSION v p).slowRate p t v then 1 else 0) p).fset F.PLW_STATE_WIDTH
            (widthOf (laneCount ((u.port p).lanes &&& t.lanes))) p).portGo p Pst.active).updPort p fun q =>
          { q with lanes := (u.port p).lanes &&& t.lanes, agreed := t.lanes
                   credits := (List.range 8).map fun v => t.credits.getD v 0
                   seen := List.replicate 8 0, returned := List.replicate 8 0, lastCtl := none, txSeq := 0, rxSeq := 0
                   replay := [], replayAt := none, replays := 0 }))) ∧
  (∀ (s : State) (p : Fin 8), s.active = true →
    (ftReached s.now (ftAdd (s.port p).since 4) = true →
      (s.portState p = Pst.negotiate → exec (.portTrainingTimeout p) s =
        .next (s.apart fun s => (s.fset F.PLW_STATE_VERSION 0 p).portDown p)) ∧
      (s.portState p = Pst.optical ∨ s.portState p = Pst.retrain →
        exec (.portTrainingTimeout p) s = .next (s.apart fun s => s.portDown p))) ∧
    (s.portState p = Pst.down → s.fget F.PLW_CTRL_ENABLE p = 1 → ftReached s.now (ftAdd (s.port p).since 480) = true →
      exec (.downRetry p) s = .next (s.apart fun s => s.portGo p Pst.optical)) ∧
    (s.portState p = Pst.active →
      (∀ lanes : Byte, exec (.laneLost p lanes true) s = .next (s.apart fun s => s.portDown p)) ∧
      (∀ lanes : Byte, exec (.laneLost p lanes false) s = .next (s.apart fun s =>
        ((s.portGo p Pst.retrain).setStatus F.PLW_STATUS_LANE_LOST p).updPort p fun q =>
          { q with lanes := q.lanes &&& (255 - lanes.toNat) }))))

/-- Frames, link control, queues and copies of images (R353, R358, R364 to R366, R371, R377, R379, R407). -/
def Obligations.LinkFramesRun : Prop :=
  (∀ (s u : State) (p : Fin 8) (f : Frame), s.active = true → s.portState p = Pst.active → f.fecBad = false →
    u = s.bump64 .PLW_FEC_CORR_LO .PLW_FEC_CORR_HI p f.fecCorr →
    (f.good = true → f.lseq = (u.port p).rxSeq → exec (.frameReceive p f) s = .next (s.apart fun _ =>
      (u.updPort p fun q => { q with rxSeq := (q.rxSeq + 1) % 65536, nakDue := false }).frameAccept p f)) ∧
    (f.good = false ∨ f.lseq ≠ (u.port p).rxSeq → exec (.frameReceive p f) s = .next (s.apart fun _ =>
      u.updPort p fun q => { q with nakDue := true, ctlDue := true }))) ∧
  (∀ (s : State) (p : Fin 8), s.active = true → s.portState p = Pst.active →
    exec (.linkControlSend p) s = .next (s.apart fun s => s.updPort p fun q =>
      { q with
        lastCtl := some { nak := q.nakDue, seq := if q.nakDue then q.rxSeq else (q.rxSeq + 65535) % 65536
                          returned := q.returned }
        nakDue := false, ctlDue := false }) ∧
    (∀ c : CtlBlock, c.good = true → c.nak = false → (s.port p).replay = [] → (s.port p).replayAt = none →
      exec (.linkControlBlock p c) s = .next (s.apart fun s => s.updPort p fun q =>
        { q with
          credits := (List.range 8).map fun v => q.credits.getD v 0 +
            (c.returned.getD v 0 + 65536 - q.seen.getD v 0) % 65536
          seen := (List.range 8).map fun v => c.returned.getD v 0 })) ∧
    (∀ l : Nat, (s.port p).replayAt = some l → exec (.frameSend p) s = .next (s.apart fun s => s.updPort p fun q =>
      { q with replayAt := ((q.replay.dropWhile fun f => f.lseq != l).drop 1).head?.map fun f => f.lseq })) ∧
    (∀ (v : Nat) (m : EgMsg) (rest : List EgMsg) (u : State), (s.port p).replayAt = none → u = s.fillBuckets p →
      ((vcOrder (u.port p).turn).find? fun v => u.vcEligible p v) = some v → (u.port p).queues.getD v [] = m :: rest →
      exec (.frameSend p) s = .next (s.apart fun _ => u.sendFrame p v m))) ∧
  (∀ (s u : State) (m : OutMsg) (asks : State → OutMsg → State), s.active = true →
    (∀ v x k, v.sendKey x = some k → asks v x = v.askMark k) → (∀ v x, v.sendKey x = none → asks v x = v) →
    u = s.toSend.foldl asks s → u.nextMsg [] u.toSend = some m →
    exec .messageSend s = .next (s.apart fun _ => ({ u with toSend := u.toSend.erase m } : State).queueMsg m)) ∧
  (∀ (s : State) (p : Fin 8) (c : RxCtx), s.active = true →
    ((s.port p).ctxs.find? fun c => ftReached s.now (ftAdd c.last 48)) = some c → c.drop = false →
    exec (.reassemblyTimeout p) s = .next (s.apart fun s => (s.dropCtx p c).plwDrop p Dr.segment)) ∧
  (∀ (s : State) (p : Fin 8), s.active = true → s.rdN .PLW_SAMPLE_PERIOD p ≠ 0 →
    ftReached (s.dieFt (p / 2)) (ftAdd (s.port p).sampled (s.rdN .PLW_SAMPLE_PERIOD p)) = true →
    exec (.queueSample p) s = .next (s.apart fun s =>
      let t := s.dieFt (p / 2)
      (List.range 7).foldl (fun s v =>
        let q := (s.port p).queues.getD v []
        let wait := (q.head?.map fun m => (t - m.queued).toNat / 65536).getD 0
        ((((s.wrN .PLW_Q_DEPTH (queueBytes q) p v).wrN .PLW_Q_DELAY wait p v).wrN .PLW_Q_DELAY_MAX
          (max (((s.wrN .PLW_Q_DEPTH (queueBytes q) p v).wrN .PLW_Q_DELAY wait p v).rdN .PLW_Q_DELAY_MAX p v)
            (wait % 2 ^ 32)) p v).trace 3 7 6 p (.die (p / 2)) none (p + 16 * v)
          (leBytes 4 (queueBytes q) ++ leBytes 4 wait ++ List.replicate 8 0)))
        (s.updPort p fun q => { q with sampled := t }))) ∧
  (∀ (s u v : State) (m : ImgMsg) (e : Entry) (want : Nat), s.active = true → u = s.touchOwn m.sid →
    u.owner? m.sid = some e → e.own = .awaiting → e.epoch = m.epoch → m.object ≤ 1 → v = (u.openRx m).2 →
    want = (if m.object = 0 then (u.openRx m).1.image else (u.openRx m).1.trx) →
    (m.offset < want → exec (.imgData m) s = .next (s.apart fun _ => v.sendImgAck m want)) ∧
    (∀ (w : State) (x : ImgRx), m.offset = want → m.object = 0 → (want + m.len) / 16777216 = want / 16777216 →
      want + m.len < m.total → w = v.updRx m.sid (fun t =>
        { t with image := want + m.len, imageTotal := some m.total, ctx := m.ctx <|> t.ctx, pages := t.pages ++ m.pages }) →
      (w.plw.rx.find? fun x => x.sid == m.sid) = some x → x.trxTotal = none →
      exec (.imgData m) s = .next (s.apart fun _ => w))) ∧
  (∀ (s u : State) (m : ImgMsg) (t : ImgTx) (pos cur : Nat × Nat), s.active = true → u = s.touchOwn m.sid →
    (u.plw.tx.find? fun t => t.sid == m.sid && t.epoch == m.epoch) = some t →
    pos = (if (if m.object = 0 then t.image else t.trx) ≤ m.offset then (m.object + 1, 0) else (m.object, m.offset)) →
    imgLin t t.ack + t.ack.1 < imgLin t pos + pos.1 →
    cur = (if imgLin t t.cur + t.cur.1 < imgLin t pos + pos.1 then pos else t.cur) →
    let moved := u.updTx m.sid fun t => { t with ack := pos, cur := cur, advanced := u.now, resent := u.now }
    (pos.1 < 2 → exec (.imgAck m) s = .next (s.apart fun _ => moved.imgPump pumpMax m.sid)) ∧
    (2 ≤ pos.1 → exec (.imgAck m) s = .next (s.apart fun _ => moved.endTx m.sid))) ∧
  (∀ (s : State) (sid : W64) (t : ImgTx), s.active = true → (s.plw.tx.find? fun t => t.sid == sid) = some t →
    (ftReached s.now (ftAdd t.resent 48) = true → exec (.imgResendTimer (.image sid)) s = .next (s.apart fun s =>
      (s.updTx sid fun t => { t with cur := t.ack, resent := s.now }).imgPump pumpMax sid)) ∧
    (ftReached s.now (ftAdd t.advanced 480) = true →
      exec (.imgGiveUp (.image sid)) s = .next (s.apart fun s => s.endTx sid))) ∧
  (∀ (s : State) (dest : Nat) (ckpt : W64) (bed : Nat) (t : CkTx), s.active = true →
    s.ck.txs.find? (isTx dest ckpt bed) = some t →
    (ftReached s.now (ftAdd t.resent 48) = true →
      exec (.imgResendTimer (.shard dest ckpt bed)) s = .next (s.apart fun s =>
        (s.updCkTx dest ckpt bed fun t => { t with cur := t.ack, ended := false, resent := s.now }).ckPump pumpMax dest ckpt bed)) ∧
    (ftReached s.now (ftAdd t.advanced 480) = true →
      exec (.imgGiveUp (.shard dest ckpt bed)) s = .next (s.apart fun s => s.endCkTx dest ckpt bed)))

/-- The commands of exported memory (R384, R386, R398 to R402). -/
def Obligations.ExportCommandsRun : Prop :=
  (∀ (s u : State) (d : Desc) (bed start ix region : Nat) (e : Export), s.mayRun d = true → u = s.start d →
    bed = (dBed d).getD 0 → start = d.addr0.toNat % 2 ^ 48 →
    (∀ e ∈ u.exp.exports, e.bed = bed → spanMeets (start, dLen0 d) (e.start, e.len) = false) →
    u.exp.exports.length < 1024 → dArg d 49 1 ≤ 6 → dArg d 48 1 % 4 ≠ 2 →
    ((List.range 256).find? fun i => (u.exp.exports.filter fun e => e.bed == bed).all fun e => e.ix != i) = some ix →
    (∀ pa, u.bufPa bed start = some pa → region = paRegion pa) →
    (u.bufPa bed start = none → region = (u.regionsOf bed).headD 0) →
    e = { bed := bed, ix := ix, gen := u.nextGen bed ix, start := start, len := dLen0 d, mode := dArg d 48 1 % 4,
          importers := importersOf d, region := region } →
    exec (.expCreate d) s = .next (s.apart fun _ =>
      ({ u with exp := { u.exp with
          exports := u.exp.exports ++ [e]
          gens := ((bed, ix), u.nextGen bed ix) :: u.exp.gens.filter fun g => g.1 != (bed, ix) } } : State).complete d
        St.ok (expHandle e).toNat)) ∧
  (∀ (s u : State) (d : Desc) (bed : Nat) (e : Export), s.mayRun d = true → u = s.start d → bed = (dBed d).getD 0 →
    u.cmdExport bed (dArg d 48 4) = some e →
    (e.revoke = none → dArg d 52 1 % 2 = 0 → exec (.expRevoke d) s = .next (s.apart fun _ =>
      (u.updExport bed e.ix fun e => { e with revoke := some d, poisoned := 0 }).settleExport bed e.ix)) ∧
    (dArg d 48 4 ≠ 0xFFFFFFFF → exec (.expNodeLost d) s = .next (s.apart fun _ =>
      (u.nodeLost bed e.ix (dArg d 52 2 % 512)).1.complete d St.ok (u.nodeLost bed e.ix (dArg d 52 2 % 512)).2)) ∧
    (dBed d = some bed → u.bedConfigured bed = true → exec (.expQuery d) s = .next (s.apart fun _ =>
      u.complete d St.ok (e.mode + e.importers.length * 256 + e.held.length % 2 ^ 32 * 65536)))) ∧
  (∀ (s u : State) (d : Desc) (bed va : Nat) (e : Export), s.mayRun d = true → u = s.start d → bed = (dBed d).getD 0 →
    va = d.addr0.toNat % 2 ^ 48 → u.exportOf bed (BitVec.ofNat 32 (dArg d 56 4)) = .ok e →
    e.start ≤ va → va + dLen0 d ≤ e.start + e.len →
    exec (.expPublish d) s = .next (s.apart fun _ => (u.updExport bed e.ix fun x => { x with queue := x.queue ++
      [{ who := .fn d, typ := .publish
         m := { sender := u.node, bed := bed, target := BitVec.ofNat 32 (dArg d 48 4), offset := va - e.start
                length := dLen0 d, versionNo := BitVec.ofNat 32 (dArg d 52 4)
                extra := BitVec.ofNat 128 (leNat (u.readAddr d d.addr1 16)) } }] }).settleExport bed e.ix)) ∧
  (∀ (s u : State) (d : Desc) (bed : Nat) (n : PubName), s.mayRun d = true → u = s.start d → bed = (dBed d).getD 0 →
    u.keep.ready = true → u.pubName? bed (BitVec.ofNat 32 (dArg d 48 4)) = some n →
    exec (.expWithdraw d) s = .next (s.apart fun _ => u.submit
      { journal := [{ u.pubEntry bed n.ix 1 n.name n.version n.digest 0 false with
          originType := (jOrigin d).1, originId := (jOrigin d).2 }]
        eff := .cmd d [] n.version.toNat })) ∧
  (∀ (s u : State) (d : Desc) (bed : Nat), s.mayRun d = true → u = s.start d → bed = (dBed d).getD 0 →
    dArg d 49 1 % 2 = 0 →
    exec (.memHint d) s = .next (s.apart fun _ =>
      ({ u with
        exp := { u.exp with
          hints := { bed := bed, start := d.addr0.toNat % 2 ^ 48, len := dLen0 d, hint := dArg d 48 1 % 4 } ::
            (u.exp.hints.filter fun x => !(x.bed == bed && decide (d.addr0.toNat % 2 ^ 48 ≤ x.start) &&
              decide (x.start + x.len ≤ d.addr0.toNat % 2 ^ 48 + dLen0 d))) } } : State).complete d St.ok 0))

/-- The near-memory commands (R395 to R397). -/
def Obligations.NearMemoryRuns : Prop :=
  ∀ (s u : State) (d : Desc) (bed a b : Nat), s.mayRun d = true → u = s.start d → bed = (dBed d).getD 0 →
    a = d.addr0.toNat % 2 ^ 48 → b = d.addr1.toNat % 2 ^ 48 →
    exec (.memFill d) s = .next (s.apart fun _ =>
      (u.bufWrite bed a (fillBytes (leBytes 8 (dArg d 56 8)) (dLen0 d))).complete d St.ok 0) ∧
    (dArg d 48 1 % 4 = 0 → exec (.memCopy d) s = .next (s.apart fun _ =>
      (u.opCopy bed a b (dLen0 d)).1.complete d (poisonSt (u.opCopy bed a b (dLen0 d)).2) (dLen0 d))) ∧
    exec (.memCompare d) s = .next (s.apart fun _ =>
      (((u.bufTouch bed a (dLen0 d)).bufTouch bed b (dLen0 d)).poisonRead bed (u.opCompare bed a b (dLen0 d)).2).complete d
        (poisonSt (u.opCompare bed a b (dLen0 d)).2) (u.opCompare bed a b (dLen0 d)).1) ∧
    exec (.memReduce d) s = .next (s.apart fun _ =>
      (u.opReduce bed a b (dLen0 d) (dArg d 48 1) (dArg d 49 1)).1.complete d
        (poisonSt (u.opReduce bed a b (dLen0 d) (dArg d 48 1) (dArg d 49 1)).2) 0)

/-- Requests to an export, and what answers and timers do (R386 to R393, R397, R401). -/
def Obligations.ExportMessagesRun : Prop :=
  (∀ (s : State) (m : MrMsg) (key : Option W32) (e : Export), s.active = true → s.exportOf m.bed m.target = .ok e →
    let enters := fun (typ : MrType) => s.apart fun s =>
      ((s.bump64 .EXP_REQS_LO .EXP_REQS_HI e.bed).updExport e.bed e.ix fun e =>
        { e with queue := e.queue ++ [{ typ := typ, m := m }] }).settleExport e.bed e.ix
    let passes := fun (typ : MrType) => requestCode e typ m (key.map fun k => k.toNat) none = none
    (passes .read → exec (.mrRead m key) s = .next (enters .read)) ∧
    (passes .write → exec (.mrWrite m key) s = .next (enters .write)) ∧
    (passes .acquire → exec (.mrAcquire m key) s = .next (enters .acquire)) ∧
    (passes .writeback → exec (.mrWriteback m key) s = .next (enters .writeback)) ∧
    (passes .op → exec (.mrOp m key) s = .next (enters .op))) ∧
  (∀ (s : State) (m : MrMsg) (key : Option W32) (e : Export), s.active = true → s.publishExport m = .ok e →
    requestCode e .publish m (key.map fun k => k.toNat) none = none →
    exec (.mrPublish m key) s = .next (s.apart fun s =>
      ((s.bump64 .EXP_REQS_LO .EXP_REQS_HI e.bed).updExport e.bed e.ix fun e =>
        { e with queue := e.queue ++ [{ typ := .publish, m := m }] }).settleExport e.bed e.ix)) ∧
  (∀ (s : State) (m : MrMsg) (key : Option W32) (n : PubName) (e : Export), s.active = true →
    s.pubName? m.bed m.target = some n → s.export? m.bed n.ix = some e →
    requestCode e .pubRead m (key.map fun k => k.toNat) (some (n.offset, n.length, n.version)) = none →
    exec (.mrPubRead m key) s = .next (s.apart fun s =>
      ((s.bump64 .EXP_REQS_LO .EXP_REQS_HI e.bed).updExport e.bed e.ix fun e =>
        { e with queue := e.queue ++ [{ typ := .pubRead, m := m, range := some (n.offset, n.length, n.version) }]
      }).settleExport e.bed e.ix)) ∧
  (∀ (s : State) (m : MrMsg) (e : Export) (r : Recall), s.active = true → s.exportOf m.bed m.target = .ok e →
    (e.recalls.find? fun r => r.id == m.reqId && r.node == m.sender) = some r → m.noLine = false → m.clean = true →
    exec (.mrRecallData m) s = .next (s.apart fun s => (s.updExport e.bed e.ix fun e =>
      { e with
        recalls := e.recalls.filter fun x => x.id != r.id
        held := e.held.filter fun h => !(h.2 == m.sender && decide (r.line ≤ h.1) && decide (h.1 < r.line + r.count))
      }).settleExport e.bed e.ix)) ∧
  (∀ (s : State) (m : MrMsg) (c : RemoteCopy) (o : W32 × CopyPiece × W64), s.active = true →
    (s.exp.copies.find? fun c => copyNode c.d == m.sender && c.out.any fun o => o.1 == m.reqId) = some c →
    (c.out.find? fun o => o.1 == m.reqId) = some o →
    (m.code ≠ Mr.ok → m.code ≠ Mr.poisoned → m.code ≠ Mr.revoked →
      exec (.mrResp m) s = .next (s.apart fun s => s.copyFail c remoteRefused m.code)) ∧
    (m.code = Mr.ok → m.poison = false → copyOut c.d = true → exec (.mrResp m) s = .next (s.apart fun s =>
      (s.updCopy c.d fun c => { c with out := c.out.filter fun o => o.1 != m.reqId, copied := c.copied + o.2.1.len
                                       poison := c.poison }).copyOn c.d))) ∧
  (∀ (s : State) (bed : Fin 16) (id : W32) (e : Export) (r : Recall), s.active = true →
    (s.exp.exports.find? fun e => e.bed == bed.val && e.recalls.any fun r => r.id == id) = some e →
    (e.recalls.find? fun r => r.id == id) = some r → ftReached s.now (ftAdd r.since (s.recallTimeoutFt bed)) = true →
    exec (.recallTimeout bed id) s = .next (s.apart fun s => (s.nodeLost bed e.ix r.node).1)) ∧
  (∀ (s : State) (id : W32) (c : RemoteCopy) (o : W32 × CopyPiece × W64), s.active = true →
    (s.exp.copies.find? fun c => c.out.any fun o => o.1 == id) = some c → (c.out.find? fun o => o.1 == id) = some o →
    ftReached s.now (ftAdd o.2.2 (s.recallTimeoutFt c.bed)) = true →
    exec (.remoteCopyTimeout id) s = .next (s.apart fun s => s.copyFail c remoteTimeout 0)) ∧
  (∀ (s u : State) (bed : Fin 16) (m : Nat × Nat × List Nat) (g : Granule) (x : Nat × State), s.active = true →
    (s.exp.migrate.find? fun m => m.1 == bed.val) = some m →
    u = { s with exp := { s.exp with migrate := s.exp.migrate.erase m } } → u.granuleAt bed m.2.1 = some g →
    u.takeAlong bed .granules (u.granule bed) (m.2.2.filter fun r => r != paRegion g.pa) = some x →
    exec (.granuleMigrate bed) s = .next (s.apart fun _ => x.2.retranslate g x.1))

/-- The commands of checkpoints (R405, R413, R418 to R422, R426, R428). -/
def Obligations.CheckpointCommandsRun : Prop :=
  (∀ (s u : State) (d : Desc) (bed : Nat), s.mayRun d = true → u = s.start d → bed = (dBed d).getD 0 →
    u.ckPart? bed = none → u.ckRound? bed = none →
    (dArg d 57 1 % 2 = 1 → exec (.ckArm d) s = .next (s.apart fun _ => State.complete
      { u with ck := { u.ck with arms := u.ck.arms.filter fun a => a.bed != bed } } d St.ok 0)) ∧
    (∀ p : Profile, dArg d 57 1 % 2 ≠ 1 → u.profile? bed (dArg d 54 2) = some p → dArg d 52 2 % 512 ≠ u.node →
      exec (.ckArm d) s = .next (s.apart fun _ => State.complete
        { u with ck := { u.ck with arms := (u.ck.arms.filter fun a => a.bed != bed) ++
          [{ bed := bed, job := BitVec.ofNat 32 (dArg d 48 4), coord := dArg d 52 2 % 512, profile := dArg d 54 2
             dest := dArg d 56 1, orch := dArg d 58 2, d := d, parts := [] }] } } d St.ok 0))) ∧
  (∀ (s u : State) (d : Desc) (a : CkArm), s.mayRun d = true → u = s.start d →
    (u.ckArm? ((dBed d).getD 0) = some a → u.coordinates a = true → exec (.ckStart d) s = .next (s.apart fun _ =>
      u.ckBegin a (BitVec.ofNat 64 (dArg d 56 8)) (dArg d 48 1 % 2 == 1) (some d))) ∧
    (∀ p : Profile, u.ckArm? ((dBed d).getD 0) = some a → u.profile? ((dBed d).getD 0) a.profile = some p →
      u.keep.ready = true → dArg d 48 1 ≤ 15 → exec (.ckRegroup d) s = .next (s.apart fun _ => u.submit
        { journal := [u.jCmd d 0x0008 ((dBed d).getD 0) (5 * 2 ^ 24) (dArg d 48 1)
            (groupDigest (u.groupRegs ((dBed d).getD 0) (dArg d 48 1))) (groupDigest (regroupValues (u.buf0N d 16)))]
          eff := .cmd d (u.buf0N d 16) 0 }))) ∧
  (∀ (s u : State) (d : Desc), s.mayRun d = true → u = s.start d →
    (u.ck.staged.any fun x => x.bed == (dBed d).getD 0) = false →
    (u.ck.restores.any fun x => x.bed == (dBed d).getD 0) = false →
    manifestOk (u.buf0 d) = true → stepsOk (u.buf0 d) = true →
    exec (.ckRestore d) s = .next (s.apart fun _ =>
      State.ckRead ((parseItems (u.readAddr d d.addr1 (dLen1 d))).length + 1)
        { u with ck := { u.ck with restores := u.ck.restores ++
          [{ bed := (dBed d).getD 0, d := d, manifest := u.buf0 d
             items := parseItems (u.readAddr d d.addr1 (dLen1 d)) }] } } ((dBed d).getD 0))) ∧
  (∀ (s u : State) (d : Desc) (x : CkStaged), s.mayRun d = true → u = s.start d →
    u.staged? ((dBed d).getD 0) = some x → x.commit = none →
    exec (.ckRestoreCommit d) s = .next (s.apart fun _ =>
      (u.updStaged ((dBed d).getD 0) fun x => { x with commit := some (d, dArg d 48 2) }).ckClaimNext
        (x.sessions.length + 1) ((dBed d).getD 0)) ∧
    exec (.ckRestoreCancel d) s = .next (s.apart fun _ =>
      (u.dropStaged ((dBed d).getD 0)).complete d St.ok x.sessions.length)) ∧
  (∀ (s u : State) (d : Desc) (bed : Nat) (ckpt : W64), s.mayRun d = true → u = s.start d → bed = (dBed d).getD 0 →
    ckpt = BitVec.ofNat 64 (dArg d 56 8) → u.ckPart? bed = none → u.ckRound? bed = none → u.storedOf bed ckpt ≠ [] →
    ((u.storedOf bed ckpt).filter fun x => x.place == 0) = [] →
    exec (.ckShardFree d) s = .next (s.apart fun _ => u.freeStored d)) ∧
  (∀ (s u : State) (d : Desc) (x : CkStored), s.mayRun d = true → u = s.start d →
    (u.ck.stored.filter fun x => x.bed == (dBed d).getD 0 && x.manifest &&
      (BitVec.ofNat 64 (dArg d 56 8) == 0 || x.ckpt == BitVec.ofNat 64 (dArg d 56 8))).getLast? = some x →
    let n := min (dLen0 d) x.bytes.length
    exec (.ckManifestRead d) s = .next (s.apart fun _ =>
      (u.writeAddr d d.addr0 (x.bytes.take n)).complete d St.ok (n + x.bytes.length * 2 ^ 32)))

/-- The messages of checkpoints (R404 to R408, R414 to R416, R418, R425). -/
def Obligations.CheckpointMessagesRun : Prop :=
  (∀ (s : State) (m : CkMsg) (a : CkArm), s.active = true → s.ckArm? m.bed = some a → s.coordinates a = true →
    a.job = m.job → a.orch = m.sender → a.orch ≠ 0xFFFF →
    exec (.ckNotice m) s = .next (s.apart fun s => s.ckBegin a m.deadline m.evict none)) ∧
  (∀ (s u : State) (m : CkMsg) (a : CkArm), s.active = true → s.ckPart? m.bed = none → s.ckArm? m.bed = some a →
    a.job = m.job → ftLater (m.cut - BitVec.ofNat 64 (4 * ftUnit)) s.now = true →
    u = { s with ck := { s.ck with parts := s.ck.parts ++
      [{ bed := m.bed, ckpt := m.ckpt, job := m.job, cut := m.cut, deadline := m.deadline, evict := m.evict,
         coord := m.sender }] } } →
    exec (.ckPrepare m) s = .next (s.apart fun _ =>
      u.ckSend m.sender none .ready { code := 0, ckpt := m.ckpt, job := m.job, cut := m.cut, deadline := m.deadline })) ∧
  (∀ (s : State) (m : CkMsg) (r : CkRound), s.active = true → (s.ck.rounds.find? fun r => r.ckpt == m.ckpt) = some r →
    (m.code = 0 → exec (.ckReady m) s = .next (s.apart fun s =>
      s.updRound r.bed fun r => { r with readies := r.readies ++ [m.sender] })) ∧
    (m.code ≠ 0 → exec (.ckReady m) s = .next (s.apart fun s => s.ckRetry r m.code)) ∧
    (r.manifest = none → m.code ≠ 0 →
      (s.ck.rounds.find? fun r => r.ckpt == m.ckpt && r.manifest.isNone) = some r →
      exec (.ckDone m) s = .next (s.apart fun s => s.ckAbortRound r m.code CkSt.aborted))) ∧
  (∀ (s u : State) (m : CkMsg) (r r' : CkRound) (a : CkArm), s.active = true → m.code = 0 →
    (s.ck.rounds.find? fun r => r.ckpt == m.ckpt && r.manifest.isNone) = some r → s.ckArm? r.bed = some a →
    r' = { r with dones := m.payload :: r.dones.filter fun b =>
      (bytesAt b 0 2, bytesAt b 2 1) != (bytesAt m.payload 0 2, bytesAt m.payload 2 1) } →
    u = (s.updRound r.bed fun _ => r') →
    (a.parts.all fun x => r'.dones.any fun b => (bytesAt b 0 2, bytesAt b 2 1) == x) = true →
    exec (.ckDone m) s = .next (s.apart fun _ => u.storeManifest a r')) ∧
  (∀ (s : State) (m : CkMsg) (p : CkPart), s.active = true → s.ckPart? m.bed = some p → p.ckpt = m.ckpt →
    (m.code ≠ CkCode.refused → exec (.ckAbort m) s = .next (s.apart fun s =>
      s.ckAborted p (m.code == CkCode.deadline))) ∧
    (m.evict = false → exec (.ckCommit m) s = .next (s.apart fun s =>
      ((((((s.wr64 .CK_ID_LO .CK_ID_HI p.ckpt.toNat p.bed).wr64 .CK_CUT_LO .CK_CUT_HI p.cut.toNat p.bed).wrN .CK_SESSIONS
        p.sessions.length p.bed).wr64 .CK_BYTES_LO .CK_BYTES_HI p.length p.bed).setStatus F.CK_STATUS_COMMITTED
          p.bed).endPart p.bed)))) ∧
  (∀ (s : State) (m : CkMsg), s.active = true →
    (s.shard? m.bed m.ckpt = none → exec (.ckFetch m) s = .next (s.apart fun s => s.ckSend m.sender none .abort
      { code := CkCode.refused, bed := m.bed, ckpt := m.ckpt, job := m.job })) ∧
    (s.shard? m.bed m.ckpt ≠ none → exec (.ckFetch m) s = .next (s.apart fun s =>
      let u := s.endCkTx m.sender m.ckpt m.bed
      State.ckPump pumpMax { u with ck := { u.ck with txs := u.ck.txs ++
        [{ dest := m.sender, ckpt := m.ckpt, bed := m.bed, cur := m.offset, ack := m.offset, advanced := u.now
           resent := u.now }] } } m.sender m.ckpt m.bed))) ∧
  (∀ (s : State) (m : CkMsg) (r : CkRestore), s.active = true → s.restoreFor m = some r →
    (m.offset < r.rx.length → exec (.ckData m) s = .next (s.apart fun s => s.ckAckTo r m r.rx.length)) ∧
    (m.offset = r.rx.length → (r.rx.length + m.payload.length) / 16777216 = r.rx.length / 16777216 →
      exec (.ckData m) s = .next (s.apart fun s => s.updRestore r.bed fun r => { r with rx := r.rx ++ m.payload })) ∧
    (m.offset = r.rx.length → exec (.ckDataEnd m) s = .next (s.apart fun s =>
      (s.ckAckTo r m r.rx.length).ckItem r (some r.rx)))) ∧
  (∀ (s : State) (m : CkMsg) (t : CkTx) (x : CkStored), s.active = true →
    s.ck.txs.find? (isTx m.sender m.ckpt m.bed) = some t → s.shard? m.bed m.ckpt = some x →
    (t.ended = true → x.bytes.length ≤ m.offset →
      exec (.ckDataAck m) s = .next (s.apart fun s => s.endCkTx m.sender m.ckpt m.bed)) ∧
    (t.ended = false → t.ack < m.offset → exec (.ckDataAck m) s = .next (s.apart fun s =>
      (s.updCkTx m.sender m.ckpt m.bed fun t => { t with
        ack := m.offset, cur := max t.cur m.offset, advanced := s.now, resent := s.now }).ckPump pumpMax m.sender
          m.ckpt m.bed)))

/-- The timers of checkpoints and restores (R408, R413, R414, R416, R421, R424). -/
def Obligations.CheckpointTimersRun : Prop :=
  (∀ (s : State) (bed : Fin 16) (p : CkPart), s.active = true → s.ckPart? bed = some p →
    (p.phase = 1 → ftReached s.now p.cut = true → (s.cutPart p).ckRound? bed = none →
      exec (.ckCut bed) s = .next (s.apart fun s => s.cutPart p)) ∧
    (∀ a : CkArm, s.ckArm? bed = some a → p.phase = 2 → p.storing = false →
      (p.sessions.all fun x => x.captured && (x.resolved || ftReached s.now (ftAdd p.cut 480))) = true →
      exec (.shardWriteComplete bed) s = .next (s.apart fun s => s.writeShard p a)) ∧
    (ftReached s.now (ftAdd p.deadline 480) = true →
      exec (.ckOrphanTimeout bed) s = .next (s.apart fun s => s.ckAborted p true))) ∧
  (∀ (s : State) (bed : Fin 16) (r : CkRound), s.active = true → s.ckRound? bed = some r → r.manifest = none →
    ftReached s.now r.deadline = true →
    exec (.ckDeadline bed) s = .next (s.apart fun s => s.ckAbortRound r CkCode.deadline CkSt.deadline)) ∧
  (∀ (s : State) (bed : Fin 16) (x : CkStaged), s.active = true → s.staged? bed = some x → x.commit = none →
    ftReached s.now (ftAdd x.since (if s.rdN .CK_STAGE_TTL bed = 0 then 48000 else s.rdN .CK_STAGE_TTL bed)) = true →
    exec (.ckStageTtlExpiry bed) s = .next (s.apart fun s => s.dropStaged bed)) ∧
  (∀ (s u : State) (sid : W64) (x : CkStSes) (e : Entry) (q : Seq) (n : Nat) (p : Profile), s.active = true →
    (s.ck.pulls.find? fun x => x.sid == sid) = some x → s.owner? sid = some e → s.seq? sid = some q → q.pull = some n →
    s.profile? e.bed x.profile = some p → n + 1 < p.layers →
    s.placePages sid p true (imagePages p x.position x.image n) = some u →
    exec (.restoreLayerResident sid true) s = .next (s.apart fun _ =>
      (u.updSeq sid fun q => { q with pull := some (n + 1) }).wakeParts sid))

/-- The security commands (R433, R436, R437, R444, R445, R450, R454). -/
def Obligations.SecurityCommandsRun : Prop :=
  (∀ (s u : State) (d : Desc), s.mayRun d = true → u = s.start d → u.keep.ready = true →
    (u.sec.owner = none → exec (.secOwnerEnroll d) s = .next (s.apart fun _ => u.submit
      { writes := [secRecord ktOwner (u.buf0N d 388)]
        journal := [u.jCmd d 0x0001 0xFF 1 (bndVersion u.sec.bundle) 0 (digest128 (u.buf0N d 388))]
        eff := .cmd d (u.buf0N d 388) 0 })) ∧
    (∀ t : SecTrans, u.inTransition = false → u.checkBundle (u.buf0 d) = .accept →
      t = { beds := changedBeds u.sec.bundle (u.buf0 d), device := true, bundle := sha256 (u.buf0 d), next := u.buf0 d
            state := Config.measureState (if (ownerAfter u.sec.owner (u.buf0 d)).isSome then 1 else 0)
              (bndPolicy (u.buf0 d)) ((ownerAfter u.sec.owner (u.buf0 d)).getD []) } →
      exec (.secBundleLoad d) s = .next (s.apart fun _ => (u.beginTrans t).submitCmd d [u.bundleEntry d (u.buf0 d) false]
        [secRecord ktPending (u.buf0 d)] (.bundleLoad d (u.buf0 d)))) ∧
    (u.inTransition = false → u.bedConfigured (dArg d 48 1) = true →
      exec (.secPartitionReset d) s = .next (s.apart fun _ =>
        (u.beginTrans { beds := [dArg d 48 1] }).submitCmd d [u.resetEntry (some d) (dArg d 48 1)] []
          (.cmd d [] (dArg d 48 1)))) ∧
    (u.inTransition = false → u.tokenOk (u.buf0N d 384) = true →
      exec (.secZeroize d) s = .next (s.apart fun _ => u.beginZeroize (some d)))) ∧
  (∀ (s u : State) (d : Desc), s.mayRun d = true → u = s.start d →
    exec (.secNonce d) s = .next (s.apart fun _ =>
      (u.newNonce.2.writeAddr d d.addr0 u.newNonce.1).complete d St.ok 0) ∧
    (let n := min (dLen0 d) Config.certChain.length
     exec (.secCertRead d) s = .next (s.apart fun _ =>
      (u.writeAddr d d.addr0 (Config.certChain.take n)).complete d St.ok
        Config.certChain.length)) ∧
    (∀ m : Measure, mayMeasure d (dArg d 48 1) = true → u.measure (dArg d 48 1) = some m →
      exec (.secMeasure d) s = .next (s.apart fun _ =>
        (u.writeAddr d d.addr0 (measureBytes m u.now)).complete d St.ok
          (if m.moving then 1 else 0))))

/-- Self-test, the DRBG, IDE, TDISP, SPDM and the out-of-band endpoint (R431, R432, R447, R451, R452, R470). -/
def Obligations.SecurityEventsRun : Prop :=
  (∀ s : State, s.active = true →
    (∀ n : List Byte × W64, s.sec.nonce = some n → ftReached s.now (ftAdd n.2 nonceFt) = true →
      exec .zeroizeNonceLapse s = .next { s with sec := { s.sec with nonce := none } }) ∧
    (s.seq = 0 → exec (.selftestComplete true) s = .next (s.apart fun s => s.fset F.SEC_STATE_SEQ 1 0) ∧
      exec (.selftestComplete false) s = .next (s.apart fun s => s.seqFail)) ∧
    exec .drbgHealthFailure s = .next (s.apart fun s => s.seqFail) ∧
    (∀ (ix : Nat) (x : IdeStream), (s.sec.ide.find? fun x => x.ix == ix) = some x →
      exec (.ideIntegrityFailure ix) s = .next (s.apart fun s => x.bound.foldl (fun s fn => s.tdiError (fn - 1))
        { s with sec := { s.sec with
            ide := updFirst (fun y => y.ix == ix) (fun y => { y with secure := false }) s.sec.ide } })) ∧
    (∀ (start : W32) (gap : List Byte), gap = [if (s.journalStart start).2.1 then 1 else 0] →
      (∀ f : W32, (s.journalStart start).1 = some f → exec (.mctpJournalRead start) s = .next { s with sec :=
        { s.sec with answer := List.flatten ((s.entriesFrom f (fun _ => true) 15).map fun r => r.2) ++ gap } }) ∧
      ((s.journalStart start).1 = none → exec (.mctpJournalRead start) s =
        .next { s with sec := { s.sec with answer := gap } })) ∧
    exec .zeroizeNonce s = .next (s.apart fun s =>
      { s.newNonce.2 with sec := { s.newNonce.2.sec with answer := s.newNonce.1 } }) ∧
    (∀ token : List Byte,
      (s.sec.policy / 2 % 2 = 1 → s.inTransition = false → s.keep.ready = true → s.tokenOk token = true →
        exec (.zeroize token) s = .next (s.apart fun s => s.beginZeroize none)) ∧
      (s.sec.policy / 2 % 2 ≠ 1 → exec (.zeroize token) s = .next { s with sec := { s.sec with answer := [1] } }))) ∧
  (∀ (s : State) (bed : Fin 16), s.active = true →
    (∀ stream : Nat, s.tdi bed = 0 → stream ≠ 0 → (s.sec.ide.any fun x => x.ix == stream && x.secure) = true →
      exec (.tdispRequest bed (.lock stream)) s = .next (s.apart fun s =>
        (s.bindTdi (fnOf bed) (some stream)).setTdi bed 1)) ∧
    (s.tdi bed = 1 → exec (.tdispRequest bed .start) s = .next (s.apart fun s => s.setTdi bed 2)) ∧
    exec (.tdispRequest bed .stop) s = .next (s.apart fun s => (s.bindTdi (fnOf bed) none).setTdi bed 0) ∧
    (s.tdi bed = 1 ∨ s.tdi bed = 2 → exec (.tdispRequest bed .report) s =
      .next (s.apart fun s => { s with sec := { s.sec with answer := s.tdiReport bed } }))) ∧
  (∀ (s : State) (oob : Bool) (r : SpdmReq), s.pow.supply = .on → (oob = true → spdmOob r = true) →
    (spdmSigned r = true → s.seq ≠ 0 ∧ s.seq ≠ 6) →
    exec (.spdmRequest oob r) s = .next (s.apart fun s => (s.spdmReply r).spdmEffect r)) ∧
  (∀ s : State, s.pow.supply = .on →
    (∀ (start : W32) (gap : List Byte), gap = [if (s.faultStart start).2.1 then 1 else 0] →
      (∀ f : W32, (s.faultStart start).1 = some f → exec (.faultRead start) s = .next { s with sec :=
        { s.sec with answer := List.flatten (((s.faultsFrom f).take 15).map faultBytes) ++ gap } }) ∧
      ((s.faultStart start).1 = none → exec (.faultRead start) s =
        .next { s with sec := { s.sec with answer := gap } })) ∧
    ∃ t, exec .healthRead s = .next t ∧ t.pending = s.pending ∧ t.regs = s.regs ∧ t.sec.answer.length = 48 ∧
      t.sec.answer.take 4 = leBytes 4 s.fltState ∧ t.sec.answer.drop 40 = leBytes 8 s.now.toNat)

/-- Fault records, unfencing, built-in tests and injection (R458, R464, R465, R471 to R473). -/
def Obligations.FaultControlRuns : Prop :=
  (∀ (s u : State) (d : Desc), s.mayRun d = true → u = s.start d →
    (∀ (f : W32) (rs : List FaultRec) (x : W32 × State), (u.faultStart (BitVec.ofNat 32 (dArg d 48 4))).1 = some f →
      rs = ((u.faultsFrom f).filter fun r => (dBed d).all fun b => r.bed == b).take (dLen0 d / 64) →
      x = u.readNext (rs.getLast?.map fun r => r.seq) →
      exec (.fltLogRead d) s = .next (s.apart fun _ =>
        (x.2.writeAddr d d.addr0 (List.flatten (rs.map faultBytes))).complete d St.ok (x.1.toNat + rs.length % 2 ^ 16 * 2 ^ 32 +
            (if (u.faultStart (BitVec.ofNat 32 (dArg d 48 4))).2.1 then 2 ^ 63 else 0)))) ∧
    ((u.faultStart (BitVec.ofNat 32 (dArg d 48 4))).1 = none → exec (.fltLogRead d) s = .next (s.apart fun _ =>
      u.complete d St.ok (u.faultStart (BitVec.ofNat 32 (dArg d 48 4))).2.2.toNat)) ∧
    (u.flt.units.contains (dArg d 48 2) = true → exec (.fltUnitUnfence d) s = .next (s.apart fun _ =>
      { u with flt := { u.flt with unitTests := u.flt.unitTests ++ [(dArg d 48 2, some d)] } })) ∧
    (u.flt.regions.contains (dArg d 48 1) = true → u.flt.dies.contains (dieOf (dArg d 48 1)) = false →
      exec (.fltRegionRecover d) s = .next (s.apart fun _ =>
        ((u.clockRestart (dArg d 48 1)).regionReset (dArg d 48 1)).startRegionTest (dArg d 48 1) (some d)))) ∧
  (∀ s : State, s.active = true →
    (∀ (x : Nat) (pass : Bool), exec (.unitTestComplete (.unit x pass)) s = .next (s.apart fun s => s.unitTestEnd x pass)) ∧
    (∀ (r : Nat) (failed : List Nat), exec (.unitTestComplete (.region r failed)) s =
      .next (s.apart fun s => s.regionTestEnd r failed)) ∧
    (∀ (f : Detect) (cls : Nat), faultClass f.source = some cls → f.source ≠ 0x41 → f.tagFail = false →
      exec (.faultDetect f) s = .next (s.apart fun s => ((s.recordFault f cls false false).abortedBy f cls).react f)) ∧
    (∀ (x : Fin 1024) (sid : W64), exec (.unitWatchdog x sid) s = .next (s.apart fun s => s.raise
      { source := 0x12, location := x, bed := s.bedOfRegion (x / 64), sid := sid
        jobId := ((s.sch.slots.find? fun t => t.sid == sid).map fun t => t.job).getD 0, access := 5, master := x % 2 ^ 12
        detail := BitVec.ofNat 32 (if s.rdN .FLT_WATCHDOG 0 = 0 then 48 else s.rdN .FLT_WATCHDOG 0) })) ∧
    (∀ v : W32, F.FLT_FIRST_ARM_ARM.get v = 1 → exec (.fltFirstArm v) s = .next (s.apart fun s =>
      let u := (List.range 16).foldl (fun s k => s.wrN .FLT_FIRST 0 0 k) s
      { u with flt := { u.flt with armed := true } })) ∧
    (∀ (bed : Fin 16) (v : W32), F.FLT_BED_FIRST_ARM_ARM.get v = 1 → exec (.fltBedFirstArm bed v) s =
      .next (s.apart fun s =>
        let u := (List.range 16).foldl (fun s k => s.wrN .FLT_BED_FIRST 0 bed k) s
        { u with flt := { u.flt with armedBeds := bed.val :: u.flt.armedBeds.filter fun b => b != bed.val } })) ∧
    (∀ (v : W32) (u : State), u = (s.fset F.FLT_INJECT_SOURCE (F.FLT_INJECT_SOURCE.get v) 0).fset F.FLT_INJECT_LOCATION
        (F.FLT_INJECT_LOCATION.get v) 0 →
      (F.FLT_INJECT_GO.get v ≠ 1 → exec (.fltInject v) s = .next (s.apart fun _ => u)) ∧
      (F.FLT_INJECT_GO.get v = 1 → u.fget F.FLT_CTRL_INJECT_ENABLE 0 = 1 →
        exec (.fltInject v) s = .next (s.apart fun _ => u.raise
          { source := F.FLT_INJECT_SOURCE.get v, location := F.FLT_INJECT_LOCATION.get v
            bed := u.injectBed (F.FLT_INJECT_SOURCE.get v) (F.FLT_INJECT_LOCATION.get v) } true))))

/-- Counters and trace (R477, R485, R486, R489). -/
def Obligations.ObservationRuns : Prop :=
  (∀ s : State, s.active = true →
    (∀ set : Fin 48, exec (.ctrClear set) s = .next (s.apart fun s => s.ctrClear set)) ∧
    (∀ set : Fin 48, exec (.ctrRun set true) s = .next (s.apart fun s => s.fset F.CTR_CTRL_RUN 1 set) ∧
      exec (.ctrRun set false) s = .next (s.apart fun s => s.fset F.CTR_CTRL_RUN 0 set)) ∧
    exec .ctrGlobalStart s = .next (s.apart fun s => s.ctrAll true) ∧
    exec .ctrGlobalStop s = .next (s.apart fun s => s.ctrAll false) ∧
    (∀ beds : W16, s.keep.ready = true → exec (.ctrGrant beds) s = .next (s.apart fun s => s.submit
      { journal := [{ s.jDev 0x0005 0xFF 6 0xFF (dig32 (s.rd ⟨.CTR_GRANT, 0, 0⟩).toNat)
          (dig32 (beds.toNat % 2 ^ 16)) with originType := 1 }]
        eff := .reg ⟨.CTR_GRANT, 0, 0⟩ 0xFFFF (BitVec.ofNat 32 beds.toNat) })) ∧
    (∀ (b : Fin 5) (r : TraceRec) (rest : List TraceRec), s.obs.staging.getD b [] = r :: rest →
      exec (.traceRecordWrite b) s = .next (s.apart fun s => r.rings.foldl (fun s fn => s.tracePut fn r)
        { s with obs := { s.obs with staging := s.obs.staging.set b rest } })) ∧
    (∀ (fn : Fin 17) (v : W32) (u : State), u = s.wrN .TRC_HEAD v.toNat fn →
      (u.traceOver fn = true → exec (.traceHeadWrite fn v) s = .next (s.apart fun _ => u)) ∧
      (u.traceOver fn = false → exec (.traceHeadWrite fn v) s = .next (s.apart fun _ =>
        (u.setTraceUsed fn ((u.rdN .TRC_TAIL fn % u.traceSize fn + u.traceSize fn - v.toNat % u.traceSize fn) %
          u.traceSize fn)).traceLost fn)))) ∧
  (∀ (s u : State) (d : Desc), s.mayRun d = true → u = s.start d →
    exec (.trcMark d) s = .next (s.apart fun _ => (u.trace 4 8 5 (dFn d) .hub (dBed d) d.tag.toNat
      (leBytes 4 d.jobId.toNat ++ leBytes 2 d.layerId.toNat ++ leBytes 2 d.operatorId.toNat ++
        leBytes 2 d.rangeMarker.toNat ++ leBytes 2 (dArg d 48 2) ++ leBytes 2 (dArg d 50 2) ++ [0, 0])).complete d
          St.ok 0) ∧
    (let n := min (u.counterView (dFn d)).length ((dLen0 d - 8) / 8)
     exec (.ctrSnapshot d) s = .next (s.apart fun _ => (u.writeAddr d d.addr0 ((leBytes 8 u.now.toNat ++
      List.flatten (((u.counterView (dFn d)).take n).map fun v => leBytes 8 v)).take (dLen0 d))).complete d St.ok n)))

/-- Power, reset inputs and the links to the host and the expanders (R303, R491 to R507). -/
def Obligations.PowerAndResetRun : Prop :=
  (∀ s : State,
    (s.pow.supply = .off → exec .powerOn s = .next { s with pow := { s.pow with supply := .ramp } }) ∧
    (∀ strap : Nat, s.pow.supply = .ramp → exec (.powerOnResetRelease strap) s =
      .next (s.apart fun s => s.powerOnReset strap)) ∧
    (s.pow.supply = .on → exec .powerLoss s = .next (s.apart fun s =>
      { s.holdUp with keep := s.holdUp.keep.resetTo [], pow := { s.holdUp.pow with supply := .off } })) ∧
    (s.pow.supply = .on → s.flt.safe = false →
      exec .devResetNAssert s = .next (s.apart fun s => s.devResetAssert) ∧
      exec .deviceReset s = .next (s.apart fun s => s.devResetRelease)) ∧
    (s.pow.supply = .on → exec .vinOvervoltage s = .next (s.apart fun s => s.raise { source := 0x46 }) ∧
      exec .thermalShutdown s = .next (s.apart fun s => s.raise { source := 0x46 }))) ∧
  (∀ s : State, s.powered = true →
    exec .vinLow s = .next (s.apart fun s => s.setStatus F.HUB_PWR_STATUS_VIN_LOW 0) ∧
    exec .vinHigh s = .next (s.apart fun s => s.setStatus F.HUB_PWR_STATUS_VIN_HIGH 0) ∧
    (∀ (cls : Fin 4) (sensor : Byte),
      (let others := s.pow.warned.filter fun x => x != (cls.val, sensor.toNat)
       exec (.thermalWarning cls sensor) s = .next (s.apart fun s => State.setStatus
        { s with pow := { s.pow with warned := (cls.val, sensor.toNat) :: others } } F.HUB_PWR_STATUS_WARN 0 cls) ∧
       exec (.thermalWarningEnd cls sensor) s = .next { s with pow := { s.pow with warned := others } })) ∧
    exec .hostLinkUp s = .next { s with pow := { s.pow with perst := false, hostUp := true } } ∧
    exec .hostLinkDown s = .next (s.apart fun s => State.dropSpdm { s with pow := { s.pow with hostUp := false } }) ∧
    exec .perst s = .next (s.apart fun s =>
      let u := (List.range 17).foldl (fun s fn => s.functionReset fn) s
      State.dropSpdm { u with pow := { u.pow with perst := true, hostUp := false } })) ∧
  (∀ s : State, s.active = true →
    (s.seq < 4 → s.fget F.HUB_BOOT_MEM_READY 0 ≠ 1 →
      exec (.stackTrainingComplete 0xFFFF) s = .next (s.apart fun s => s.fset F.HUB_BOOT_STACKS_TRAINED 0xFFFF 0)) ∧
    (∀ u v : State, s.seq = 2 → s.fget F.HUB_BOOT_STACKS_TRAINED 0 = 0xFFFF → s.fget F.HUB_BOOT_KEEP_READY 0 = 1 →
      s.fget F.HUB_BOOT_MEM_READY 0 = 0 → u = (List.range 16).foldl (fun s r => s.loadSpare r) s →
      v = { u with mem := { u.mem with near := [], poison := [] }, sec := { u.sec with devNear := true } } →
      exec .memoryReady s = .next (s.apart fun _ =>
        ((v.jApply [v.secKeyEntry none 0 5 0xFF 0 0]).fset F.HUB_BOOT_MEM_READY 1 0).verify)) ∧
    (∀ v : W32, F.HUB_RESET_CTRL_DEVICE.get v = 1 → F.HUB_RESET_CTRL_KEY.get v = 0xA5 →
      exec (.hubResetCtrl v) s = .next (s.apart fun s => s.deviceReset 2)) ∧
    (∀ mask : W16, 4 ≤ s.seq → exec (.hubRegionReset mask) s = .next (s.apart fun s =>
      ((List.range 16).filter fun r => bitSet mask.toNat r && (s.bedOfRegion r).isNone &&
        !s.flt.regions.contains r).foldl
          (fun s r => ((s.clockRestart r).regionReset r).startRegionTest r none) s)) ∧
    (∀ (port : Fin 4) (width rate : Nat), s.fget F.CXL_CTRL_ENABLE port ≠ 0 →
      s.flt.ports.contains (8 + port.val) = false →
      exec (.cxlLinkUp port width rate) s = .next (s.apart fun s =>
        ((s.fset F.CXL_STATUS_LINK_UP 1 port).fset F.CXL_STATUS_WIDTH width port).fset F.CXL_STATUS_RATE rate port)))

/-- What a step does with the queue: the command in front runs with the rest of the queue, and an empty queue idles (log entry
52). -/
def Obligations.StepRunsTheFront : Prop :=
  (∀ (c : Instr) (s : State), step { s with pending := c :: s.pending } = exec c s) ∧
  (∀ s : State, s.pending = [] → step s = .next s)

/-- No command stops the device, and no command changes the queue: a step takes exactly the command in front. -/
def Obligations.CommandsTakeOneStep : Prop :=
  (∀ (c : Instr) (s : State), ∃ t, exec c s = .next t ∧ t.pending = s.pending) ∧
  (∀ s : State, ∃ t, step s = .next t ∧ t.pending = s.pending.tail)

/-- The device right after the release of power-on reset (R15, R39, R58, R73, R430, R504): Frame Time 0 in FREE, every
register at its reset value, the sequencer in SELFTEST, nothing in flight, memory with nothing listed. -/
def Obligations.ResetLeaves : Prop :=
  (∀ r : Reg, State.reset.rd r = r.reset) ∧ State.reset.now = 0 ∧ State.reset.ftState = Fs.free ∧
  State.reset.active = true ∧ State.reset.seq = 0 ∧ State.reset.host.inflight = [] ∧ State.reset.host.rings = [] ∧
  State.reset.ses.entries = [] ∧ State.reset.flt.log = [] ∧ State.reset.keep.records = [] ∧
  State.reset.mem.near = [] ∧ State.reset.mem.host = [] ∧ State.reset.memoryCanonical = true ∧ State.reset.pending = []

/-- R11: where no register stands, a read returns zero and a write is discarded. -/
def Obligations.MissingRegistersReadZero : Prop :=
  ∀ (s : State) (a : Access32), s.powered = true → s.locate a = .nothing →
    (s.admits a = true →
      exec (.pairLowerRead a) s = .next { s with bus := { s.bus with readData := 0 } } ∧
      ∀ hw : W32, exec (.rcRead a hw) s = .next { s with bus := { s.bus with readData := 0 } }) ∧
    (∀ v hw : W32, exec (.pairLowerWrite a v) s = .next s ∧ exec (.pairUpperWrite a v) s = .next s ∧
      exec (.registerWrite a v) s = .next s ∧ exec (.w1cWrite a v hw) s = .next s ∧ exec (.intEnableWrite a v) s = .next s)

/-- R14: a read that clears a field in the cycle in which hardware sets `hw` returns the value held before, and the field holds
the new set. The value held in HUB_POWER_PEAK is open (log entry 47). -/
def Obligations.ReadClearLosesNothing : Prop :=
  ∀ (s : State) (a : Access32) (hw : W32) (r : Reg), s.active = true → s.admits a = true → s.locate a = .reg r →
    r.name.rcMask ≠ 0 →
    ∃ t, exec (.rcRead a hw) s = .next t ∧
      (r.name ≠ .HUB_POWER_PEAK → t.bus.readData &&& r.name.rcMask = s.rd r &&& r.name.rcMask) ∧
      t.rd r &&& r.name.rcMask = hw &&& r.name.rcMask ∧
      t.rd r &&& ~~~r.name.rcMask = s.rd r &&& ~~~r.name.rcMask ∧ (∀ q, q ≠ r → t.rd q = s.rd q)

/-- R92: the indices of a SID, and its home node. -/
def Obligations.SessionDigestIndices : Prop :=
  ∀ (s : State) (sid : W64) (h : Nat → Nat), (∀ i, h i = ((sha256 (leBytes 8 sid.toNat)).getD i 0).toNat) →
    homeBucket sid = (h 1 * 256 + h 0) % 4096 ∧
    dirBucket sid = (h 6 * 65536 + h 5 * 256 + h 4) % 2097152 ∧
    (∀ m : HomeMap, s.ses.map = some m → s.homeOf sid = some (m.nodes.getD ((h 1 * 256 + h 0) % 4096) 0)) ∧
    (s.ses.map = none → s.homeOf sid = none)

/-- R288: the fields of a tensor-set handle, and the command that names one whose GEN or Bed differs from the entry. -/
def Obligations.TensorSetHandles : Prop :=
  (∀ t : TensorSet, t.ix < 2 ^ 18 → t.tier < 4 → t.bed < 16 →
    bits (setHandle t).toNat 17 0 = t.ix ∧ bits (setHandle t).toNat 19 18 = t.tier ∧
    bits (setHandle t).toNat 23 20 = t.bed ∧ bits (setHandle t).toNat 47 24 = t.gen % 2 ^ 24 ∧
    bits (setHandle t).toNat 63 48 = 0) ∧
  (∀ (s u : State) (d : Desc), s.mayRun d = true → u = s.start d →
    (∀ t ∈ u.tiers.sets, t.ix = bits (dArg d 56 8) 17 0 →
      t.state = .free ∨ t.gen % 2 ^ 24 ≠ bits (dArg d 56 8) 47 24 ∨ t.bed ≠ bits (dArg d 56 8) 23 20) →
    exec (.tierSetQuery d) s = .next (s.apart fun _ => u.complete d St.notFound 0))

/-- R40: the order of Frame Time values. -/
def Obligations.FrameTimeOrder : Prop :=
  ∀ (a b : W64) (x : Nat), x = (b.toNat + 2 ^ 64 - a.toNat) % 2 ^ 64 →
    (ftLater b a = true ↔ 0 < x ∧ x < 2 ^ 63) ∧ (b = a ↔ x = 0) ∧
    (ftReached b a = true ↔ x < 2 ^ 63) ∧ (ftReached b a = false ↔ 2 ^ 63 ≤ x)

/-- The descriptor image: every descriptor comes back from its 64 bytes, and its opcode names the command it was written for
(R67, R68). -/
def Obligations.DescriptorImagesDecode : Prop :=
  (∀ d : Desc, (dBytes d).length = 64 ∧ dParse d.src (dBytes d) = d) ∧
  (∀ (c : Instr) (d : Desc) (op : Nat), c.desc? = some (d, op) → c.wf = true →
    commandOf (dParse d.src (dBytes d)) = some c) ∧
  (∀ (d : Desc) (c : Instr), commandOf d = some c → c.desc? = some (d, d.opcode.toNat))

/-- The gates of every descriptor (R71, R83, R391, R462): one that must wait changes nothing, one of a Bed that a C3 fault stopped
completes with FENCED, one whose buffers meet lines that other nodes hold recalls them first, and one whose input carries poison
completes with POISONED and has no other effect (R71). -/
def Obligations.DescriptorGates : Prop :=
  ∀ (c : Instr) (s : State) (d : Desc) (op : Nat), c.desc? = some (d, op) → s.active = true →
    (s.blocked d = true → exec c s = .next s) ∧
    (s.blocked d = false → ((dBed d).any fun b => s.flt.fatalBeds.contains b) = true →
      exec c s = .next (s.apart fun s => s.complete d St.fenced 0)) ∧
    (s.blocked d = false → ((dBed d).any fun b => s.flt.fatalBeds.contains b) = false → s.mustRecall d ≠ [] →
      exec c s = .next (s.apart fun s => s.recallFor d)) ∧
    (s.blocked d = false → ((dBed d).any fun b => s.flt.fatalBeds.contains b) = false → s.mustRecall d = [] →
      s.inputPoison d = true → exec c s = .next (s.apart fun s => (s.start d).complete d St.poisoned 0))

/-- NOP from a mailbox (R73, R79): its completion stands in MB_COMP, BUSY clears, the descriptor leaves the engine; memory, the sessions
and every register outside the mailbox, interface and trace blocks stay. -/
def Obligations.NopFromMailbox : Prop :=
  ∀ (s : State) (d : Desc) (fn : Fin 17) (m : Fin 16), (Instr.nop d).wf = true → s.mayRun d = true → d.src = .mailbox fn m →
    ∃ t, exec (.nop d) s = .next t ∧ t.fget F.MB_STATUS_BUSY fn m = 0 ∧
      (∀ k, k < 8 → t.rdN .MB_COMP fn (m * 8 + k) = bytesAt (compBytes d (s.endStatus d 0) 0 false s.now) (4 * k) 4) ∧
      (t.rd ⟨.IF_INT_STATUS, fn, 0⟩).getLsbD m = true ∧
      t.host = { s.host with inflight := s.host.inflight.eraseP fun i => i.desc == d } ∧
      t.mem = s.mem ∧ t.time = s.time ∧ t.keep = s.keep ∧ t.ses = s.ses ∧ t.sch = s.sch ∧ t.kv = s.kv ∧ t.tiers = s.tiers ∧
      t.flash = s.flash ∧ t.exp = s.exp ∧ t.ck = s.ck ∧ t.plw = s.plw ∧ t.sec = s.sec ∧ t.flt = s.flt ∧
      (∀ q : Reg, q.name.place.blk ≠ .mailbox → q.name.place.blk ≠ .iface → q.name.place.blk ≠ .trace → t.rd q = s.rd q)

/-- The frame of MEM_FILL from a mailbox (R395, R396): near memory outside the granules' pieces of its range, host memory, the ring
SRAM and the sessions stay. -/
def Obligations.MemFillFrame : Prop :=
  ∀ (s : State) (d : Desc) (fn : Fin 17) (m : Fin 16) (bed va : Nat), s.mayRun d = true → d.src = .mailbox fn m →
    dBed d = some bed → va = d.addr0.toNat % 2 ^ 48 →
    ∃ t, exec (.memFill d) s = .next t ∧
      (∀ a, (∀ p ∈ s.pieces bed va (dLen0 d), ∀ pa, s.bufPa bed p.1 = some pa → a < pa ∨ pa + p.2 ≤ a) →
        Mem.read t.mem.near a = Mem.read s.mem.near a) ∧
      t.mem.host = s.mem.host ∧ t.mem.sram = s.mem.sram ∧ t.ses = s.ses ∧ t.sch = s.sch ∧
      t.kv = { s.kv with walkers := t.kv.walkers } ∧ t.time = s.time ∧ t.keep = s.keep ∧ t.exp = s.exp ∧ t.sec = s.sec ∧ t.flt = s.flt

/-- The frame of the rows that only set a status bit (R303, R507): the device's memory, time, sessions and every register of other
blocks stay. -/
def Obligations.StatusEventFrame : Prop :=
  ∀ (s : State) (c : Instr), s.active = true →
    (c = .vinLow ∨ c = .vinHigh ∨ (∃ (cls : Fin 4) (x : Byte), c = .thermalWarning cls x) ∨
      ∃ port : Fin 4, c = .cxlDeviceEvent port) →
    ∃ t, exec c s = .next t ∧ t.mem = s.mem ∧ t.time = s.time ∧ t.keep = s.keep ∧ t.flt = s.flt ∧ t.ses = s.ses ∧
      t.sch = s.sch ∧ t.grafts = s.grafts ∧ t.kv = s.kv ∧ t.intake = s.intake ∧ t.smp = s.smp ∧ t.tiers = s.tiers ∧
      t.flash = s.flash ∧ t.obs = s.obs ∧ t.vs = s.vs ∧ t.exp = s.exp ∧ t.ck = s.ck ∧ t.plw = s.plw ∧ t.sec = s.sec ∧
      t.host = s.host ∧ (∀ q : Reg, q.name.place.blk ≠ .hub → q.name.place.blk ≠ .cxl → t.rd q = s.rd q)

/-- Without power nothing happens but power-on and its loss (R495, R503). -/
def Obligations.PowerOffHolds : Prop :=
  ∀ (c : Instr) (s : State), s.pow.supply ≠ .on →
    (s.pow.supply = .ramp ∨ c ≠ .powerOn) → (s.pow.supply = .off ∨ ∀ strap, c ≠ .powerOnResetRelease strap) →
    c ≠ .powerLoss → exec c s = .next s

/-- DEV_RESET_N held low holds the device (R503): but for the hub's clock, the out-of-band endpoint and the SPDM responder, the power
inputs and the release, a command changes nothing. -/
def Obligations.DeviceResetHolds : Prop :=
  ∀ (c : Instr) (s : State), s.pow.supply = .on → s.pow.devReset = true → s.flt.safe = false →
    (∀ dt, c ≠ .timeWord dt) → (∀ oob r, c ≠ .spdmRequest oob r) → (∀ start, c ≠ .faultRead start) → c ≠ .healthRead →
    c ≠ .vinOvervoltage → c ≠ .thermalShutdown → c ≠ .deviceReset → c ≠ .powerLoss → exec c s = .next s

/-- The safe state (R463): no step but the release of a power-on reset leaves it, no line of near memory and no byte of host memory is
written, and no session, schedule, Graft, page, table, image, index, export, checkpoint or port changes. -/
def Obligations.SafeStateHolds : Prop :=
  ∀ s t : State, s.flt.safe = true → (∀ strap rest, s.pending ≠ .powerOnResetRelease strap :: rest) → step s = .next t →
    t.flt.safe = true ∧ t.mem.near = s.mem.near ∧ t.mem.host = s.mem.host ∧ t.ses = s.ses ∧ t.sch = s.sch ∧
    t.grafts = s.grafts ∧ t.kv = s.kv ∧ t.intake = s.intake ∧ t.smp = s.smp ∧ t.tiers = s.tiers ∧
    t.vs = s.vs ∧ t.exp = s.exp ∧ t.ck = s.ck ∧ t.plw = s.plw ∧ t.toSend = s.toSend ∧
    (∀ i, (t.flashCtl i).map = (s.flashCtl i).map)

/-- A C4 fault brings the safe state (R458, R463): VIN_OVERVOLTAGE and THERMAL_SHUTDOWN. -/
def Obligations.SafeStateEntered : Prop :=
  ∀ s : State, s.pow.supply = .on → s.flt.safe = false →
    (∃ t, exec .vinOvervoltage s = .next t ∧ t.flt.safe = true ∧ t.seq = 6 ∧
      (∀ p : Fin 4, t.fget F.CXL_STATUS_LINK_UP p = 0) ∧ t.mem = s.mem ∧ t.time = s.time ∧ t.ses = s.ses) ∧
    (∃ t, exec .thermalShutdown s = .next t ∧ t.flt.safe = true ∧ t.seq = 6 ∧
      (∀ p : Fin 4, t.fget F.CXL_STATUS_LINK_UP p = 0) ∧ t.mem = s.mem ∧ t.time = s.time ∧ t.ses = s.ses)

end Statements
end

