-- ==== Sys2Proof/Laws/Map.lean ====
section
/-! SUPPORT. The laws of the two containers: what a table reads after a change, and that byte memory reads back what was written, leaves
every other byte alone, and keeps its canonical form. -/

namespace Sys2Proof.Machine

/-! ## Tables -/

/-- A key that was erased reads as the default. -/
theorem Table.get_erase_self {κ α : Type} [DecidableEq κ] (t : List (κ × α)) (d : α) (k : κ) :
    Table.get (Table.erase t k) d k = d := by
  induction t with
  | nil => rfl
  | cons p r ih =>
    by_cases h : p.1 = k
    · simpa [Table.erase, h] using ih
    · simpa [Table.erase, Table.get, h] using ih

/-- Erasing a key leaves the others. -/
theorem Table.get_erase_other {κ α : Type} [DecidableEq κ] (t : List (κ × α)) (d : α) {k q : κ} (h : q ≠ k) :
    Table.get (Table.erase t k) d q = Table.get t d q := by
  induction t with
  | nil => rfl
  | cons p r ih =>
    by_cases hk : p.1 = k
    · have : p.1 ≠ q := fun e => h (e.symm.trans hk)
      simpa [Table.erase, Table.get, hk, this, Ne.symm h] using ih
    · by_cases hq : p.1 = q
      · simp [Table.erase, Table.get, hq, h]
      · simpa [Table.erase, Table.get, hk, hq] using ih

/-- A table reads what was set. -/
@[simp] theorem Table.get_set_self {κ α : Type} [DecidableEq κ] [DecidableEq α] (t : List (κ × α)) (d : α) (k : κ) (v : α) :
    Table.get (Table.set t d k v) d k = v := by
  unfold Table.set
  split
  · next h => rw [Table.get_erase_self, h]
  · simp [Table.get]

/-- Setting a key leaves the others. -/
theorem Table.get_set_other {κ α : Type} [DecidableEq κ] [DecidableEq α] (t : List (κ × α)) (d e : α) {k q : κ} (v : α)
    (h : q ≠ k) : Table.get (Table.set t d k v) e q = Table.get t e q := by
  unfold Table.set
  split
  · exact Table.get_erase_other t e h
  · simp [Table.get, Ne.symm h, Table.get_erase_other t e h]

/-! ## Byte memory -/

/-- Reading a byte below every listed address gives a fresh byte. -/
theorem Mem.read_below (m : List Host.Cell) (lo a : Nat) (h : Mem.wfFrom (some lo) m = true) (ha : a ≤ lo) :
    Mem.read m a = Mem.fresh := by
  induction m generalizing lo with
  | nil => rfl
  | cons p r ih =>
    obtain ⟨b, w⟩ := p
    simp [Mem.wfFrom] at h
    have : b ≠ a := by omega
    simp [Mem.read, this]
    exact ih b h.2 (by omega)

/-- A canonical memory above a bound is canonical above a smaller one. -/
theorem Mem.wfFrom_mono (m : List Host.Cell) (lo hi : Nat) (h : Mem.wfFrom (some hi) m = true) (hl : lo ≤ hi) :
    Mem.wfFrom (some lo) m = true := by
  cases m with
  | nil => rfl
  | cons p r => obtain ⟨b, w⟩ := p; simp [Mem.wfFrom] at *; exact ⟨⟨by omega, h.1.2⟩, h.2⟩

/-- A canonical memory above a bound is canonical. -/
theorem Mem.wf_of_wfFrom (m : List Host.Cell) (lo : Nat) (h : Mem.wfFrom (some lo) m = true) : Mem.wf m = true := by
  cases m with
  | nil => rfl
  | cons p r => obtain ⟨b, w⟩ := p; simp [Mem.wf, Mem.wfFrom] at *; exact ⟨h.1.2, h.2⟩

/-- A byte reads back what was written. -/
theorem Mem.read_write_self (m : List Host.Cell) (a : Nat) (v : Byte) (h : Mem.wf m = true) :
    Mem.read (Mem.write m a v) a = v := by
  induction m with
  | nil => by_cases hv : v = Mem.fresh <;> simp [Mem.write, Mem.read, hv]
  | cons p r ih =>
    obtain ⟨b, w⟩ := p
    simp [Mem.wf, Mem.wfFrom] at h
    by_cases hab : a < b
    · by_cases hv : v = Mem.fresh
      · have : b ≠ a := by omega
        simp [Mem.write, hab, hv, Mem.read, this]
        exact Mem.read_below r b a h.2 (by omega)
      · simp [Mem.write, hab, hv, Mem.read]
    · by_cases he : a = b
      · subst he
        by_cases hv : v = Mem.fresh
        · simp [Mem.write, hv]; exact Mem.read_below r a a h.2 (Nat.le_refl _)
        · simp [Mem.write, hv, Mem.read]
      · have : b ≠ a := fun e => he e.symm
        simp [Mem.write, hab, he, Mem.read, this]
        exact ih (Mem.wf_of_wfFrom r b h.2)

/-- A write leaves every other byte. -/
theorem Mem.read_write_other (m : List Host.Cell) (a c : Nat) (v : Byte) (hc : c ≠ a) (h : Mem.wf m = true) :
    Mem.read (Mem.write m a v) c = Mem.read m c := by
  induction m with
  | nil => by_cases hv : v = Mem.fresh <;> simp [Mem.write, Mem.read, hv, Ne.symm hc]
  | cons p r ih =>
    obtain ⟨b, w⟩ := p
    simp [Mem.wf, Mem.wfFrom] at h
    by_cases hab : a < b
    · by_cases hv : v = Mem.fresh <;> simp [Mem.write, hab, hv, Mem.read, Ne.symm hc]
    · by_cases he : a = b
      · subst he
        by_cases hv : v = Mem.fresh <;> simp [Mem.write, hv, Mem.read, Ne.symm hc]
      · by_cases hb : b = c
        · subst hb; simp [Mem.write, hab, he, Mem.read]
        · simp [Mem.write, hab, he, Mem.read, hb]; exact ih (Mem.wf_of_wfFrom r b h.2)

/-- A write above a bound keeps the memory canonical above it. -/
theorem Mem.wfFrom_write (m : List Host.Cell) (lo : Option Nat) (a : Nat) (v : Byte) (h : Mem.wfFrom lo m = true)
    (hl : ∀ l, lo = some l → l < a) : Mem.wfFrom lo (Mem.write m a v) = true := by
  induction m generalizing lo with
  | nil =>
    by_cases hv : v = Mem.fresh
    · simp [Mem.write, hv, Mem.wfFrom]
    · cases lo with
      | none => simp [Mem.write, hv, Mem.wfFrom]
      | some l => simp [Mem.write, hv, Mem.wfFrom, hl l rfl]
  | cons p r ih =>
    obtain ⟨b, w⟩ := p
    by_cases hab : a < b
    · by_cases hv : v = Mem.fresh
      · simpa [Mem.write, hab, hv] using h
      · cases lo with
        | none => simp [Mem.write, hab, hv, Mem.wfFrom] at *; exact h
        | some l => simp [Mem.write, hab, hv, Mem.wfFrom, hl l rfl] at *; exact ⟨h.1.2, h.2⟩
    · by_cases he : a = b
      · subst he
        by_cases hv : v = Mem.fresh
        · cases lo with
          | none => simp [Mem.write, hv, Mem.wfFrom] at *; exact Mem.wf_of_wfFrom r a h.2
          | some l => simp [Mem.write, hv, Mem.wfFrom] at *; exact Mem.wfFrom_mono r l a h.2 (by omega)
        · cases lo with
          | none => simp [Mem.write, hv, Mem.wfFrom] at *; exact h.2
          | some l => simp [Mem.write, hv, Mem.wfFrom] at *; exact ⟨h.1.1, h.2⟩
      · have hb : b < a := by omega
        cases lo with
        | none =>
          simp [Mem.write, hab, he, Mem.wfFrom] at *
          exact ⟨h.1, ih (some b) h.2 (fun l e => by cases e; exact hb)⟩
        | some l =>
          simp [Mem.write, hab, he, Mem.wfFrom] at *
          exact ⟨h.1, ih (some b) h.2 (fun l e => by cases e; exact hb)⟩

/-- A write keeps the canonical form. -/
theorem Mem.wf_write (m : List Host.Cell) (a : Nat) (v : Byte) (h : Mem.wf m = true) : Mem.wf (Mem.write m a v) = true :=
  Mem.wfFrom_write m none a v h (by simp)

/-- Writes of several bytes keep the canonical form. -/
theorem Mem.wf_writeBytes (bs : List Byte) (m : List Host.Cell) (a : Nat) (h : Mem.wf m = true) :
    Mem.wf (Mem.writeBytes m a bs) = true := by
  induction bs generalizing m a with
  | nil => exact h
  | cons b r ih => exact ih _ _ (Mem.wf_write m a b h)

/-- Filtering keeps the memory canonical above a bound. -/
theorem Mem.wfFrom_filter (p : Host.Cell → Bool) (m : List Host.Cell) (lo : Option Nat) (h : Mem.wfFrom lo m = true) :
    Mem.wfFrom lo (m.filter p) = true := by
  induction m generalizing lo with
  | nil => exact h
  | cons c r ih =>
    obtain ⟨b, w⟩ := c
    simp [Mem.wfFrom] at h
    by_cases hp : p (b, w) = true
    · simp [hp, Mem.wfFrom]; exact ⟨h.1, ih (some b) h.2⟩
    · simp [hp]
      cases lo with
      | none => exact ih none (Mem.wf_of_wfFrom r b h.2)
      | some l =>
        have hl : l < b := by simpa using h.1.1
        exact ih (some l) (Mem.wfFrom_mono r l b h.2 (by omega))

/-- Making a range fresh keeps the canonical form. -/
theorem Mem.wf_clear (m : List Host.Cell) (a n : Nat) (h : Mem.wf m = true) : Mem.wf (Mem.clear m a n) = true :=
  Mem.wfFrom_filter _ m none h

/-- A byte inside a cleared range is fresh. -/
theorem Mem.read_clear_in (m : List Host.Cell) (a n c : Nat) (h1 : a ≤ c) (h2 : c < a + n) :
    Mem.read (Mem.clear m a n) c = Mem.fresh := by
  induction m with
  | nil => rfl
  | cons p r ih =>
    obtain ⟨b, w⟩ := p
    by_cases hb : a ≤ b ∧ b < a + n
    · simpa [Mem.clear, hb.1, hb.2] using ih
    · have : b ≠ c := fun e => hb (e ▸ ⟨h1, h2⟩)
      simp only [Mem.clear, List.filter_cons]
      split
      · simp only [Mem.read, if_neg this]; exact ih
      · exact ih

/-- A byte outside a cleared range is as it was. -/
theorem Mem.read_clear_out (m : List Host.Cell) (a n c : Nat) (h : c < a ∨ a + n ≤ c) :
    Mem.read (Mem.clear m a n) c = Mem.read m c := by
  induction m with
  | nil => rfl
  | cons p r ih =>
    obtain ⟨b, w⟩ := p
    simp only [Mem.clear, List.filter_cons]
    split
    · by_cases hb : b = c
      · simp [Mem.read, hb]
      · simp only [Mem.read, if_neg hb]; exact ih
    · next hn =>
      have : b ≠ c := by
        intro e
        subst e
        apply hn
        simp
        omega
      simp only [Mem.read, if_neg this]; exact ih

/-- Writes of several bytes leave every byte outside them. -/
theorem Mem.read_writeBytes_out (bs : List Byte) (m : List Host.Cell) (a c : Nat) (h : Mem.wf m = true)
    (hc : c < a ∨ a + bs.length ≤ c) : Mem.read (Mem.writeBytes m a bs) c = Mem.read m c := by
  induction bs generalizing m a with
  | nil => rfl
  | cons b r ih =>
    simp only [List.length_cons] at hc
    simp only [Mem.writeBytes]
    rw [ih (Mem.write m a b) (a + 1) (Mem.wf_write m a b h) (by omega)]
    exact Mem.read_write_other m a c b (by omega) h

/-- Writes of several bytes are read back. -/
theorem Mem.read_writeBytes_in (bs : List Byte) (m : List Host.Cell) (a i : Nat) (h : Mem.wf m = true) (hi : i < bs.length) :
    Mem.read (Mem.writeBytes m a bs) (a + i) = bs[i] := by
  induction bs generalizing m a i with
  | nil => simp at hi
  | cons b r ih =>
    simp only [Mem.writeBytes]
    cases i with
    | zero =>
      show Mem.read (Mem.writeBytes (Mem.write m a b) (a + 1) r) a = b
      rw [Mem.read_writeBytes_out r (Mem.write m a b) (a + 1) a (Mem.wf_write m a b h) (Or.inl (by omega))]
      exact Mem.read_write_self m a b h
    | succ j =>
      have := ih (Mem.write m a b) (a + 1) j (Mem.wf_write m a b h) (by simpa using hi)
      simpa [Nat.add_assoc, Nat.add_comm 1] using this

end Sys2Proof.Machine
end

