-- ==== Sys2Proof/Laws/State.lean ====
section
/-! SUPPORT. What each plain update of the state leaves alone: one lemma for each field. -/

namespace Sys2Proof.Machine

/-! ## `State.wr` -/

@[simp] theorem State.wr_bus (s : State) (r : Reg) (v : W32) : (s.wr r v).bus = s.bus := rfl
@[simp] theorem State.wr_time (s : State) (r : Reg) (v : W32) : (s.wr r v).time = s.time := rfl
@[simp] theorem State.wr_host (s : State) (r : Reg) (v : W32) : (s.wr r v).host = s.host := rfl
@[simp] theorem State.wr_keep (s : State) (r : Reg) (v : W32) : (s.wr r v).keep = s.keep := rfl
@[simp] theorem State.wr_mem (s : State) (r : Reg) (v : W32) : (s.wr r v).mem = s.mem := rfl
@[simp] theorem State.wr_flt (s : State) (r : Reg) (v : W32) : (s.wr r v).flt = s.flt := rfl
@[simp] theorem State.wr_ses (s : State) (r : Reg) (v : W32) : (s.wr r v).ses = s.ses := rfl
@[simp] theorem State.wr_sch (s : State) (r : Reg) (v : W32) : (s.wr r v).sch = s.sch := rfl
@[simp] theorem State.wr_grafts (s : State) (r : Reg) (v : W32) : (s.wr r v).grafts = s.grafts := rfl
@[simp] theorem State.wr_kv (s : State) (r : Reg) (v : W32) : (s.wr r v).kv = s.kv := rfl
@[simp] theorem State.wr_intake (s : State) (r : Reg) (v : W32) : (s.wr r v).intake = s.intake := rfl
@[simp] theorem State.wr_smp (s : State) (r : Reg) (v : W32) : (s.wr r v).smp = s.smp := rfl
@[simp] theorem State.wr_tiers (s : State) (r : Reg) (v : W32) : (s.wr r v).tiers = s.tiers := rfl
@[simp] theorem State.wr_flash (s : State) (r : Reg) (v : W32) : (s.wr r v).flash = s.flash := rfl
@[simp] theorem State.wr_obs (s : State) (r : Reg) (v : W32) : (s.wr r v).obs = s.obs := rfl
@[simp] theorem State.wr_vs (s : State) (r : Reg) (v : W32) : (s.wr r v).vs = s.vs := rfl
@[simp] theorem State.wr_exp (s : State) (r : Reg) (v : W32) : (s.wr r v).exp = s.exp := rfl
@[simp] theorem State.wr_ck (s : State) (r : Reg) (v : W32) : (s.wr r v).ck = s.ck := rfl
@[simp] theorem State.wr_plw (s : State) (r : Reg) (v : W32) : (s.wr r v).plw = s.plw := rfl
@[simp] theorem State.wr_sec (s : State) (r : Reg) (v : W32) : (s.wr r v).sec = s.sec := rfl
@[simp] theorem State.wr_pow (s : State) (r : Reg) (v : W32) : (s.wr r v).pow = s.pow := rfl
@[simp] theorem State.wr_toSend (s : State) (r : Reg) (v : W32) : (s.wr r v).toSend = s.toSend := rfl
@[simp] theorem State.wr_freeCtr (s : State) (r : Reg) (v : W32) : (s.wr r v).freeCtr = s.freeCtr := rfl
@[simp] theorem State.wr_pending (s : State) (r : Reg) (v : W32) : (s.wr r v).pending = s.pending := rfl

/-! ## `State.fset` -/

@[simp] theorem State.fset_bus (s : State) (f : Fld) (x inst idx : Nat) : (s.fset f x inst idx).bus = s.bus := rfl
@[simp] theorem State.fset_time (s : State) (f : Fld) (x inst idx : Nat) : (s.fset f x inst idx).time = s.time := rfl
@[simp] theorem State.fset_host (s : State) (f : Fld) (x inst idx : Nat) : (s.fset f x inst idx).host = s.host := rfl
@[simp] theorem State.fset_keep (s : State) (f : Fld) (x inst idx : Nat) : (s.fset f x inst idx).keep = s.keep := rfl
@[simp] theorem State.fset_mem (s : State) (f : Fld) (x inst idx : Nat) : (s.fset f x inst idx).mem = s.mem := rfl
@[simp] theorem State.fset_flt (s : State) (f : Fld) (x inst idx : Nat) : (s.fset f x inst idx).flt = s.flt := rfl
@[simp] theorem State.fset_ses (s : State) (f : Fld) (x inst idx : Nat) : (s.fset f x inst idx).ses = s.ses := rfl
@[simp] theorem State.fset_sch (s : State) (f : Fld) (x inst idx : Nat) : (s.fset f x inst idx).sch = s.sch := rfl
@[simp] theorem State.fset_grafts (s : State) (f : Fld) (x inst idx : Nat) : (s.fset f x inst idx).grafts = s.grafts := rfl
@[simp] theorem State.fset_kv (s : State) (f : Fld) (x inst idx : Nat) : (s.fset f x inst idx).kv = s.kv := rfl
@[simp] theorem State.fset_intake (s : State) (f : Fld) (x inst idx : Nat) : (s.fset f x inst idx).intake = s.intake := rfl
@[simp] theorem State.fset_smp (s : State) (f : Fld) (x inst idx : Nat) : (s.fset f x inst idx).smp = s.smp := rfl
@[simp] theorem State.fset_tiers (s : State) (f : Fld) (x inst idx : Nat) : (s.fset f x inst idx).tiers = s.tiers := rfl
@[simp] theorem State.fset_flash (s : State) (f : Fld) (x inst idx : Nat) : (s.fset f x inst idx).flash = s.flash := rfl
@[simp] theorem State.fset_obs (s : State) (f : Fld) (x inst idx : Nat) : (s.fset f x inst idx).obs = s.obs := rfl
@[simp] theorem State.fset_vs (s : State) (f : Fld) (x inst idx : Nat) : (s.fset f x inst idx).vs = s.vs := rfl
@[simp] theorem State.fset_exp (s : State) (f : Fld) (x inst idx : Nat) : (s.fset f x inst idx).exp = s.exp := rfl
@[simp] theorem State.fset_ck (s : State) (f : Fld) (x inst idx : Nat) : (s.fset f x inst idx).ck = s.ck := rfl
@[simp] theorem State.fset_plw (s : State) (f : Fld) (x inst idx : Nat) : (s.fset f x inst idx).plw = s.plw := rfl
@[simp] theorem State.fset_sec (s : State) (f : Fld) (x inst idx : Nat) : (s.fset f x inst idx).sec = s.sec := rfl
@[simp] theorem State.fset_pow (s : State) (f : Fld) (x inst idx : Nat) : (s.fset f x inst idx).pow = s.pow := rfl
@[simp] theorem State.fset_toSend (s : State) (f : Fld) (x inst idx : Nat) : (s.fset f x inst idx).toSend = s.toSend := rfl
@[simp] theorem State.fset_freeCtr (s : State) (f : Fld) (x inst idx : Nat) : (s.fset f x inst idx).freeCtr = s.freeCtr := rfl
@[simp] theorem State.fset_pending (s : State) (f : Fld) (x inst idx : Nat) : (s.fset f x inst idx).pending = s.pending := rfl

/-! ## `State.wrN` -/

@[simp] theorem State.wrN_bus (s : State) (n : RN) (x inst idx : Nat) : (s.wrN n x inst idx).bus = s.bus := rfl
@[simp] theorem State.wrN_time (s : State) (n : RN) (x inst idx : Nat) : (s.wrN n x inst idx).time = s.time := rfl
@[simp] theorem State.wrN_host (s : State) (n : RN) (x inst idx : Nat) : (s.wrN n x inst idx).host = s.host := rfl
@[simp] theorem State.wrN_keep (s : State) (n : RN) (x inst idx : Nat) : (s.wrN n x inst idx).keep = s.keep := rfl
@[simp] theorem State.wrN_mem (s : State) (n : RN) (x inst idx : Nat) : (s.wrN n x inst idx).mem = s.mem := rfl
@[simp] theorem State.wrN_flt (s : State) (n : RN) (x inst idx : Nat) : (s.wrN n x inst idx).flt = s.flt := rfl
@[simp] theorem State.wrN_ses (s : State) (n : RN) (x inst idx : Nat) : (s.wrN n x inst idx).ses = s.ses := rfl
@[simp] theorem State.wrN_sch (s : State) (n : RN) (x inst idx : Nat) : (s.wrN n x inst idx).sch = s.sch := rfl
@[simp] theorem State.wrN_grafts (s : State) (n : RN) (x inst idx : Nat) : (s.wrN n x inst idx).grafts = s.grafts := rfl
@[simp] theorem State.wrN_kv (s : State) (n : RN) (x inst idx : Nat) : (s.wrN n x inst idx).kv = s.kv := rfl
@[simp] theorem State.wrN_intake (s : State) (n : RN) (x inst idx : Nat) : (s.wrN n x inst idx).intake = s.intake := rfl
@[simp] theorem State.wrN_smp (s : State) (n : RN) (x inst idx : Nat) : (s.wrN n x inst idx).smp = s.smp := rfl
@[simp] theorem State.wrN_tiers (s : State) (n : RN) (x inst idx : Nat) : (s.wrN n x inst idx).tiers = s.tiers := rfl
@[simp] theorem State.wrN_flash (s : State) (n : RN) (x inst idx : Nat) : (s.wrN n x inst idx).flash = s.flash := rfl
@[simp] theorem State.wrN_obs (s : State) (n : RN) (x inst idx : Nat) : (s.wrN n x inst idx).obs = s.obs := rfl
@[simp] theorem State.wrN_vs (s : State) (n : RN) (x inst idx : Nat) : (s.wrN n x inst idx).vs = s.vs := rfl
@[simp] theorem State.wrN_exp (s : State) (n : RN) (x inst idx : Nat) : (s.wrN n x inst idx).exp = s.exp := rfl
@[simp] theorem State.wrN_ck (s : State) (n : RN) (x inst idx : Nat) : (s.wrN n x inst idx).ck = s.ck := rfl
@[simp] theorem State.wrN_plw (s : State) (n : RN) (x inst idx : Nat) : (s.wrN n x inst idx).plw = s.plw := rfl
@[simp] theorem State.wrN_sec (s : State) (n : RN) (x inst idx : Nat) : (s.wrN n x inst idx).sec = s.sec := rfl
@[simp] theorem State.wrN_pow (s : State) (n : RN) (x inst idx : Nat) : (s.wrN n x inst idx).pow = s.pow := rfl
@[simp] theorem State.wrN_toSend (s : State) (n : RN) (x inst idx : Nat) : (s.wrN n x inst idx).toSend = s.toSend := rfl
@[simp] theorem State.wrN_freeCtr (s : State) (n : RN) (x inst idx : Nat) : (s.wrN n x inst idx).freeCtr = s.freeCtr := rfl
@[simp] theorem State.wrN_pending (s : State) (n : RN) (x inst idx : Nat) : (s.wrN n x inst idx).pending = s.pending := rfl

/-! ## `State.bump` -/

@[simp] theorem State.bump_bus (s : State) (n : RN) (inst k idx : Nat) : (s.bump n inst k idx).bus = s.bus := rfl
@[simp] theorem State.bump_time (s : State) (n : RN) (inst k idx : Nat) : (s.bump n inst k idx).time = s.time := rfl
@[simp] theorem State.bump_host (s : State) (n : RN) (inst k idx : Nat) : (s.bump n inst k idx).host = s.host := rfl
@[simp] theorem State.bump_keep (s : State) (n : RN) (inst k idx : Nat) : (s.bump n inst k idx).keep = s.keep := rfl
@[simp] theorem State.bump_mem (s : State) (n : RN) (inst k idx : Nat) : (s.bump n inst k idx).mem = s.mem := rfl
@[simp] theorem State.bump_flt (s : State) (n : RN) (inst k idx : Nat) : (s.bump n inst k idx).flt = s.flt := rfl
@[simp] theorem State.bump_ses (s : State) (n : RN) (inst k idx : Nat) : (s.bump n inst k idx).ses = s.ses := rfl
@[simp] theorem State.bump_sch (s : State) (n : RN) (inst k idx : Nat) : (s.bump n inst k idx).sch = s.sch := rfl
@[simp] theorem State.bump_grafts (s : State) (n : RN) (inst k idx : Nat) : (s.bump n inst k idx).grafts = s.grafts := rfl
@[simp] theorem State.bump_kv (s : State) (n : RN) (inst k idx : Nat) : (s.bump n inst k idx).kv = s.kv := rfl
@[simp] theorem State.bump_intake (s : State) (n : RN) (inst k idx : Nat) : (s.bump n inst k idx).intake = s.intake := rfl
@[simp] theorem State.bump_smp (s : State) (n : RN) (inst k idx : Nat) : (s.bump n inst k idx).smp = s.smp := rfl
@[simp] theorem State.bump_tiers (s : State) (n : RN) (inst k idx : Nat) : (s.bump n inst k idx).tiers = s.tiers := rfl
@[simp] theorem State.bump_flash (s : State) (n : RN) (inst k idx : Nat) : (s.bump n inst k idx).flash = s.flash := rfl
@[simp] theorem State.bump_obs (s : State) (n : RN) (inst k idx : Nat) : (s.bump n inst k idx).obs = s.obs := rfl
@[simp] theorem State.bump_vs (s : State) (n : RN) (inst k idx : Nat) : (s.bump n inst k idx).vs = s.vs := rfl
@[simp] theorem State.bump_exp (s : State) (n : RN) (inst k idx : Nat) : (s.bump n inst k idx).exp = s.exp := rfl
@[simp] theorem State.bump_ck (s : State) (n : RN) (inst k idx : Nat) : (s.bump n inst k idx).ck = s.ck := rfl
@[simp] theorem State.bump_plw (s : State) (n : RN) (inst k idx : Nat) : (s.bump n inst k idx).plw = s.plw := rfl
@[simp] theorem State.bump_sec (s : State) (n : RN) (inst k idx : Nat) : (s.bump n inst k idx).sec = s.sec := rfl
@[simp] theorem State.bump_pow (s : State) (n : RN) (inst k idx : Nat) : (s.bump n inst k idx).pow = s.pow := rfl
@[simp] theorem State.bump_toSend (s : State) (n : RN) (inst k idx : Nat) : (s.bump n inst k idx).toSend = s.toSend := rfl
@[simp] theorem State.bump_freeCtr (s : State) (n : RN) (inst k idx : Nat) : (s.bump n inst k idx).freeCtr = s.freeCtr := rfl
@[simp] theorem State.bump_pending (s : State) (n : RN) (inst k idx : Nat) : (s.bump n inst k idx).pending = s.pending := rfl

/-! ## `State.wr64` -/

@[simp] theorem State.wr64_bus (s : State) (lo hi : RN) (x inst idx : Nat) : (s.wr64 lo hi x inst idx).bus = s.bus := rfl
@[simp] theorem State.wr64_time (s : State) (lo hi : RN) (x inst idx : Nat) : (s.wr64 lo hi x inst idx).time = s.time := rfl
@[simp] theorem State.wr64_host (s : State) (lo hi : RN) (x inst idx : Nat) : (s.wr64 lo hi x inst idx).host = s.host := rfl
@[simp] theorem State.wr64_keep (s : State) (lo hi : RN) (x inst idx : Nat) : (s.wr64 lo hi x inst idx).keep = s.keep := rfl
@[simp] theorem State.wr64_mem (s : State) (lo hi : RN) (x inst idx : Nat) : (s.wr64 lo hi x inst idx).mem = s.mem := rfl
@[simp] theorem State.wr64_flt (s : State) (lo hi : RN) (x inst idx : Nat) : (s.wr64 lo hi x inst idx).flt = s.flt := rfl
@[simp] theorem State.wr64_ses (s : State) (lo hi : RN) (x inst idx : Nat) : (s.wr64 lo hi x inst idx).ses = s.ses := rfl
@[simp] theorem State.wr64_sch (s : State) (lo hi : RN) (x inst idx : Nat) : (s.wr64 lo hi x inst idx).sch = s.sch := rfl
@[simp] theorem State.wr64_grafts (s : State) (lo hi : RN) (x inst idx : Nat) : (s.wr64 lo hi x inst idx).grafts = s.grafts := rfl
@[simp] theorem State.wr64_kv (s : State) (lo hi : RN) (x inst idx : Nat) : (s.wr64 lo hi x inst idx).kv = s.kv := rfl
@[simp] theorem State.wr64_intake (s : State) (lo hi : RN) (x inst idx : Nat) : (s.wr64 lo hi x inst idx).intake = s.intake := rfl
@[simp] theorem State.wr64_smp (s : State) (lo hi : RN) (x inst idx : Nat) : (s.wr64 lo hi x inst idx).smp = s.smp := rfl
@[simp] theorem State.wr64_tiers (s : State) (lo hi : RN) (x inst idx : Nat) : (s.wr64 lo hi x inst idx).tiers = s.tiers := rfl
@[simp] theorem State.wr64_flash (s : State) (lo hi : RN) (x inst idx : Nat) : (s.wr64 lo hi x inst idx).flash = s.flash := rfl
@[simp] theorem State.wr64_obs (s : State) (lo hi : RN) (x inst idx : Nat) : (s.wr64 lo hi x inst idx).obs = s.obs := rfl
@[simp] theorem State.wr64_vs (s : State) (lo hi : RN) (x inst idx : Nat) : (s.wr64 lo hi x inst idx).vs = s.vs := rfl
@[simp] theorem State.wr64_exp (s : State) (lo hi : RN) (x inst idx : Nat) : (s.wr64 lo hi x inst idx).exp = s.exp := rfl
@[simp] theorem State.wr64_ck (s : State) (lo hi : RN) (x inst idx : Nat) : (s.wr64 lo hi x inst idx).ck = s.ck := rfl
@[simp] theorem State.wr64_plw (s : State) (lo hi : RN) (x inst idx : Nat) : (s.wr64 lo hi x inst idx).plw = s.plw := rfl
@[simp] theorem State.wr64_sec (s : State) (lo hi : RN) (x inst idx : Nat) : (s.wr64 lo hi x inst idx).sec = s.sec := rfl
@[simp] theorem State.wr64_pow (s : State) (lo hi : RN) (x inst idx : Nat) : (s.wr64 lo hi x inst idx).pow = s.pow := rfl
@[simp] theorem State.wr64_toSend (s : State) (lo hi : RN) (x inst idx : Nat) : (s.wr64 lo hi x inst idx).toSend = s.toSend := rfl
@[simp] theorem State.wr64_freeCtr (s : State) (lo hi : RN) (x inst idx : Nat) : (s.wr64 lo hi x inst idx).freeCtr = s.freeCtr := rfl
@[simp] theorem State.wr64_pending (s : State) (lo hi : RN) (x inst idx : Nat) : (s.wr64 lo hi x inst idx).pending = s.pending := rfl

/-! ## `State.bump64` -/

@[simp] theorem State.bump64_bus (s : State) (lo hi : RN) (inst k idx : Nat) : (s.bump64 lo hi inst k idx).bus = s.bus := rfl
@[simp] theorem State.bump64_time (s : State) (lo hi : RN) (inst k idx : Nat) : (s.bump64 lo hi inst k idx).time = s.time := rfl
@[simp] theorem State.bump64_host (s : State) (lo hi : RN) (inst k idx : Nat) : (s.bump64 lo hi inst k idx).host = s.host := rfl
@[simp] theorem State.bump64_keep (s : State) (lo hi : RN) (inst k idx : Nat) : (s.bump64 lo hi inst k idx).keep = s.keep := rfl
@[simp] theorem State.bump64_mem (s : State) (lo hi : RN) (inst k idx : Nat) : (s.bump64 lo hi inst k idx).mem = s.mem := rfl
@[simp] theorem State.bump64_flt (s : State) (lo hi : RN) (inst k idx : Nat) : (s.bump64 lo hi inst k idx).flt = s.flt := rfl
@[simp] theorem State.bump64_ses (s : State) (lo hi : RN) (inst k idx : Nat) : (s.bump64 lo hi inst k idx).ses = s.ses := rfl
@[simp] theorem State.bump64_sch (s : State) (lo hi : RN) (inst k idx : Nat) : (s.bump64 lo hi inst k idx).sch = s.sch := rfl
@[simp] theorem State.bump64_grafts (s : State) (lo hi : RN) (inst k idx : Nat) : (s.bump64 lo hi inst k idx).grafts = s.grafts := rfl
@[simp] theorem State.bump64_kv (s : State) (lo hi : RN) (inst k idx : Nat) : (s.bump64 lo hi inst k idx).kv = s.kv := rfl
@[simp] theorem State.bump64_intake (s : State) (lo hi : RN) (inst k idx : Nat) : (s.bump64 lo hi inst k idx).intake = s.intake := rfl
@[simp] theorem State.bump64_smp (s : State) (lo hi : RN) (inst k idx : Nat) : (s.bump64 lo hi inst k idx).smp = s.smp := rfl
@[simp] theorem State.bump64_tiers (s : State) (lo hi : RN) (inst k idx : Nat) : (s.bump64 lo hi inst k idx).tiers = s.tiers := rfl
@[simp] theorem State.bump64_flash (s : State) (lo hi : RN) (inst k idx : Nat) : (s.bump64 lo hi inst k idx).flash = s.flash := rfl
@[simp] theorem State.bump64_obs (s : State) (lo hi : RN) (inst k idx : Nat) : (s.bump64 lo hi inst k idx).obs = s.obs := rfl
@[simp] theorem State.bump64_vs (s : State) (lo hi : RN) (inst k idx : Nat) : (s.bump64 lo hi inst k idx).vs = s.vs := rfl
@[simp] theorem State.bump64_exp (s : State) (lo hi : RN) (inst k idx : Nat) : (s.bump64 lo hi inst k idx).exp = s.exp := rfl
@[simp] theorem State.bump64_ck (s : State) (lo hi : RN) (inst k idx : Nat) : (s.bump64 lo hi inst k idx).ck = s.ck := rfl
@[simp] theorem State.bump64_plw (s : State) (lo hi : RN) (inst k idx : Nat) : (s.bump64 lo hi inst k idx).plw = s.plw := rfl
@[simp] theorem State.bump64_sec (s : State) (lo hi : RN) (inst k idx : Nat) : (s.bump64 lo hi inst k idx).sec = s.sec := rfl
@[simp] theorem State.bump64_pow (s : State) (lo hi : RN) (inst k idx : Nat) : (s.bump64 lo hi inst k idx).pow = s.pow := rfl
@[simp] theorem State.bump64_toSend (s : State) (lo hi : RN) (inst k idx : Nat) : (s.bump64 lo hi inst k idx).toSend = s.toSend := rfl
@[simp] theorem State.bump64_freeCtr (s : State) (lo hi : RN) (inst k idx : Nat) : (s.bump64 lo hi inst k idx).freeCtr = s.freeCtr := rfl
@[simp] theorem State.bump64_pending (s : State) (lo hi : RN) (inst k idx : Nat) : (s.bump64 lo hi inst k idx).pending = s.pending := rfl

/-! ## `State.msix` -/

@[simp] theorem State.msix_regs (s : State) (fn vec : Nat) : (s.msix fn vec).regs = s.regs := rfl
@[simp] theorem State.msix_time (s : State) (fn vec : Nat) : (s.msix fn vec).time = s.time := rfl
@[simp] theorem State.msix_host (s : State) (fn vec : Nat) : (s.msix fn vec).host = s.host := rfl
@[simp] theorem State.msix_keep (s : State) (fn vec : Nat) : (s.msix fn vec).keep = s.keep := rfl
@[simp] theorem State.msix_mem (s : State) (fn vec : Nat) : (s.msix fn vec).mem = s.mem := rfl
@[simp] theorem State.msix_flt (s : State) (fn vec : Nat) : (s.msix fn vec).flt = s.flt := rfl
@[simp] theorem State.msix_ses (s : State) (fn vec : Nat) : (s.msix fn vec).ses = s.ses := rfl
@[simp] theorem State.msix_sch (s : State) (fn vec : Nat) : (s.msix fn vec).sch = s.sch := rfl
@[simp] theorem State.msix_grafts (s : State) (fn vec : Nat) : (s.msix fn vec).grafts = s.grafts := rfl
@[simp] theorem State.msix_kv (s : State) (fn vec : Nat) : (s.msix fn vec).kv = s.kv := rfl
@[simp] theorem State.msix_intake (s : State) (fn vec : Nat) : (s.msix fn vec).intake = s.intake := rfl
@[simp] theorem State.msix_smp (s : State) (fn vec : Nat) : (s.msix fn vec).smp = s.smp := rfl
@[simp] theorem State.msix_tiers (s : State) (fn vec : Nat) : (s.msix fn vec).tiers = s.tiers := rfl
@[simp] theorem State.msix_flash (s : State) (fn vec : Nat) : (s.msix fn vec).flash = s.flash := rfl
@[simp] theorem State.msix_obs (s : State) (fn vec : Nat) : (s.msix fn vec).obs = s.obs := rfl
@[simp] theorem State.msix_vs (s : State) (fn vec : Nat) : (s.msix fn vec).vs = s.vs := rfl
@[simp] theorem State.msix_exp (s : State) (fn vec : Nat) : (s.msix fn vec).exp = s.exp := rfl
@[simp] theorem State.msix_ck (s : State) (fn vec : Nat) : (s.msix fn vec).ck = s.ck := rfl
@[simp] theorem State.msix_plw (s : State) (fn vec : Nat) : (s.msix fn vec).plw = s.plw := rfl
@[simp] theorem State.msix_sec (s : State) (fn vec : Nat) : (s.msix fn vec).sec = s.sec := rfl
@[simp] theorem State.msix_pow (s : State) (fn vec : Nat) : (s.msix fn vec).pow = s.pow := rfl
@[simp] theorem State.msix_toSend (s : State) (fn vec : Nat) : (s.msix fn vec).toSend = s.toSend := rfl
@[simp] theorem State.msix_freeCtr (s : State) (fn vec : Nat) : (s.msix fn vec).freeCtr = s.freeCtr := rfl
@[simp] theorem State.msix_pending (s : State) (fn vec : Nat) : (s.msix fn vec).pending = s.pending := rfl

/-! ## `State.updTime` -/

@[simp] theorem State.updTime_regs (s : State) (f : FrameTime → FrameTime) : (s.updTime f).regs = s.regs := rfl
@[simp] theorem State.updTime_bus (s : State) (f : FrameTime → FrameTime) : (s.updTime f).bus = s.bus := rfl
@[simp] theorem State.updTime_host (s : State) (f : FrameTime → FrameTime) : (s.updTime f).host = s.host := rfl
@[simp] theorem State.updTime_keep (s : State) (f : FrameTime → FrameTime) : (s.updTime f).keep = s.keep := rfl
@[simp] theorem State.updTime_mem (s : State) (f : FrameTime → FrameTime) : (s.updTime f).mem = s.mem := rfl
@[simp] theorem State.updTime_flt (s : State) (f : FrameTime → FrameTime) : (s.updTime f).flt = s.flt := rfl
@[simp] theorem State.updTime_ses (s : State) (f : FrameTime → FrameTime) : (s.updTime f).ses = s.ses := rfl
@[simp] theorem State.updTime_sch (s : State) (f : FrameTime → FrameTime) : (s.updTime f).sch = s.sch := rfl
@[simp] theorem State.updTime_grafts (s : State) (f : FrameTime → FrameTime) : (s.updTime f).grafts = s.grafts := rfl
@[simp] theorem State.updTime_kv (s : State) (f : FrameTime → FrameTime) : (s.updTime f).kv = s.kv := rfl
@[simp] theorem State.updTime_intake (s : State) (f : FrameTime → FrameTime) : (s.updTime f).intake = s.intake := rfl
@[simp] theorem State.updTime_smp (s : State) (f : FrameTime → FrameTime) : (s.updTime f).smp = s.smp := rfl
@[simp] theorem State.updTime_tiers (s : State) (f : FrameTime → FrameTime) : (s.updTime f).tiers = s.tiers := rfl
@[simp] theorem State.updTime_flash (s : State) (f : FrameTime → FrameTime) : (s.updTime f).flash = s.flash := rfl
@[simp] theorem State.updTime_obs (s : State) (f : FrameTime → FrameTime) : (s.updTime f).obs = s.obs := rfl
@[simp] theorem State.updTime_vs (s : State) (f : FrameTime → FrameTime) : (s.updTime f).vs = s.vs := rfl
@[simp] theorem State.updTime_exp (s : State) (f : FrameTime → FrameTime) : (s.updTime f).exp = s.exp := rfl
@[simp] theorem State.updTime_ck (s : State) (f : FrameTime → FrameTime) : (s.updTime f).ck = s.ck := rfl
@[simp] theorem State.updTime_plw (s : State) (f : FrameTime → FrameTime) : (s.updTime f).plw = s.plw := rfl
@[simp] theorem State.updTime_sec (s : State) (f : FrameTime → FrameTime) : (s.updTime f).sec = s.sec := rfl
@[simp] theorem State.updTime_pow (s : State) (f : FrameTime → FrameTime) : (s.updTime f).pow = s.pow := rfl
@[simp] theorem State.updTime_toSend (s : State) (f : FrameTime → FrameTime) : (s.updTime f).toSend = s.toSend := rfl
@[simp] theorem State.updTime_freeCtr (s : State) (f : FrameTime → FrameTime) : (s.updTime f).freeCtr = s.freeCtr := rfl
@[simp] theorem State.updTime_pending (s : State) (f : FrameTime → FrameTime) : (s.updTime f).pending = s.pending := rfl

/-! ## `State.updRing` -/

@[simp] theorem State.updRing_regs (s : State) (fn r : Nat) (f : Ring → Ring) : (s.updRing fn r f).regs = s.regs := rfl
@[simp] theorem State.updRing_bus (s : State) (fn r : Nat) (f : Ring → Ring) : (s.updRing fn r f).bus = s.bus := rfl
@[simp] theorem State.updRing_time (s : State) (fn r : Nat) (f : Ring → Ring) : (s.updRing fn r f).time = s.time := rfl
@[simp] theorem State.updRing_keep (s : State) (fn r : Nat) (f : Ring → Ring) : (s.updRing fn r f).keep = s.keep := rfl
@[simp] theorem State.updRing_mem (s : State) (fn r : Nat) (f : Ring → Ring) : (s.updRing fn r f).mem = s.mem := rfl
@[simp] theorem State.updRing_flt (s : State) (fn r : Nat) (f : Ring → Ring) : (s.updRing fn r f).flt = s.flt := rfl
@[simp] theorem State.updRing_ses (s : State) (fn r : Nat) (f : Ring → Ring) : (s.updRing fn r f).ses = s.ses := rfl
@[simp] theorem State.updRing_sch (s : State) (fn r : Nat) (f : Ring → Ring) : (s.updRing fn r f).sch = s.sch := rfl
@[simp] theorem State.updRing_grafts (s : State) (fn r : Nat) (f : Ring → Ring) : (s.updRing fn r f).grafts = s.grafts := rfl
@[simp] theorem State.updRing_kv (s : State) (fn r : Nat) (f : Ring → Ring) : (s.updRing fn r f).kv = s.kv := rfl
@[simp] theorem State.updRing_intake (s : State) (fn r : Nat) (f : Ring → Ring) : (s.updRing fn r f).intake = s.intake := rfl
@[simp] theorem State.updRing_smp (s : State) (fn r : Nat) (f : Ring → Ring) : (s.updRing fn r f).smp = s.smp := rfl
@[simp] theorem State.updRing_tiers (s : State) (fn r : Nat) (f : Ring → Ring) : (s.updRing fn r f).tiers = s.tiers := rfl
@[simp] theorem State.updRing_flash (s : State) (fn r : Nat) (f : Ring → Ring) : (s.updRing fn r f).flash = s.flash := rfl
@[simp] theorem State.updRing_obs (s : State) (fn r : Nat) (f : Ring → Ring) : (s.updRing fn r f).obs = s.obs := rfl
@[simp] theorem State.updRing_vs (s : State) (fn r : Nat) (f : Ring → Ring) : (s.updRing fn r f).vs = s.vs := rfl
@[simp] theorem State.updRing_exp (s : State) (fn r : Nat) (f : Ring → Ring) : (s.updRing fn r f).exp = s.exp := rfl
@[simp] theorem State.updRing_ck (s : State) (fn r : Nat) (f : Ring → Ring) : (s.updRing fn r f).ck = s.ck := rfl
@[simp] theorem State.updRing_plw (s : State) (fn r : Nat) (f : Ring → Ring) : (s.updRing fn r f).plw = s.plw := rfl
@[simp] theorem State.updRing_sec (s : State) (fn r : Nat) (f : Ring → Ring) : (s.updRing fn r f).sec = s.sec := rfl
@[simp] theorem State.updRing_pow (s : State) (fn r : Nat) (f : Ring → Ring) : (s.updRing fn r f).pow = s.pow := rfl
@[simp] theorem State.updRing_toSend (s : State) (fn r : Nat) (f : Ring → Ring) : (s.updRing fn r f).toSend = s.toSend := rfl
@[simp] theorem State.updRing_freeCtr (s : State) (fn r : Nat) (f : Ring → Ring) : (s.updRing fn r f).freeCtr = s.freeCtr := rfl
@[simp] theorem State.updRing_pending (s : State) (fn r : Nat) (f : Ring → Ring) : (s.updRing fn r f).pending = s.pending := rfl

/-! ## `State.retire` -/

@[simp] theorem State.retire_regs (s : State) (d : Desc) : (s.retire d).regs = s.regs := rfl
@[simp] theorem State.retire_bus (s : State) (d : Desc) : (s.retire d).bus = s.bus := rfl
@[simp] theorem State.retire_time (s : State) (d : Desc) : (s.retire d).time = s.time := rfl
@[simp] theorem State.retire_keep (s : State) (d : Desc) : (s.retire d).keep = s.keep := rfl
@[simp] theorem State.retire_mem (s : State) (d : Desc) : (s.retire d).mem = s.mem := rfl
@[simp] theorem State.retire_flt (s : State) (d : Desc) : (s.retire d).flt = s.flt := rfl
@[simp] theorem State.retire_ses (s : State) (d : Desc) : (s.retire d).ses = s.ses := rfl
@[simp] theorem State.retire_sch (s : State) (d : Desc) : (s.retire d).sch = s.sch := rfl
@[simp] theorem State.retire_grafts (s : State) (d : Desc) : (s.retire d).grafts = s.grafts := rfl
@[simp] theorem State.retire_kv (s : State) (d : Desc) : (s.retire d).kv = s.kv := rfl
@[simp] theorem State.retire_intake (s : State) (d : Desc) : (s.retire d).intake = s.intake := rfl
@[simp] theorem State.retire_smp (s : State) (d : Desc) : (s.retire d).smp = s.smp := rfl
@[simp] theorem State.retire_tiers (s : State) (d : Desc) : (s.retire d).tiers = s.tiers := rfl
@[simp] theorem State.retire_flash (s : State) (d : Desc) : (s.retire d).flash = s.flash := rfl
@[simp] theorem State.retire_obs (s : State) (d : Desc) : (s.retire d).obs = s.obs := rfl
@[simp] theorem State.retire_vs (s : State) (d : Desc) : (s.retire d).vs = s.vs := rfl
@[simp] theorem State.retire_exp (s : State) (d : Desc) : (s.retire d).exp = s.exp := rfl
@[simp] theorem State.retire_ck (s : State) (d : Desc) : (s.retire d).ck = s.ck := rfl
@[simp] theorem State.retire_plw (s : State) (d : Desc) : (s.retire d).plw = s.plw := rfl
@[simp] theorem State.retire_sec (s : State) (d : Desc) : (s.retire d).sec = s.sec := rfl
@[simp] theorem State.retire_pow (s : State) (d : Desc) : (s.retire d).pow = s.pow := rfl
@[simp] theorem State.retire_toSend (s : State) (d : Desc) : (s.retire d).toSend = s.toSend := rfl
@[simp] theorem State.retire_freeCtr (s : State) (d : Desc) : (s.retire d).freeCtr = s.freeCtr := rfl
@[simp] theorem State.retire_pending (s : State) (d : Desc) : (s.retire d).pending = s.pending := rfl

/-! ## `State.emit` -/

@[simp] theorem State.emit_regs (s : State) (m : OutMsg) : (s.emit m).regs = s.regs := rfl
@[simp] theorem State.emit_bus (s : State) (m : OutMsg) : (s.emit m).bus = s.bus := rfl
@[simp] theorem State.emit_time (s : State) (m : OutMsg) : (s.emit m).time = s.time := rfl
@[simp] theorem State.emit_host (s : State) (m : OutMsg) : (s.emit m).host = s.host := rfl
@[simp] theorem State.emit_keep (s : State) (m : OutMsg) : (s.emit m).keep = s.keep := rfl
@[simp] theorem State.emit_mem (s : State) (m : OutMsg) : (s.emit m).mem = s.mem := rfl
@[simp] theorem State.emit_flt (s : State) (m : OutMsg) : (s.emit m).flt = s.flt := rfl
@[simp] theorem State.emit_ses (s : State) (m : OutMsg) : (s.emit m).ses = s.ses := rfl
@[simp] theorem State.emit_sch (s : State) (m : OutMsg) : (s.emit m).sch = s.sch := rfl
@[simp] theorem State.emit_grafts (s : State) (m : OutMsg) : (s.emit m).grafts = s.grafts := rfl
@[simp] theorem State.emit_kv (s : State) (m : OutMsg) : (s.emit m).kv = s.kv := rfl
@[simp] theorem State.emit_intake (s : State) (m : OutMsg) : (s.emit m).intake = s.intake := rfl
@[simp] theorem State.emit_smp (s : State) (m : OutMsg) : (s.emit m).smp = s.smp := rfl
@[simp] theorem State.emit_tiers (s : State) (m : OutMsg) : (s.emit m).tiers = s.tiers := rfl
@[simp] theorem State.emit_flash (s : State) (m : OutMsg) : (s.emit m).flash = s.flash := rfl
@[simp] theorem State.emit_obs (s : State) (m : OutMsg) : (s.emit m).obs = s.obs := rfl
@[simp] theorem State.emit_vs (s : State) (m : OutMsg) : (s.emit m).vs = s.vs := rfl
@[simp] theorem State.emit_exp (s : State) (m : OutMsg) : (s.emit m).exp = s.exp := rfl
@[simp] theorem State.emit_ck (s : State) (m : OutMsg) : (s.emit m).ck = s.ck := rfl
@[simp] theorem State.emit_plw (s : State) (m : OutMsg) : (s.emit m).plw = s.plw := rfl
@[simp] theorem State.emit_sec (s : State) (m : OutMsg) : (s.emit m).sec = s.sec := rfl
@[simp] theorem State.emit_pow (s : State) (m : OutMsg) : (s.emit m).pow = s.pow := rfl
@[simp] theorem State.emit_freeCtr (s : State) (m : OutMsg) : (s.emit m).freeCtr = s.freeCtr := rfl
@[simp] theorem State.emit_pending (s : State) (m : OutMsg) : (s.emit m).pending = s.pending := rfl

/-! ## `State.submit` -/

@[simp] theorem State.submit_regs (s : State) (i : KeepItem) : (s.submit i).regs = s.regs := rfl
@[simp] theorem State.submit_bus (s : State) (i : KeepItem) : (s.submit i).bus = s.bus := rfl
@[simp] theorem State.submit_time (s : State) (i : KeepItem) : (s.submit i).time = s.time := rfl
@[simp] theorem State.submit_host (s : State) (i : KeepItem) : (s.submit i).host = s.host := rfl
@[simp] theorem State.submit_mem (s : State) (i : KeepItem) : (s.submit i).mem = s.mem := rfl
@[simp] theorem State.submit_flt (s : State) (i : KeepItem) : (s.submit i).flt = s.flt := rfl
@[simp] theorem State.submit_ses (s : State) (i : KeepItem) : (s.submit i).ses = s.ses := rfl
@[simp] theorem State.submit_sch (s : State) (i : KeepItem) : (s.submit i).sch = s.sch := rfl
@[simp] theorem State.submit_grafts (s : State) (i : KeepItem) : (s.submit i).grafts = s.grafts := rfl
@[simp] theorem State.submit_kv (s : State) (i : KeepItem) : (s.submit i).kv = s.kv := rfl
@[simp] theorem State.submit_intake (s : State) (i : KeepItem) : (s.submit i).intake = s.intake := rfl
@[simp] theorem State.submit_smp (s : State) (i : KeepItem) : (s.submit i).smp = s.smp := rfl
@[simp] theorem State.submit_tiers (s : State) (i : KeepItem) : (s.submit i).tiers = s.tiers := rfl
@[simp] theorem State.submit_flash (s : State) (i : KeepItem) : (s.submit i).flash = s.flash := rfl
@[simp] theorem State.submit_obs (s : State) (i : KeepItem) : (s.submit i).obs = s.obs := rfl
@[simp] theorem State.submit_vs (s : State) (i : KeepItem) : (s.submit i).vs = s.vs := rfl
@[simp] theorem State.submit_exp (s : State) (i : KeepItem) : (s.submit i).exp = s.exp := rfl
@[simp] theorem State.submit_ck (s : State) (i : KeepItem) : (s.submit i).ck = s.ck := rfl
@[simp] theorem State.submit_plw (s : State) (i : KeepItem) : (s.submit i).plw = s.plw := rfl
@[simp] theorem State.submit_sec (s : State) (i : KeepItem) : (s.submit i).sec = s.sec := rfl
@[simp] theorem State.submit_pow (s : State) (i : KeepItem) : (s.submit i).pow = s.pow := rfl
@[simp] theorem State.submit_toSend (s : State) (i : KeepItem) : (s.submit i).toSend = s.toSend := rfl
@[simp] theorem State.submit_freeCtr (s : State) (i : KeepItem) : (s.submit i).freeCtr = s.freeCtr := rfl
@[simp] theorem State.submit_pending (s : State) (i : KeepItem) : (s.submit i).pending = s.pending := rfl

/-! ## `State.answerRead` -/

@[simp] theorem State.answerRead_regs (s : State) (v : W32) : (s.answerRead v).regs = s.regs := rfl
@[simp] theorem State.answerRead_time (s : State) (v : W32) : (s.answerRead v).time = s.time := rfl
@[simp] theorem State.answerRead_host (s : State) (v : W32) : (s.answerRead v).host = s.host := rfl
@[simp] theorem State.answerRead_keep (s : State) (v : W32) : (s.answerRead v).keep = s.keep := rfl
@[simp] theorem State.answerRead_mem (s : State) (v : W32) : (s.answerRead v).mem = s.mem := rfl
@[simp] theorem State.answerRead_flt (s : State) (v : W32) : (s.answerRead v).flt = s.flt := rfl
@[simp] theorem State.answerRead_ses (s : State) (v : W32) : (s.answerRead v).ses = s.ses := rfl
@[simp] theorem State.answerRead_sch (s : State) (v : W32) : (s.answerRead v).sch = s.sch := rfl
@[simp] theorem State.answerRead_grafts (s : State) (v : W32) : (s.answerRead v).grafts = s.grafts := rfl
@[simp] theorem State.answerRead_kv (s : State) (v : W32) : (s.answerRead v).kv = s.kv := rfl
@[simp] theorem State.answerRead_intake (s : State) (v : W32) : (s.answerRead v).intake = s.intake := rfl
@[simp] theorem State.answerRead_smp (s : State) (v : W32) : (s.answerRead v).smp = s.smp := rfl
@[simp] theorem State.answerRead_tiers (s : State) (v : W32) : (s.answerRead v).tiers = s.tiers := rfl
@[simp] theorem State.answerRead_flash (s : State) (v : W32) : (s.answerRead v).flash = s.flash := rfl
@[simp] theorem State.answerRead_obs (s : State) (v : W32) : (s.answerRead v).obs = s.obs := rfl
@[simp] theorem State.answerRead_vs (s : State) (v : W32) : (s.answerRead v).vs = s.vs := rfl
@[simp] theorem State.answerRead_exp (s : State) (v : W32) : (s.answerRead v).exp = s.exp := rfl
@[simp] theorem State.answerRead_ck (s : State) (v : W32) : (s.answerRead v).ck = s.ck := rfl
@[simp] theorem State.answerRead_plw (s : State) (v : W32) : (s.answerRead v).plw = s.plw := rfl
@[simp] theorem State.answerRead_sec (s : State) (v : W32) : (s.answerRead v).sec = s.sec := rfl
@[simp] theorem State.answerRead_pow (s : State) (v : W32) : (s.answerRead v).pow = s.pow := rfl
@[simp] theorem State.answerRead_toSend (s : State) (v : W32) : (s.answerRead v).toSend = s.toSend := rfl
@[simp] theorem State.answerRead_freeCtr (s : State) (v : W32) : (s.answerRead v).freeCtr = s.freeCtr := rfl
@[simp] theorem State.answerRead_pending (s : State) (v : W32) : (s.answerRead v).pending = s.pending := rfl

/-! ## `State.setLatch` -/

@[simp] theorem State.setLatch_regs (s : State) (k : PairKey) (v : Option W32) : (s.setLatch k v).regs = s.regs := rfl
@[simp] theorem State.setLatch_time (s : State) (k : PairKey) (v : Option W32) : (s.setLatch k v).time = s.time := rfl
@[simp] theorem State.setLatch_host (s : State) (k : PairKey) (v : Option W32) : (s.setLatch k v).host = s.host := rfl
@[simp] theorem State.setLatch_keep (s : State) (k : PairKey) (v : Option W32) : (s.setLatch k v).keep = s.keep := rfl
@[simp] theorem State.setLatch_mem (s : State) (k : PairKey) (v : Option W32) : (s.setLatch k v).mem = s.mem := rfl
@[simp] theorem State.setLatch_flt (s : State) (k : PairKey) (v : Option W32) : (s.setLatch k v).flt = s.flt := rfl
@[simp] theorem State.setLatch_ses (s : State) (k : PairKey) (v : Option W32) : (s.setLatch k v).ses = s.ses := rfl
@[simp] theorem State.setLatch_sch (s : State) (k : PairKey) (v : Option W32) : (s.setLatch k v).sch = s.sch := rfl
@[simp] theorem State.setLatch_grafts (s : State) (k : PairKey) (v : Option W32) : (s.setLatch k v).grafts = s.grafts := rfl
@[simp] theorem State.setLatch_kv (s : State) (k : PairKey) (v : Option W32) : (s.setLatch k v).kv = s.kv := rfl
@[simp] theorem State.setLatch_intake (s : State) (k : PairKey) (v : Option W32) : (s.setLatch k v).intake = s.intake := rfl
@[simp] theorem State.setLatch_smp (s : State) (k : PairKey) (v : Option W32) : (s.setLatch k v).smp = s.smp := rfl
@[simp] theorem State.setLatch_tiers (s : State) (k : PairKey) (v : Option W32) : (s.setLatch k v).tiers = s.tiers := rfl
@[simp] theorem State.setLatch_flash (s : State) (k : PairKey) (v : Option W32) : (s.setLatch k v).flash = s.flash := rfl
@[simp] theorem State.setLatch_obs (s : State) (k : PairKey) (v : Option W32) : (s.setLatch k v).obs = s.obs := rfl
@[simp] theorem State.setLatch_vs (s : State) (k : PairKey) (v : Option W32) : (s.setLatch k v).vs = s.vs := rfl
@[simp] theorem State.setLatch_exp (s : State) (k : PairKey) (v : Option W32) : (s.setLatch k v).exp = s.exp := rfl
@[simp] theorem State.setLatch_ck (s : State) (k : PairKey) (v : Option W32) : (s.setLatch k v).ck = s.ck := rfl
@[simp] theorem State.setLatch_plw (s : State) (k : PairKey) (v : Option W32) : (s.setLatch k v).plw = s.plw := rfl
@[simp] theorem State.setLatch_sec (s : State) (k : PairKey) (v : Option W32) : (s.setLatch k v).sec = s.sec := rfl
@[simp] theorem State.setLatch_pow (s : State) (k : PairKey) (v : Option W32) : (s.setLatch k v).pow = s.pow := rfl
@[simp] theorem State.setLatch_toSend (s : State) (k : PairKey) (v : Option W32) : (s.setLatch k v).toSend = s.toSend := rfl
@[simp] theorem State.setLatch_freeCtr (s : State) (k : PairKey) (v : Option W32) : (s.setLatch k v).freeCtr = s.freeCtr := rfl
@[simp] theorem State.setLatch_pending (s : State) (k : PairKey) (v : Option W32) : (s.setLatch k v).pending = s.pending := rfl

/-! ## `State.setHeld` -/

@[simp] theorem State.setHeld_regs (s : State) (k : PairKey) (v : Option W32) : (s.setHeld k v).regs = s.regs := rfl
@[simp] theorem State.setHeld_time (s : State) (k : PairKey) (v : Option W32) : (s.setHeld k v).time = s.time := rfl
@[simp] theorem State.setHeld_host (s : State) (k : PairKey) (v : Option W32) : (s.setHeld k v).host = s.host := rfl
@[simp] theorem State.setHeld_keep (s : State) (k : PairKey) (v : Option W32) : (s.setHeld k v).keep = s.keep := rfl
@[simp] theorem State.setHeld_mem (s : State) (k : PairKey) (v : Option W32) : (s.setHeld k v).mem = s.mem := rfl
@[simp] theorem State.setHeld_flt (s : State) (k : PairKey) (v : Option W32) : (s.setHeld k v).flt = s.flt := rfl
@[simp] theorem State.setHeld_ses (s : State) (k : PairKey) (v : Option W32) : (s.setHeld k v).ses = s.ses := rfl
@[simp] theorem State.setHeld_sch (s : State) (k : PairKey) (v : Option W32) : (s.setHeld k v).sch = s.sch := rfl
@[simp] theorem State.setHeld_grafts (s : State) (k : PairKey) (v : Option W32) : (s.setHeld k v).grafts = s.grafts := rfl
@[simp] theorem State.setHeld_kv (s : State) (k : PairKey) (v : Option W32) : (s.setHeld k v).kv = s.kv := rfl
@[simp] theorem State.setHeld_intake (s : State) (k : PairKey) (v : Option W32) : (s.setHeld k v).intake = s.intake := rfl
@[simp] theorem State.setHeld_smp (s : State) (k : PairKey) (v : Option W32) : (s.setHeld k v).smp = s.smp := rfl
@[simp] theorem State.setHeld_tiers (s : State) (k : PairKey) (v : Option W32) : (s.setHeld k v).tiers = s.tiers := rfl
@[simp] theorem State.setHeld_flash (s : State) (k : PairKey) (v : Option W32) : (s.setHeld k v).flash = s.flash := rfl
@[simp] theorem State.setHeld_obs (s : State) (k : PairKey) (v : Option W32) : (s.setHeld k v).obs = s.obs := rfl
@[simp] theorem State.setHeld_vs (s : State) (k : PairKey) (v : Option W32) : (s.setHeld k v).vs = s.vs := rfl
@[simp] theorem State.setHeld_exp (s : State) (k : PairKey) (v : Option W32) : (s.setHeld k v).exp = s.exp := rfl
@[simp] theorem State.setHeld_ck (s : State) (k : PairKey) (v : Option W32) : (s.setHeld k v).ck = s.ck := rfl
@[simp] theorem State.setHeld_plw (s : State) (k : PairKey) (v : Option W32) : (s.setHeld k v).plw = s.plw := rfl
@[simp] theorem State.setHeld_sec (s : State) (k : PairKey) (v : Option W32) : (s.setHeld k v).sec = s.sec := rfl
@[simp] theorem State.setHeld_pow (s : State) (k : PairKey) (v : Option W32) : (s.setHeld k v).pow = s.pow := rfl
@[simp] theorem State.setHeld_toSend (s : State) (k : PairKey) (v : Option W32) : (s.setHeld k v).toSend = s.toSend := rfl
@[simp] theorem State.setHeld_freeCtr (s : State) (k : PairKey) (v : Option W32) : (s.setHeld k v).freeCtr = s.freeCtr := rfl
@[simp] theorem State.setHeld_pending (s : State) (k : PairKey) (v : Option W32) : (s.setHeld k v).pending = s.pending := rfl

end Sys2Proof.Machine
end

