-- ==== Sys2Proof/Laws/Ops.lean ====
section
/-! SUPPORT. What the shared operations do: registers and their fields read what was set, a status bit changes registers and messages to
the host alone, a trace record changes registers, messages and the trace alone, and a command that may run runs its body. -/

namespace Sys2Proof.Machine

/-! ## Registers -/

/-- A register reads what was written, and every other one what it read before. -/
theorem State.rd_wr (s : State) (r q : Reg) (v : W32) : (s.wr r v).rd q = if q = r then v else s.rd q := by
  by_cases h : q = r
  · subst h; simp [State.rd, State.wr]
  · simp [State.rd, State.wr, Table.get_set_other _ _ _ _ h, h]

@[simp] theorem State.rd_wr_self (s : State) (r : Reg) (v : W32) : (s.wr r v).rd r = v := by simp [State.rd_wr]

theorem State.rd_wr_other (s : State) {r q : Reg} (v : W32) (h : q ≠ r) : (s.wr r v).rd q = s.rd q := by
  simp [State.rd_wr, h]

/-- Registers read alike in two states with the same register list. -/
theorem State.rd_congr {s t : State} (h : s.regs = t.regs) (r : Reg) : s.rd r = t.rd r := by simp [State.rd, h]

/-- Fields read alike in two states with the same register list. -/
theorem State.fget_congr {s t : State} (h : s.regs = t.regs) (f : Fld) (inst idx : Nat) :
    s.fget f inst idx = t.fget f inst idx := by simp [State.fget, State.rd_congr h]

/-! ## Fields -/

/-- The bits of a field's mask. -/
theorem Fld.mask_bit (f : Fld) (hf : f.lo ≤ f.hi) (i : Nat) (hi : i < 32) :
    f.mask.getLsbD i = (decide (f.lo ≤ i) && decide (i ≤ f.hi)) := by
  unfold Fld.mask
  rw [BitVec.getLsbD_ofNat, Nat.mul_comm, Nat.testBit_two_pow_mul, Nat.testBit_two_pow_sub_one]
  by_cases h : f.lo ≤ i
  · have : (i - f.lo < f.hi - f.lo + 1) = (i ≤ f.hi) := by simp; omega
    simp [h, hi, this]
  · simp [h, hi]

/-- A field reads what was put into it. -/
theorem Fld.get_put (f : Fld) (hf : f.lo ≤ f.hi) (h32 : f.hi < 32) (v : W32) (x : Nat) (hx : x < 2 ^ (f.hi - f.lo + 1)) :
    f.get (f.put v x) = x := by
  have hx32 : x < 2 ^ 32 := Nat.lt_of_lt_of_le hx (Nat.pow_le_pow_right (by omega) (by omega))
  have : (f.put v x &&& f.mask) >>> f.lo = BitVec.ofNat 32 x := by
    apply BitVec.eq_of_getLsbD_eq
    intro i hi
    rw [BitVec.getLsbD_ushiftRight, BitVec.getLsbD_and, BitVec.getLsbD_ofNat]
    by_cases hb : f.lo + i < 32
    · rw [Fld.put, BitVec.getLsbD_or, BitVec.getLsbD_and, BitVec.getLsbD_and, BitVec.getLsbD_not, BitVec.getLsbD_shiftLeft,
        Fld.mask_bit f hf _ hb, BitVec.getLsbD_ofNat]
      by_cases hw : f.lo + i ≤ f.hi
      · simp [hb, hw, hi]
      · have : x.testBit i = false := Nat.testBit_lt_two_pow (Nat.lt_of_lt_of_le hx (Nat.pow_le_pow_right (by omega) (by omega)))
        simp [hw, this]
    · have : x.testBit i = false := Nat.testBit_lt_two_pow (Nat.lt_of_lt_of_le hx (Nat.pow_le_pow_right (by omega) (by omega)))
      rw [BitVec.getLsbD_of_ge _ _ (by omega), this]
      simp
  unfold Fld.get
  rw [this, BitVec.toNat_ofNat, Nat.mod_eq_of_lt hx32]

/-- Putting a value into a field leaves a field of other bits. -/
theorem Fld.get_put_other (f g : Fld) (hd : f.mask &&& g.mask = 0) (v : W32) (x : Nat) : g.get (f.put v x) = g.get v := by
  have : f.put v x &&& g.mask = v &&& g.mask := by
    apply BitVec.eq_of_getLsbD_eq
    intro i hi
    have hbit : (f.mask.getLsbD i && g.mask.getLsbD i) = false := by rw [← BitVec.getLsbD_and, hd]; simp
    simp only [Fld.put, BitVec.getLsbD_and, BitVec.getLsbD_or, BitVec.getLsbD_not, hi, decide_true, Bool.true_and]
    cases hf : f.mask.getLsbD i <;> cases hg : g.mask.getLsbD i <;> simp_all
  unfold Fld.get
  rw [this]

/-- A field reads what was set. -/
theorem State.fget_fset_self (s : State) (f : Fld) (x inst idx : Nat) (hf : f.lo ≤ f.hi) (h32 : f.hi < 32)
    (hx : x < 2 ^ (f.hi - f.lo + 1)) : (s.fset f x inst idx).fget f inst idx = x := by
  simp [State.fget, State.fset, Fld.get_put f hf h32 _ x hx]

/-- Setting a field leaves the fields of other registers. -/
theorem State.fget_fset_reg (s : State) (f g : Fld) (x i j k l : Nat) (h : (⟨g.reg, k, l⟩ : Reg) ≠ ⟨f.reg, i, j⟩) :
    (s.fset f x i j).fget g k l = s.fget g k l := by
  simp [State.fget, State.fset, State.rd_wr_other _ _ h]

/-- Setting a field leaves the other fields of its register. -/
theorem State.fget_fset_other (s : State) (f g : Fld) (x i j : Nat) (hr : f.reg = g.reg) (hd : f.mask &&& g.mask = 0) :
    (s.fset f x i j).fget g i j = s.fget g i j := by
  simp [State.fget, State.fset, hr, Fld.get_put_other f g hd]

/-- A register other than that of a field is left by setting it. -/
theorem State.rd_fset_other (s : State) (f : Fld) (x i j : Nat) (r : Reg) (h : r ≠ ⟨f.reg, i, j⟩) :
    (s.fset f x i j).rd r = s.rd r := by simp [State.fset, State.rd_wr_other _ _ h]

/-! ## Status bits and messages to the host -/

/-- A companion counter is a register. -/
theorem State.coalesce_shape (s : State) (r : Reg) : ∃ g, s.coalesce r = { s with regs := g } := by
  unfold State.coalesce
  split
  · exact ⟨_, rfl⟩
  · exact ⟨s.regs, rfl⟩

/-- Setting a bit of a status register changes registers alone. -/
theorem State.statusBit_shape (s : State) (r : Reg) (n : Nat) : ∃ g, s.statusBit r n = { s with regs := g } := by
  unfold State.statusBit
  obtain ⟨g, h⟩ := s.coalesce_shape r
  by_cases hb : (s.rd r).getLsbD n = true
  · simp only [hb, if_true, h]; exact ⟨_, rfl⟩
  · simp only [hb]; exact ⟨_, rfl⟩

/-- An interface interrupt changes registers and what was sent to the host. -/
theorem State.ifInt_shape (s : State) (fn n : Nat) : ∃ g b, s.ifInt fn n = { s with regs := g, bus := b } := by
  unfold State.ifInt
  obtain ⟨g, h⟩ := s.statusBit_shape ⟨.IF_INT_STATUS, fn, 0⟩ n
  simp only [h]
  split
  · exact ⟨_, _, rfl⟩
  · exact ⟨g, s.bus, rfl⟩

/-- A status bit changes registers and what was sent to the host (R82). -/
theorem State.setStatus_shape (s : State) (f : Fld) (inst k : Nat) :
    ∃ g b, s.setStatus f inst k = { s with regs := g, bus := b } := by
  unfold State.setStatus State.raised
  obtain ⟨g, h⟩ := s.statusBit_shape ⟨f.reg, inst, 0⟩ (f.lo + k)
  simp only [h]
  split
  · obtain ⟨g', b', h'⟩ := State.ifInt_shape { s with regs := g } ‹Nat› 17
    exact ⟨g', b', h'⟩
  · split
    · split
      · exact ⟨_, _, rfl⟩
      · exact ⟨g, s.bus, rfl⟩
    · split
      · exact ⟨_, _, rfl⟩
      · exact ⟨g, s.bus, rfl⟩
    · exact ⟨g, s.bus, rfl⟩

/-- A record lost from a trace ring changes registers, messages to the host and the trace. -/
theorem State.traceLose_shape (s : State) (ft : W64) (fn : Nat) :
    ∃ g b o, s.traceLose ft fn = { s with regs := g, bus := b, obs := o } := by
  unfold State.traceLose
  obtain ⟨g, b, h⟩ := State.setStatus_shape (s.wr ⟨.TRC_LOST, fn, 0⟩ (satInc (s.rd ⟨.TRC_LOST, fn, 0⟩))) F.TRC_STATUS_LOST fn 0
  simp only [h]
  exact ⟨_, _, _, rfl⟩

/-- A fold of steps, each of which changes registers, messages to the host and the trace, changes nothing else. -/
theorem State.foldl_obs_shape {α : Type} (f : State → α → State)
    (hf : ∀ s a, ∃ g b o, f s a = { s with regs := g, bus := b, obs := o }) (l : List α) (s : State) :
    ∃ g b o, l.foldl f s = { s with regs := g, bus := b, obs := o } := by
  induction l generalizing s with
  | nil => exact ⟨s.regs, s.bus, s.obs, rfl⟩
  | cons a r ih =>
    obtain ⟨g, b, o, h⟩ := hf s a
    obtain ⟨g', b', o', h'⟩ := ih (f s a)
    exact ⟨g', b', o', by rw [List.foldl_cons, h', h]⟩

/-- Staging a trace record changes registers, messages to the host and the trace (R486, R487). -/
theorem State.trace_shape (s : State) (bit kind origin index : Nat) (at_ : Site) (bed : Option Nat) (subject : Nat)
    (tail : List Byte) :
    ∃ g b o, s.trace bit kind origin index at_ bed subject tail = { s with regs := g, bus := b, obs := o } := by
  unfold State.trace
  split
  · exact ⟨s.regs, s.bus, s.obs, rfl⟩
  · simp only
    split
    · exact ⟨s.regs, s.bus, _, rfl⟩
    · apply State.foldl_obs_shape
      intro s fn
      obtain ⟨g, b, h⟩ := s.setStatus_shape F.TRC_STATUS_STAGING_FULL fn 0
      obtain ⟨g', b', o', h'⟩ := State.traceLose_shape (s.setStatus F.TRC_STATUS_STAGING_FULL fn) _ fn
      exact ⟨g', b', o', h'.trans (by rw [h])⟩

/-- A change made once per element of a list keeps what each one keeps. -/
theorem foldl_keeps {σ α : Type} (P : σ → Prop) (f : σ → α → σ) (hf : ∀ s x, P s → P (f s x)) :
    ∀ (l : List α) (s : σ), P s → P (l.foldl f s)
  | [], _, h => h
  | x :: l, s, h => foldl_keeps P f hf l (f s x) (hf s x h)

/-- A region that restarts its clock changes registers (R32). -/
theorem State.clockRestart_shape (s : State) (r : Nat) : ∃ g, s.clockRestart r = { s with regs := g } := by
  unfold State.clockRestart
  split
  · exact ⟨s.regs, rfl⟩
  · exact ⟨_, rfl⟩

/-- A translation fault changes registers and what was sent to the host. -/
theorem State.xlateFault_shape (s : State) (bed va : Nat) : ∃ g b, s.xlateFault bed va = { s with regs := g, bus := b } := by
  simp only [State.xlateFault]
  split
  · exact State.setStatus_shape (s.wr64 .KV_FAULT_VA_LO .KV_FAULT_VA_HI (va % 2 ^ 48) bed) _ _ _
  · exact State.setStatus_shape s _ _ _

/-- A state that differs in registers, messages to the host and the walkers' caches alone. -/
def State.Walked (s t : State) : Prop := ∃ g b k, t = { s with regs := g, bus := b, kv := { s.kv with walkers := k } }

theorem State.Walked.refl (s : State) : s.Walked s := ⟨s.regs, s.bus, s.kv.walkers, rfl⟩

theorem State.Walked.trans {s t u : State} (h : s.Walked t) (h' : t.Walked u) : s.Walked u := by
  obtain ⟨g, b, k, rfl⟩ := h
  obtain ⟨g', b', k', rfl⟩ := h'
  exact ⟨g', b', k', rfl⟩

theorem State.walked_shape (s : State) (r hits misses : Nat) :
    s.walked r hits misses = { s with regs := (s.walked r hits misses).regs } := rfl

theorem State.walkBuffer_shape (s : State) (bed va : Nat) : s.Walked (s.walkBuffer bed va) := by
  unfold State.walkBuffer
  generalize hk : (bed, va / s.granule bed) = k
  simp only
  split
  · exact ⟨_, s.bus, s.kv.walkers, State.walked_shape s _ 1 0⟩
  · split
    · exact ⟨_, s.bus, s.kv.walkers, State.walked_shape s _ 0 1⟩
    · exact ⟨_, s.bus, _, State.walked_shape (s.updWalker _ _) _ 0 1⟩

theorem State.bufReach_shape (s : State) (bed va : Nat) : s.Walked (s.bufReach bed va) := by
  unfold State.bufReach
  split
  · obtain ⟨g, h⟩ := s.clockRestart_shape (paRegion ‹Nat›)
    exact ⟨g, s.bus, s.kv.walkers, h⟩
  · exact State.Walked.refl s

/-- An access to buffer space, its data apart, changes registers, messages to the host and the walkers' caches (R206, R224). -/
theorem State.bufTouch_shape (s : State) (bed va len : Nat) : s.Walked (s.bufTouch bed va len) := by
  have walk : s.Walked ((s.pieces bed va len).foldl (fun s p => (s.walkBuffer bed p.1).bufReach bed p.1) s) :=
    foldl_keeps (fun t : State => s.Walked t) _
      (fun t p h => (h.trans (t.walkBuffer_shape bed p.1)).trans ((t.walkBuffer bed p.1).bufReach_shape bed p.1)) _ s
      (State.Walked.refl s)
  unfold State.bufTouch
  simp only
  split
  · obtain ⟨g, b, h⟩ := State.xlateFault_shape
      ((s.pieces bed va len).foldl (fun s p => (s.walkBuffer bed p.1).bufReach bed p.1) s) bed (‹Nat × Nat›).1
    exact walk.trans ⟨g, b, _, h⟩
  · exact walk

theorem State.touchAddr_shape (s : State) (d : Desc) (addr : W64) (n : Nat) : s.Walked (s.touchAddr d addr n) := by
  unfold State.touchAddr
  split
  · exact s.bufTouch_shape _ _ _
  · exact State.Walked.refl s

/-- Reading a command's inputs changes no more than that. -/
theorem State.touchInputs_shape (s : State) (d : Desc) : s.Walked (s.touchInputs d) :=
  foldl_keeps (fun t : State => s.Walked t) _ (fun t r h => h.trans (t.touchAddr_shape d r.1 r.2)) _ s (State.Walked.refl s)

/-- A directory lookup changes registers and draws at most one free value (R32). -/
theorem State.dirReach_shape (s : State) (sid : W64) : ∃ g c, s.dirReach sid = { s with regs := g, freeCtr := c } := by
  unfold State.dirReach
  simp only
  split
  · exact ⟨s.regs, s.freeCtr, rfl⟩
  · split
    · exact ⟨s.regs, _, rfl⟩
    · obtain ⟨g, h⟩ := State.clockRestart_shape (s.draw 104).2 (dirRegion sid)
      exact ⟨g, _, h⟩

/-- A descriptor that starts changes what is in flight, registers, messages to the host, the trace, the walkers' caches and the
count of free values (R32, R206, R481). -/
theorem State.start_shape (s : State) (d : Desc) :
    ∃ g b o h k c, s.start d =
      { s with regs := g, bus := b, obs := o, host := h, kv := { s.kv with walkers := k }, freeCtr := c } := by
  have traced : ∃ g b o, (if s.running d && !s.begun d then s.traceCmd d 1 0 else s) = { s with regs := g, bus := b, obs := o } := by
    split
    · exact s.trace_shape 0 1 5 (dFn d) .hub (dBed d) d.opcode.toNat _
    · exact ⟨s.regs, s.bus, s.obs, rfl⟩
  obtain ⟨g, b, o, h⟩ := traced
  have looked : ∃ g' c, (if d.target = 0 || dSlot d || d.opcode.toNat / 256 = 0 then ({ s with regs := g, bus := b, obs := o } : State) else
      State.dirReach { s with regs := g, bus := b, obs := o } d.target) = { s with regs := g', bus := b, obs := o, freeCtr := c } := by
    split
    · exact ⟨g, s.freeCtr, rfl⟩
    · obtain ⟨g', c, h'⟩ := State.dirReach_shape { s with regs := g, bus := b, obs := o } d.target
      exact ⟨g', c, h'⟩
  obtain ⟨g', c, h'⟩ := looked
  obtain ⟨g'', b'', k, h''⟩ := State.touchInputs_shape { s with regs := g', bus := b, obs := o, freeCtr := c } d
  unfold State.start
  simp only [h]
  rw [h', h'']
  exact ⟨g'', b'', o, _, k, c, rfl⟩

/-- What a command sees of the state once it has started. -/
theorem State.start_fields (s : State) (d : Desc) :
    (s.start d).time = s.time ∧ (s.start d).keep = s.keep ∧ (s.start d).mem = s.mem ∧ (s.start d).flt = s.flt ∧
    (s.start d).ses = s.ses ∧ (s.start d).sch = s.sch ∧ (s.start d).grafts = s.grafts ∧ (s.start d).kv.seqs = s.kv.seqs ∧
    (s.start d).kv.nodes = s.kv.nodes ∧ (s.start d).kv.snaps = s.kv.snaps ∧ (s.start d).kv.pfxOn = s.kv.pfxOn ∧
    (s.start d).intake = s.intake ∧ (s.start d).smp = s.smp ∧ (s.start d).tiers = s.tiers ∧
    (s.start d).flash = s.flash ∧ (s.start d).vs = s.vs ∧ (s.start d).exp = s.exp ∧ (s.start d).ck = s.ck ∧
    (s.start d).plw = s.plw ∧ (s.start d).sec = s.sec ∧ (s.start d).pow = s.pow ∧ (s.start d).toSend = s.toSend ∧
    (s.start d).pending = s.pending := by
  obtain ⟨g, b, o, h, k, c, e⟩ := s.start_shape d
  simp [e]

/-! ## Commands -/

/-- A command that may run runs its body on the state in which it has started. -/
theorem State.runCmd_runs (s : State) (d : Desc) (f : State → State) (h : s.mayRun d = true) :
    s.runCmd d f = f (s.start d) := by
  simp only [State.mayRun, State.active, Bool.and_eq_true, Bool.not_eq_true'] at h
  obtain ⟨⟨⟨⟨⟨⟨-, hs⟩, -⟩, hb⟩, hf⟩, hm⟩, hp⟩ := h
  unfold State.runCmd
  rw [hs, hb, hf, hm, hp]
  rfl

/-- The row of an opcode whose command may run. -/
theorem State.command_runs (s : State) (d : Desc) (f : State → State) (h : s.mayRun d = true) :
    s.command d f = s.apart fun s => f (s.start d) := by
  have hp : s.powered = true := by
    simp only [State.mayRun, State.active, Bool.and_eq_true] at h
    exact h.1.1.1.1.1.1
  simp only [State.command, State.awake, State.apart, hp, if_true, State.runCmd_runs s d f h]

/-- Two effects that give the same state give the same state apart from the queue. -/
theorem State.apart_congr {s : State} {f g : State → State} (h : f s = g s) : s.apart f = s.apart g := by
  simp only [State.apart, h]

/-- An effect that leaves the queue is itself. -/
theorem State.apart_eq {s t : State} {f : State → State} (h : f s = t) (hp : t.pending = s.pending) : s.apart f = t := by
  subst h
  simp only [State.apart, ← hp]

/-- What an active device does. -/
theorem State.live_runs (s : State) (f : State → State) (h : s.active = true) : s.live f = s.apart f := by
  simp only [State.active] at h
  simp [State.live, h]

theorem State.awake_runs (s : State) (f : State → State) (h : s.active = true) : s.awake f = s.apart f := by
  simp only [State.active, Bool.and_eq_true] at h
  simp [State.awake, h.1]

theorem State.active_safe (s : State) (h : s.active = true) : s.flt.safe = false := by
  simp only [State.active, Bool.and_eq_true, Bool.not_eq_true'] at h
  exact h.2

/-- An active device runs what a host write does. -/
theorem State.hostWrite_runs (s : State) (f : State → State) (h : s.active = true) : s.hostWrite f = f s := by
  simp [State.hostWrite, s.active_safe h]

/-! ## The queue -/

/-- Nothing but the queue is what an effect apart from it may not change. -/
@[simp] theorem State.apart_pending (s : State) (f : State → State) : (s.apart f).pending = s.pending := rfl

theorem State.awake_pending (s : State) (f : State → State) : (s.awake f).pending = s.pending := by
  unfold State.awake; split <;> rfl

theorem State.live_pending (s : State) (f : State → State) : (s.live f).pending = s.pending := by
  unfold State.live; split <;> rfl

theorem State.supplied_pending (s : State) (f : State → State) : (s.supplied f).pending = s.pending := by
  unfold State.supplied; split <;> rfl

theorem State.command_pending (s : State) (d : Desc) (f : State → State) : (s.command d f).pending = s.pending :=
  State.awake_pending _ _

end Sys2Proof.Machine
end

