-- ==== Sys2Proof/Laws/Memory.lean ====
section
/-! SUPPORT. Every operation that writes memory keeps the canonical form, changes only the memory that it names, and leaves every byte
outside the bytes that it writes. -/

namespace Sys2Proof.Machine

theorem State.memoryCanonical_iff (s : State) :
    s.memoryCanonical = true ↔ Mem.wf s.mem.near = true ∧ Mem.wf s.mem.host = true ∧ Mem.wf s.mem.sram = true := by
  simp [State.memoryCanonical, Bool.and_eq_true, and_assoc]

/-- Whoever leaves memory alone keeps its form. -/
theorem State.memoryCanonical_congr {s t : State} (h : t.mem = s.mem) : t.memoryCanonical = s.memoryCanonical := by
  simp [State.memoryCanonical, h]

/-! ## Near memory -/

theorem State.nearWrite_canonical (s : State) (pa : Nat) (bs : List Byte) (h : s.memoryCanonical = true) :
    (s.nearWrite pa bs).memoryCanonical = true := by
  rw [State.memoryCanonical_iff] at *
  exact ⟨Mem.wf_writeBytes bs _ pa h.1, h.2⟩

theorem State.nearFresh_canonical (s : State) (pa n : Nat) (h : s.memoryCanonical = true) :
    (s.nearFresh pa n).memoryCanonical = true := by
  rw [State.memoryCanonical_iff] at *
  exact ⟨Mem.wf_clear _ pa n h.1, h.2⟩

theorem State.poisonLine_canonical (s : State) (region line : Nat) (h : s.memoryCanonical = true) :
    (s.poisonLine region line).memoryCanonical = true := by
  unfold State.poisonLine
  simp only
  obtain ⟨g, b, e⟩ := State.setStatus_shape (State.bump (if reservedLine line then State.loseReserved
      { s with mem := { s.mem with
          near := Mem.clear s.mem.near (region * 2 ^ 37 + 64 * line) 64
          poison := (region * 2 ^ 37 + 64 * line) / 64 ::
            s.mem.poison.filter fun x => x != (region * 2 ^ 37 + 64 * line) / 64 } } (region * 2 ^ 37 + 64 * line)
      else { s with mem := { s.mem with
          near := Mem.clear s.mem.near (region * 2 ^ 37 + 64 * line) 64
          poison := (region * 2 ^ 37 + 64 * line) / 64 ::
            s.mem.poison.filter fun x => x != (region * 2 ^ 37 + 64 * line) / 64 } }) .RGN_MEM_POISONED region)
    F.RGN_MEM_STATUS_UNCORRECTED region 0
  rw [e]
  rw [State.memoryCanonical_iff] at *
  split <;> exact ⟨Mem.wf_clear _ _ _ h.1, h.2⟩

/-- A byte outside the bytes written reads as before. -/
theorem State.nearWrite_read_out (s : State) (pa a : Nat) (bs : List Byte) (h : s.memoryCanonical = true)
    (ha : a < pa ∨ pa + bs.length ≤ a) : Mem.read (s.nearWrite pa bs).mem.near a = Mem.read s.mem.near a :=
  Mem.read_writeBytes_out bs _ pa a ((s.memoryCanonical_iff.mp h).1) ha

/-- The bytes written are read back. -/
theorem State.nearWrite_read_in (s : State) (pa i : Nat) (bs : List Byte) (h : s.memoryCanonical = true) (hi : i < bs.length) :
    Mem.read (s.nearWrite pa bs).mem.near (pa + i) = bs[i] :=
  Mem.read_writeBytes_in bs _ pa i ((s.memoryCanonical_iff.mp h).1) hi

/-! ## Buffer space -/

theorem State.bufTouch_mem (s : State) (bed va len : Nat) : (s.bufTouch bed va len).mem = s.mem := by
  obtain ⟨g, b, k, e⟩ := s.bufTouch_shape bed va len
  rw [e]

theorem State.bufWrite_canonical (s : State) (bed va : Nat) (bs : List Byte) (h : s.memoryCanonical = true) :
    (s.bufWrite bed va bs).memoryCanonical = true := by
  unfold State.bufWrite
  simp only
  rw [State.memoryCanonical_congr (State.bufTouch_mem _ bed va bs.length)]
  refine foldl_keeps (fun s : State => s.memoryCanonical = true) _ ?_ _ s h
  intro s p h
  split
  · split
    · exact h
    · exact State.nearWrite_canonical s _ _ h
  · exact h

/-! ## Address fields -/

theorem State.mbByte_mem (s : State) (fn m off : Nat) (v : Byte) : (s.mbByte fn m off v).mem = s.mem := rfl

theorem State.storeAddr_canonical (s : State) (d : Desc) (addr : W64) (bs : List Byte) (h : s.memoryCanonical = true) :
    (s.storeAddr d addr bs).memoryCanonical = true := by
  unfold State.storeAddr
  simp only
  split
  · split
    · exact State.bufWrite_canonical s _ _ _ h
    · exact h
  · split
    · exact h
    · rw [State.memoryCanonical_iff] at *
      exact ⟨h.1, Mem.wf_writeBytes bs _ _ h.2.1, h.2.2⟩
  · rw [State.memoryCanonical_iff] at *
    exact ⟨h.1, h.2.1, Mem.wf_writeBytes _ _ _ h.2.2⟩
  · split
    · refine foldl_keeps (fun s : State => s.memoryCanonical = true) _ ?_ _ s h
      intro s p h
      exact (State.memoryCanonical_congr (State.mbByte_mem s _ _ _ _)).trans h
    · exact h

theorem State.writeAddr_canonical (s : State) (d : Desc) (addr : W64) (bs : List Byte) (h : s.memoryCanonical = true) :
    (s.writeAddr d addr bs).memoryCanonical = true := by
  unfold State.writeAddr
  split
  · exact h
  · exact State.storeAddr_canonical s d addr bs h

theorem State.writeFn_canonical (s : State) (fn : Nat) (addr : W64) (bs : List Byte) (h : s.memoryCanonical = true) :
    (s.writeFn fn addr bs).memoryCanonical = true := by
  unfold State.writeFn
  simp only
  split
  · split
    · exact h
    · rw [State.memoryCanonical_iff] at *
      exact ⟨h.1, Mem.wf_writeBytes bs _ _ h.2.1, h.2.2⟩
  · rw [State.memoryCanonical_iff] at *
    exact ⟨h.1, h.2.1, Mem.wf_writeBytes _ _ _ h.2.2⟩
  · exact h

end Sys2Proof.Machine
end

