-- ==== Sys2Proof/Laws/PerInstr.lean ====
section
/-! SUPPORT. Per command: the opcode table names the row of every well-formed descriptor (R67, R68). -/

namespace Sys2Proof.Laws.Opcode

set_option Elab.async false

/-- A well-formed command that is an opcode's row is the one that the opcode of its descriptor names. -/
def Statement (i : Instr) : Prop := ∀ d op, i.desc? = some (d, op) → i.wf = true → Sys2Proof.commandOf d = some i

/-- A descriptor of a row has the opcode of the row. -/
theorem opcode_of_wf {d : Desc} {op : Nat} (h : d.wf op = true) : d.opcode.toNat = op := by
  simp only [Desc.wf, Bool.and_eq_true, beq_iff_eq] at h
  exact h.1

theorem pairLowerRead (a : Access32) : Statement (.pairLowerRead a) := fun _ _ h _ => nomatch h
theorem pairLowerWrite (a : Access32) (v : W32) : Statement (.pairLowerWrite a v) := fun _ _ h _ => nomatch h
theorem pairUpperWrite (a : Access32) (v : W32) : Statement (.pairUpperWrite a v) := fun _ _ h _ => nomatch h
theorem rcRead (a : Access32) (set : W32) : Statement (.rcRead a set) := fun _ _ h _ => nomatch h
theorem w1cWrite (a : Access32) (v : W32) (hw : W32) : Statement (.w1cWrite a v hw) := fun _ _ h _ => nomatch h
theorem intEnableWrite (a : Access32) (v : W32) : Statement (.intEnableWrite a v) := fun _ _ h _ => nomatch h
theorem registerWrite (a : Access32) (v : W32) : Statement (.registerWrite a v) := fun _ _ h _ => nomatch h
theorem beacon (p : Fin 8) (m : TimeMsg) : Statement (.beacon p m) := fun _ _ h _ => nomatch h
theorem delayRequest : Statement (.delayRequest) := fun _ _ h _ => nomatch h
theorem delayResponse (m : TimeMsg) : Statement (.delayResponse m) := fun _ _ h _ => nomatch h
theorem exchangeAbandon : Statement (.exchangeAbandon) := fun _ _ h _ => nomatch h
theorem ftHostCommit (v : W64) : Statement (.ftHostCommit v) := fun _ _ h _ => nomatch h
theorem slewEnd : Statement (.slewEnd) := fun _ _ h _ => nomatch h
theorem ftBeaconTimeout : Statement (.ftBeaconTimeout) := fun _ _ h _ => nomatch h
theorem holdoverExpired : Statement (.holdoverExpired) := fun _ _ h _ => nomatch h
theorem ftSourceWrite (v : Fin 4) : Statement (.ftSourceWrite v) := fun _ _ h _ => nomatch h
theorem stepNow : Statement (.stepNow) := fun _ _ h _ => nomatch h
theorem timeWord (dt : Nat) : Statement (.timeWord dt) := fun _ _ h _ => nomatch h
theorem replicaWordLoss (x : ReplicaOf) : Statement (.replicaWordLoss x) := fun _ _ h _ => nomatch h
theorem replicaResync (r : Fin 16) : Statement (.replicaResync r) := fun _ _ h _ => nomatch h
theorem gateReq (r : Fin 16) (on : Bool) : Statement (.gateReq r on) := fun _ _ h _ => nomatch h
theorem regionClockStop (r : Fin 16) : Statement (.regionClockStop r) := fun _ _ h _ => nomatch h
theorem regionClockRestart (r : Fin 16) : Statement (.regionClockRestart r) := fun _ _ h _ => nomatch h
theorem supplyDroop (r : Fin 16) (mhz : Nat) : Statement (.supplyDroop r mhz) := fun _ _ h _ => nomatch h
theorem ifOpen (d : Desc) : Statement (.ifOpen d) := by
  intro _ _ h w; cases h; unfold Sys2Proof.commandOf; rw [opcode_of_wf w]; rfl
theorem ifClose (d : Desc) : Statement (.ifClose d) := by
  intro _ _ h w; cases h; unfold Sys2Proof.commandOf; rw [opcode_of_wf w]; rfl
theorem ringCreate (d : Desc) : Statement (.ringCreate d) := by
  intro _ _ h w; cases h; unfold Sys2Proof.commandOf; rw [opcode_of_wf w]; rfl
theorem ringDestroy (d : Desc) : Statement (.ringDestroy d) := by
  intro _ _ h w; cases h; unfold Sys2Proof.commandOf; rw [opcode_of_wf w]; rfl
theorem ringDrainComplete (fn : Fin 17) (r : Fin 256) : Statement (.ringDrainComplete fn r) := fun _ _ h _ => nomatch h
theorem nop (d : Desc) : Statement (.nop d) := by
  intro _ _ h w; cases h; unfold Sys2Proof.commandOf; rw [opcode_of_wf w]; rfl
theorem journalRead (d : Desc) : Statement (.journalRead d) := by
  intro _ _ h w; cases h; unfold Sys2Proof.commandOf; rw [opcode_of_wf w]; rfl
theorem mailboxGo (fn : Fin 17) (m : Fin 16) : Statement (.mailboxGo fn m) := fun _ _ h _ => nomatch h
theorem ringDoorbell (fn : Fin 17) (r : Fin 256) (v : W16) : Statement (.ringDoorbell fn r v) := fun _ _ h _ => nomatch h
theorem descriptorFetch (fn : Fin 17) (r : Fin 256) : Statement (.descriptorFetch fn r) := fun _ _ h _ => nomatch h
theorem ringIrqDelay (fn : Fin 17) (r : Fin 256) : Statement (.ringIrqDelay fn r) := fun _ _ h _ => nomatch h
theorem functionLevelReset (fn : Fin 17) : Statement (.functionLevelReset fn) := fun _ _ h _ => nomatch h
theorem keepStoreProgram : Statement (.keepStoreProgram) := fun _ _ h _ => nomatch h
theorem sesOpen (d : Desc) : Statement (.sesOpen d) := by
  intro _ _ h w; cases h; unfold Sys2Proof.commandOf; rw [opcode_of_wf w]; rfl
theorem sesClose (d : Desc) : Statement (.sesClose d) := by
  intro _ _ h w; cases h; unfold Sys2Proof.commandOf; rw [opcode_of_wf w]; rfl
theorem sesPause (d : Desc) : Statement (.sesPause d) := by
  intro _ _ h w; cases h; unfold Sys2Proof.commandOf; rw [opcode_of_wf w]; rfl
theorem sesResume (d : Desc) : Statement (.sesResume d) := by
  intro _ _ h w; cases h; unfold Sys2Proof.commandOf; rw [opcode_of_wf w]; rfl
theorem sesPark (d : Desc) : Statement (.sesPark d) := by
  intro _ _ h w; cases h; unfold Sys2Proof.commandOf; rw [opcode_of_wf w]; rfl
theorem sesCut (d : Desc) : Statement (.sesCut d) := by
  intro _ _ h w; cases h; unfold Sys2Proof.commandOf; rw [opcode_of_wf w]; rfl
theorem sesMove (d : Desc) : Statement (.sesMove d) := by
  intro _ _ h w; cases h; unfold Sys2Proof.commandOf; rw [opcode_of_wf w]; rfl
theorem sesAccept (d : Desc) : Statement (.sesAccept d) := by
  intro _ _ h w; cases h; unfold Sys2Proof.commandOf; rw [opcode_of_wf w]; rfl
theorem sesQuery (d : Desc) : Statement (.sesQuery d) := by
  intro _ _ h w; cases h; unfold Sys2Proof.commandOf; rw [opcode_of_wf w]; rfl
theorem sesSetLimit (d : Desc) : Statement (.sesSetLimit d) := by
  intro _ _ h w; cases h; unfold Sys2Proof.commandOf; rw [opcode_of_wf w]; rfl
theorem sesMapLoad (d : Desc) : Statement (.sesMapLoad d) := by
  intro _ _ h w; cases h; unfold Sys2Proof.commandOf; rw [opcode_of_wf w]; rfl
theorem offer (m : OwnMsg) : Statement (.offer m) := fun _ _ h _ => nomatch h
theorem claim (m : OwnMsg) : Statement (.claim m) := fun _ _ h _ => nomatch h
theorem confirm (m : OwnMsg) : Statement (.confirm m) := fun _ _ h _ => nomatch h
theorem refuse (m : OwnMsg) : Statement (.refuse m) := fun _ _ h _ => nomatch h
theorem query (m : OwnMsg) : Statement (.query m) := fun _ _ h _ => nomatch h
theorem answer (m : OwnMsg) : Statement (.answer m) := fun _ _ h _ => nomatch h
theorem renew (m : OwnMsg) : Statement (.renew m) := fun _ _ h _ => nomatch h
theorem renewAck (m : OwnMsg) : Statement (.renewAck m) := fun _ _ h _ => nomatch h
theorem trxAppend (m : OwnMsg) : Statement (.trxAppend m) := fun _ _ h _ => nomatch h
theorem trxAck (m : OwnMsg) : Statement (.trxAck m) := fun _ _ h _ => nomatch h
theorem dropNote (m : OwnMsg) : Statement (.dropNote m) := fun _ _ h _ => nomatch h
theorem closeNote (m : OwnMsg) : Statement (.closeNote m) := fun _ _ h _ => nomatch h
theorem homeXfer (m : OwnMsg) : Statement (.homeXfer m) := fun _ _ h _ => nomatch h
theorem homeXferEnd (m : OwnMsg) : Statement (.homeXferEnd m) := fun _ _ h _ => nomatch h
theorem trxFetch (m : OwnMsg) : Statement (.trxFetch m) := fun _ _ h _ => nomatch h
theorem trxData (m : OwnMsg) : Statement (.trxData m) := fun _ _ h _ => nomatch h
theorem homeXferResend (bucket : Fin 4096) : Statement (.homeXferResend bucket) := fun _ _ h _ => nomatch h
theorem homeXferTimeout (bucket : Fin 4096) : Statement (.homeXferTimeout bucket) := fun _ _ h _ => nomatch h
theorem noteResend (sid : W64) : Statement (.noteResend sid) := fun _ _ h _ => nomatch h
theorem ownershipQueryTimer (sid : W64) : Statement (.ownershipQueryTimer sid) := fun _ _ h _ => nomatch h
theorem renewSend (home : Fin 512) : Statement (.renewSend home) := fun _ _ h _ => nomatch h
theorem leaseGuardExpiry (home : Fin 512) : Statement (.leaseGuardExpiry home) := fun _ _ h _ => nomatch h
theorem leaseExpiry (owner : Fin 512) : Statement (.leaseExpiry owner) := fun _ _ h _ => nomatch h
theorem homeUnreachableTimeout (sid : W64) : Statement (.homeUnreachableTimeout sid) := fun _ _ h _ => nomatch h
theorem rebuildWindowEnd : Statement (.rebuildWindowEnd) := fun _ _ h _ => nomatch h
theorem ttlPausedExpiry (sid : W64) : Statement (.ttlPausedExpiry sid) := fun _ _ h _ => nomatch h
theorem ttlCxlExpiry (sid : W64) : Statement (.ttlCxlExpiry sid) := fun _ _ h _ => nomatch h
theorem ttlMulchExpiry (sid : W64) : Statement (.ttlMulchExpiry sid) := fun _ _ h _ => nomatch h
theorem ttlDroppedExpiry (sid : W64) : Statement (.ttlDroppedExpiry sid) := fun _ _ h _ => nomatch h
theorem tombstoneExpiry (sid : W64) : Statement (.tombstoneExpiry sid) := fun _ _ h _ => nomatch h
theorem schProfileLoad (d : Desc) : Statement (.schProfileLoad d) := by
  intro _ _ h w; cases h; unfold Sys2Proof.commandOf; rw [opcode_of_wf w]; rfl
theorem schProfileUnload (d : Desc) : Statement (.schProfileUnload d) := by
  intro _ _ h w; cases h; unfold Sys2Proof.commandOf; rw [opcode_of_wf w]; rfl
theorem schSlotRead (d : Desc) : Statement (.schSlotRead d) := by
  intro _ _ h w; cases h; unfold Sys2Proof.commandOf; rw [opcode_of_wf w]; rfl
theorem schSetSeq (d : Desc) : Statement (.schSetSeq d) := by
  intro _ _ h w; cases h; unfold Sys2Proof.commandOf; rw [opcode_of_wf w]; rfl
theorem stepBoundary (bed : Fin 16) (pid : W16) : Statement (.stepBoundary bed pid) := fun _ _ h _ => nomatch h
theorem lxLayer (h : LxHdr) (payload : List Byte) : Statement (.lxLayer h payload) := fun _ _ h _ => nomatch h
theorem lxReturn (sid : W64) : Statement (.lxReturn sid) := fun _ _ h _ => nomatch h
theorem lxLogits (h : LxHdr) (payload : List Byte) : Statement (.lxLogits h payload) := fun _ _ h _ => nomatch h
theorem entryAbandon (sid : W64) : Statement (.entryAbandon sid) := fun _ _ h _ => nomatch h
theorem entrySampling (sid : W64) : Statement (.entrySampling sid) := fun _ _ h _ => nomatch h
theorem prefillChunkComplete (sid : W64) : Statement (.prefillChunkComplete sid) := fun _ _ h _ => nomatch h
theorem graftLoad (d : Desc) : Statement (.graftLoad d) := by
  intro _ _ h w; cases h; unfold Sys2Proof.commandOf; rw [opcode_of_wf w]; rfl
theorem graftDrop (d : Desc) : Statement (.graftDrop d) := by
  intro _ _ h w; cases h; unfold Sys2Proof.commandOf; rw [opcode_of_wf w]; rfl
theorem graftStow (d : Desc) : Statement (.graftStow d) := by
  intro _ _ h w; cases h; unfold Sys2Proof.commandOf; rw [opcode_of_wf w]; rfl
theorem graftBind (d : Desc) : Statement (.graftBind d) := by
  intro _ _ h w; cases h; unfold Sys2Proof.commandOf; rw [opcode_of_wf w]; rfl
theorem lxGroupSet (d : Desc) : Statement (.lxGroupSet d) := by
  intro _ _ h w; cases h; unfold Sys2Proof.commandOf; rw [opcode_of_wf w]; rfl
theorem graftQuota (d : Desc) : Statement (.graftQuota d) := by
  intro _ _ h w; cases h; unfold Sys2Proof.commandOf; rw [opcode_of_wf w]; rfl
theorem graftQuery (d : Desc) : Statement (.graftQuery d) := by
  intro _ _ h w; cases h; unfold Sys2Proof.commandOf; rw [opcode_of_wf w]; rfl
theorem graftLayerResident (bed : Fin 16) (id : W16) : Statement (.graftLayerResident bed id) := fun _ _ h _ => nomatch h
theorem kvMap (d : Desc) : Statement (.kvMap d) := by
  intro _ _ h w; cases h; unfold Sys2Proof.commandOf; rw [opcode_of_wf w]; rfl
theorem kvUnmap (d : Desc) : Statement (.kvUnmap d) := by
  intro _ _ h w; cases h; unfold Sys2Proof.commandOf; rw [opcode_of_wf w]; rfl
theorem kvSeqSet (d : Desc) : Statement (.kvSeqSet d) := by
  intro _ _ h w; cases h; unfold Sys2Proof.commandOf; rw [opcode_of_wf w]; rfl
theorem kvPrefixFlush (d : Desc) : Statement (.kvPrefixFlush d) := by
  intro _ _ h w; cases h; unfold Sys2Proof.commandOf; rw [opcode_of_wf w]; rfl
theorem kvPageQuery (d : Desc) : Statement (.kvPageQuery d) := by
  intro _ _ h w; cases h; unfold Sys2Proof.commandOf; rw [opcode_of_wf w]; rfl
theorem pfxEnableWrite (bed : Fin 16) (v : W32) : Statement (.pfxEnableWrite bed v) := fun _ _ h _ => nomatch h
theorem kvCopyPass (sid : W64) : Statement (.kvCopyPass sid) := fun _ _ h _ => nomatch h
theorem inSubmit (d : Desc) : Statement (.inSubmit d) := by
  intro _ _ h w; cases h; unfold Sys2Proof.commandOf; rw [opcode_of_wf w]; rfl
theorem inTableLoad (d : Desc) : Statement (.inTableLoad d) := by
  intro _ _ h w; cases h; unfold Sys2Proof.commandOf; rw [opcode_of_wf w]; rfl
theorem inTableUnload (d : Desc) : Statement (.inTableUnload d) := by
  intro _ _ h w; cases h; unfold Sys2Proof.commandOf; rw [opcode_of_wf w]; rfl
theorem inTokenize (d : Desc) : Statement (.inTokenize d) := by
  intro _ _ h w; cases h; unfold Sys2Proof.commandOf; rw [opcode_of_wf w]; rfl
theorem tokenizeChunk (q : Fin 4) (sid : W64) : Statement (.tokenizeChunk q sid) := fun _ _ h _ => nomatch h
theorem furCreate (d : Desc) : Statement (.furCreate d) := by
  intro _ _ h w; cases h; unfold Sys2Proof.commandOf; rw [opcode_of_wf w]; rfl
theorem furDestroy (d : Desc) : Statement (.furDestroy d) := by
  intro _ _ h w; cases h; unfold Sys2Proof.commandOf; rw [opcode_of_wf w]; rfl
theorem smpSet (d : Desc) : Statement (.smpSet d) := by
  intro _ _ h w; cases h; unfold Sys2Proof.commandOf; rw [opcode_of_wf w]; rfl
theorem smpStopSet (d : Desc) : Statement (.smpStopSet d) := by
  intro _ _ h w; cases h; unfold Sys2Proof.commandOf; rw [opcode_of_wf w]; rfl
theorem smpGrammarLoad (d : Desc) : Statement (.smpGrammarLoad d) := by
  intro _ _ h w; cases h; unfold Sys2Proof.commandOf; rw [opcode_of_wf w]; rfl
theorem smpGrammarUnload (d : Desc) : Statement (.smpGrammarUnload d) := by
  intro _ _ h w; cases h; unfold Sys2Proof.commandOf; rw [opcode_of_wf w]; rfl
theorem furrowHeadWrite (bed : Fin 16) (v : W32) : Statement (.furrowHeadWrite bed v) := fun _ _ h _ => nomatch h
theorem furrowBacklogDrain (sid : W64) : Statement (.furrowBacklogDrain sid) := fun _ _ h _ => nomatch h
theorem furrowIrqDelay (furrow : W16) : Statement (.furrowIrqDelay furrow) := fun _ _ h _ => nomatch h
theorem tierQuota (d : Desc) : Statement (.tierQuota d) := by
  intro _ _ h w; cases h; unfold Sys2Proof.commandOf; rw [opcode_of_wf w]; rfl
theorem tierHint (d : Desc) : Statement (.tierHint d) := by
  intro _ _ h w; cases h; unfold Sys2Proof.commandOf; rw [opcode_of_wf w]; rfl
theorem tierSetQuery (d : Desc) : Statement (.tierSetQuery d) := by
  intro _ _ h w; cases h; unfold Sys2Proof.commandOf; rw [opcode_of_wf w]; rfl
theorem cxlExtentAdd (d : Desc) : Statement (.cxlExtentAdd d) := by
  intro _ _ h w; cases h; unfold Sys2Proof.commandOf; rw [opcode_of_wf w]; rfl
theorem cxlExtentRelease (d : Desc) : Statement (.cxlExtentRelease d) := by
  intro _ _ h w; cases h; unfold Sys2Proof.commandOf; rw [opcode_of_wf w]; rfl
theorem cxlExtentLost (d : Desc) : Statement (.cxlExtentLost d) := by
  intro _ _ h w; cases h; unfold Sys2Proof.commandOf; rw [opcode_of_wf w]; rfl
theorem extentReleaseComplete (port : Fin 4) (ix : Nat) : Statement (.extentReleaseComplete port ix) := fun _ _ h _ => nomatch h
theorem movePiece (ix : Nat) : Statement (.movePiece ix) := fun _ _ h _ => nomatch h
theorem moveComplete (ix : Nat) : Statement (.moveComplete ix) := fun _ _ h _ => nomatch h
theorem backingExpiry (ix : Nat) : Statement (.backingExpiry ix) := fun _ _ h _ => nomatch h
theorem cxlLinkDown (port : Fin 4) : Statement (.cxlLinkDown port) := fun _ _ h _ => nomatch h
theorem cxlPoisonRead (port : Fin 4) (ix : Nat) : Statement (.cxlPoisonRead port ix) := fun _ _ h _ => nomatch h
theorem cxlEnable (port : Fin 4) (on : Bool) : Statement (.cxlEnable port on) := fun _ _ h _ => nomatch h
theorem hdmCommit (port : Fin 4) (k : Fin 8) (on : Bool) : Statement (.hdmCommit port k on) := fun _ _ h _ => nomatch h
theorem cxlIoGo (port : Fin 4) (v : W32) : Statement (.cxlIoGo port v) := fun _ _ h _ => nomatch h
theorem cxlIoDone (port : Fin 4) (result : Fin 4) (data : W32) : Statement (.cxlIoDone port result data) := fun _ _ h _ => nomatch h
theorem cxlDeviceEvent (port : Fin 4) : Statement (.cxlDeviceEvent port) := fun _ _ h _ => nomatch h
theorem cxlRakeBlock (port : Fin 4) (ix : Nat) (bad : Bool) : Statement (.cxlRakeBlock port ix bad) := fun _ _ h _ => nomatch h
theorem rakeStripe (r : Fin 16) (inner : Nat) (wrong : List (Nat × Nat)) : Statement (.rakeStripe r inner wrong) := fun _ _ h _ => nomatch h
theorem spareNow (r : Fin 16) (die : Fin 16) : Statement (.spareNow r die) := fun _ _ h _ => nomatch h
theorem spareStripeCopy (r : Fin 16) (inner : Nat) (wrong : List (Nat × Nat)) : Statement (.spareStripeCopy r inner wrong) := fun _ _ h _ => nomatch h
theorem flDiscardSync (d : Desc) : Statement (.flDiscardSync d) := by
  intro _ _ h w; cases h; unfold Sys2Proof.commandOf; rw [opcode_of_wf w]; rfl
theorem flKeepRead (d : Desc) : Statement (.flKeepRead d) := by
  intro _ _ h w; cases h; unfold Sys2Proof.commandOf; rw [opcode_of_wf w]; rfl
theorem appendLogProgram (c : Fin 8) : Statement (.appendLogProgram c) := fun _ _ h _ => nomatch h
theorem compostCopy (c : Fin 8) : Statement (.compostCopy c) := fun _ _ h _ => nomatch h
theorem compostCopyComplete (c : Fin 8) : Statement (.compostCopyComplete c) := fun _ _ h _ => nomatch h
theorem flashRakePage (c : Fin 8) (corrected : Nat) (bad : Bool) : Statement (.flashRakePage c corrected bad) := fun _ _ h _ => nomatch h
theorem flashOpFailure (c : Fin 8) (phys : Nat) : Statement (.flashOpFailure c phys) := fun _ _ h _ => nomatch h
theorem blockErase (c : Fin 8) (phys : Nat) : Statement (.blockErase c phys) := fun _ _ h _ => nomatch h
theorem keepStoreLoad (failed : List (Fin 8)) : Statement (.keepStoreLoad failed) := fun _ _ h _ => nomatch h
theorem vsPublish (d : Desc) : Statement (.vsPublish d) := by
  intro _ _ h w; cases h; unfold Sys2Proof.commandOf; rw [opcode_of_wf w]; rfl
theorem vsUnload (d : Desc) : Statement (.vsUnload d) := by
  intro _ _ h w; cases h; unfold Sys2Proof.commandOf; rw [opcode_of_wf w]; rfl
theorem vsQuery (d : Desc) : Statement (.vsQuery d) := by
  intro _ _ h w; cases h; unfold Sys2Proof.commandOf; rw [opcode_of_wf w]; rfl
theorem vsDelete (d : Desc) : Statement (.vsDelete d) := by
  intro _ _ h w; cases h; unfold Sys2Proof.commandOf; rw [opcode_of_wf w]; rfl
theorem vsShare (d : Desc) : Statement (.vsShare d) := by
  intro _ _ h w; cases h; unfold Sys2Proof.commandOf; rw [opcode_of_wf w]; rfl
theorem vsInfo (d : Desc) : Statement (.vsInfo d) := by
  intro _ _ h w; cases h; unfold Sys2Proof.commandOf; rw [opcode_of_wf w]; rfl
theorem vsWalkComplete (ix : Nat) : Statement (.vsWalkComplete ix) := fun _ _ h _ => nomatch h
theorem vsReq (m : VsMsg) : Statement (.vsReq m) := fun _ _ h _ => nomatch h
theorem vsResp (m : VsMsg) : Statement (.vsResp m) := fun _ _ h _ => nomatch h
theorem shardTimeout (ix : Nat) : Statement (.shardTimeout ix) := fun _ _ h _ => nomatch h
theorem plwKeyLoad (d : Desc) : Statement (.plwKeyLoad d) := by
  intro _ _ h w; cases h; unfold Sys2Proof.commandOf; rw [opcode_of_wf w]; rfl
theorem plwKeySend (d : Desc) : Statement (.plwKeySend d) := by
  intro _ _ h w; cases h; unfold Sys2Proof.commandOf; rw [opcode_of_wf w]; rfl
theorem plwKeyDrop (d : Desc) : Statement (.plwKeyDrop d) := by
  intro _ _ h w; cases h; unfold Sys2Proof.commandOf; rw [opcode_of_wf w]; rfl
theorem plwEnable (p : Fin 8) (on : Bool) : Statement (.plwEnable p on) := fun _ _ h _ => nomatch h
theorem laneLock (p : Fin 8) (lanes : Byte) : Statement (.laneLock p lanes) := fun _ _ h _ => nomatch h
theorem trainBlock (p : Fin 8) (t : Train) : Statement (.trainBlock p t) := fun _ _ h _ => nomatch h
theorem portTrainingTimeout (p : Fin 8) : Statement (.portTrainingTimeout p) := fun _ _ h _ => nomatch h
theorem laneLost (p : Fin 8) (lanes : Byte) (allSignal : Bool) : Statement (.laneLost p lanes allSignal) := fun _ _ h _ => nomatch h
theorem retrainRelock (p : Fin 8) (lanes : Byte) : Statement (.retrainRelock p lanes) := fun _ _ h _ => nomatch h
theorem downRetry (p : Fin 8) : Statement (.downRetry p) := fun _ _ h _ => nomatch h
theorem frameReceive (p : Fin 8) (f : Frame) : Statement (.frameReceive p f) := fun _ _ h _ => nomatch h
theorem linkControlBlock (p : Fin 8) (c : CtlBlock) : Statement (.linkControlBlock p c) := fun _ _ h _ => nomatch h
theorem linkControlSend (p : Fin 8) : Statement (.linkControlSend p) := fun _ _ h _ => nomatch h
theorem frameSend (p : Fin 8) : Statement (.frameSend p) := fun _ _ h _ => nomatch h
theorem messageSend : Statement (.messageSend) := fun _ _ h _ => nomatch h
theorem reassemblyTimeout (p : Fin 8) : Statement (.reassemblyTimeout p) := fun _ _ h _ => nomatch h
theorem queueSample (p : Fin 8) : Statement (.queueSample p) := fun _ _ h _ => nomatch h
theorem imgData (m : ImgMsg) : Statement (.imgData m) := fun _ _ h _ => nomatch h
theorem imgAck (m : ImgMsg) : Statement (.imgAck m) := fun _ _ h _ => nomatch h
theorem imgResendTimer (k : CopyKey) : Statement (.imgResendTimer k) := fun _ _ h _ => nomatch h
theorem imgGiveUp (k : CopyKey) : Statement (.imgGiveUp k) := fun _ _ h _ => nomatch h
theorem expCreate (d : Desc) : Statement (.expCreate d) := by
  intro _ _ h w; cases h; unfold Sys2Proof.commandOf; rw [opcode_of_wf w]; rfl
theorem expRevoke (d : Desc) : Statement (.expRevoke d) := by
  intro _ _ h w; cases h; unfold Sys2Proof.commandOf; rw [opcode_of_wf w]; rfl
theorem expNodeLost (d : Desc) : Statement (.expNodeLost d) := by
  intro _ _ h w; cases h; unfold Sys2Proof.commandOf; rw [opcode_of_wf w]; rfl
theorem memFill (d : Desc) : Statement (.memFill d) := by
  intro _ _ h w; cases h; unfold Sys2Proof.commandOf; rw [opcode_of_wf w]; rfl
theorem memCopy (d : Desc) : Statement (.memCopy d) := by
  intro _ _ h w; cases h; unfold Sys2Proof.commandOf; rw [opcode_of_wf w]; rfl
theorem memCompare (d : Desc) : Statement (.memCompare d) := by
  intro _ _ h w; cases h; unfold Sys2Proof.commandOf; rw [opcode_of_wf w]; rfl
theorem memReduce (d : Desc) : Statement (.memReduce d) := by
  intro _ _ h w; cases h; unfold Sys2Proof.commandOf; rw [opcode_of_wf w]; rfl
theorem expPublish (d : Desc) : Statement (.expPublish d) := by
  intro _ _ h w; cases h; unfold Sys2Proof.commandOf; rw [opcode_of_wf w]; rfl
theorem expWithdraw (d : Desc) : Statement (.expWithdraw d) := by
  intro _ _ h w; cases h; unfold Sys2Proof.commandOf; rw [opcode_of_wf w]; rfl
theorem memHint (d : Desc) : Statement (.memHint d) := by
  intro _ _ h w; cases h; unfold Sys2Proof.commandOf; rw [opcode_of_wf w]; rfl
theorem expQuery (d : Desc) : Statement (.expQuery d) := by
  intro _ _ h w; cases h; unfold Sys2Proof.commandOf; rw [opcode_of_wf w]; rfl
theorem mrRead (m : MrMsg) (key : Option W32) : Statement (.mrRead m key) := fun _ _ h _ => nomatch h
theorem mrWrite (m : MrMsg) (key : Option W32) : Statement (.mrWrite m key) := fun _ _ h _ => nomatch h
theorem mrAcquire (m : MrMsg) (key : Option W32) : Statement (.mrAcquire m key) := fun _ _ h _ => nomatch h
theorem mrWriteback (m : MrMsg) (key : Option W32) : Statement (.mrWriteback m key) := fun _ _ h _ => nomatch h
theorem mrOp (m : MrMsg) (key : Option W32) : Statement (.mrOp m key) := fun _ _ h _ => nomatch h
theorem mrPublish (m : MrMsg) (key : Option W32) : Statement (.mrPublish m key) := fun _ _ h _ => nomatch h
theorem mrPubRead (m : MrMsg) (key : Option W32) : Statement (.mrPubRead m key) := fun _ _ h _ => nomatch h
theorem mrRecallData (m : MrMsg) : Statement (.mrRecallData m) := fun _ _ h _ => nomatch h
theorem mrResp (m : MrMsg) : Statement (.mrResp m) := fun _ _ h _ => nomatch h
theorem recallTimeout (bed : Fin 16) (id : W32) : Statement (.recallTimeout bed id) := fun _ _ h _ => nomatch h
theorem remoteCopyTimeout (id : W32) : Statement (.remoteCopyTimeout id) := fun _ _ h _ => nomatch h
theorem granuleMigrate (bed : Fin 16) : Statement (.granuleMigrate bed) := fun _ _ h _ => nomatch h
theorem ckArm (d : Desc) : Statement (.ckArm d) := by
  intro _ _ h w; cases h; unfold Sys2Proof.commandOf; rw [opcode_of_wf w]; rfl
theorem ckStart (d : Desc) : Statement (.ckStart d) := by
  intro _ _ h w; cases h; unfold Sys2Proof.commandOf; rw [opcode_of_wf w]; rfl
theorem ckRestore (d : Desc) : Statement (.ckRestore d) := by
  intro _ _ h w; cases h; unfold Sys2Proof.commandOf; rw [opcode_of_wf w]; rfl
theorem ckRestoreCommit (d : Desc) : Statement (.ckRestoreCommit d) := by
  intro _ _ h w; cases h; unfold Sys2Proof.commandOf; rw [opcode_of_wf w]; rfl
theorem ckRestoreCancel (d : Desc) : Statement (.ckRestoreCancel d) := by
  intro _ _ h w; cases h; unfold Sys2Proof.commandOf; rw [opcode_of_wf w]; rfl
theorem ckShardFree (d : Desc) : Statement (.ckShardFree d) := by
  intro _ _ h w; cases h; unfold Sys2Proof.commandOf; rw [opcode_of_wf w]; rfl
theorem ckRegroup (d : Desc) : Statement (.ckRegroup d) := by
  intro _ _ h w; cases h; unfold Sys2Proof.commandOf; rw [opcode_of_wf w]; rfl
theorem ckManifestRead (d : Desc) : Statement (.ckManifestRead d) := by
  intro _ _ h w; cases h; unfold Sys2Proof.commandOf; rw [opcode_of_wf w]; rfl
theorem ckNotice (m : CkMsg) : Statement (.ckNotice m) := fun _ _ h _ => nomatch h
theorem ckPrepare (m : CkMsg) : Statement (.ckPrepare m) := fun _ _ h _ => nomatch h
theorem ckReady (m : CkMsg) : Statement (.ckReady m) := fun _ _ h _ => nomatch h
theorem ckAbort (m : CkMsg) : Statement (.ckAbort m) := fun _ _ h _ => nomatch h
theorem ckDone (m : CkMsg) : Statement (.ckDone m) := fun _ _ h _ => nomatch h
theorem ckCommit (m : CkMsg) : Statement (.ckCommit m) := fun _ _ h _ => nomatch h
theorem ckFetch (m : CkMsg) : Statement (.ckFetch m) := fun _ _ h _ => nomatch h
theorem ckData (m : CkMsg) : Statement (.ckData m) := fun _ _ h _ => nomatch h
theorem ckDataAck (m : CkMsg) : Statement (.ckDataAck m) := fun _ _ h _ => nomatch h
theorem ckDataEnd (m : CkMsg) : Statement (.ckDataEnd m) := fun _ _ h _ => nomatch h
theorem ckCut (bed : Fin 16) : Statement (.ckCut bed) := fun _ _ h _ => nomatch h
theorem shardWriteComplete (bed : Fin 16) : Statement (.shardWriteComplete bed) := fun _ _ h _ => nomatch h
theorem ckDeadline (bed : Fin 16) : Statement (.ckDeadline bed) := fun _ _ h _ => nomatch h
theorem ckOrphanTimeout (bed : Fin 16) : Statement (.ckOrphanTimeout bed) := fun _ _ h _ => nomatch h
theorem ckStageTtlExpiry (bed : Fin 16) : Statement (.ckStageTtlExpiry bed) := fun _ _ h _ => nomatch h
theorem restoreLayerResident (sid : W64) (readable : Bool) : Statement (.restoreLayerResident sid readable) := fun _ _ h _ => nomatch h
theorem secOwnerEnroll (d : Desc) : Statement (.secOwnerEnroll d) := by
  intro _ _ h w; cases h; unfold Sys2Proof.commandOf; rw [opcode_of_wf w]; rfl
theorem secBundleLoad (d : Desc) : Statement (.secBundleLoad d) := by
  intro _ _ h w; cases h; unfold Sys2Proof.commandOf; rw [opcode_of_wf w]; rfl
theorem secPartitionReset (d : Desc) : Statement (.secPartitionReset d) := by
  intro _ _ h w; cases h; unfold Sys2Proof.commandOf; rw [opcode_of_wf w]; rfl
theorem secNonce (d : Desc) : Statement (.secNonce d) := by
  intro _ _ h w; cases h; unfold Sys2Proof.commandOf; rw [opcode_of_wf w]; rfl
theorem secZeroize (d : Desc) : Statement (.secZeroize d) := by
  intro _ _ h w; cases h; unfold Sys2Proof.commandOf; rw [opcode_of_wf w]; rfl
theorem secCertRead (d : Desc) : Statement (.secCertRead d) := by
  intro _ _ h w; cases h; unfold Sys2Proof.commandOf; rw [opcode_of_wf w]; rfl
theorem secMeasure (d : Desc) : Statement (.secMeasure d) := by
  intro _ _ h w; cases h; unfold Sys2Proof.commandOf; rw [opcode_of_wf w]; rfl
theorem zeroizeNonceLapse : Statement (.zeroizeNonceLapse) := fun _ _ h _ => nomatch h
theorem selftestComplete (pass : Bool) : Statement (.selftestComplete pass) := fun _ _ h _ => nomatch h
theorem drbgHealthFailure : Statement (.drbgHealthFailure) := fun _ _ h _ => nomatch h
theorem ideIntegrityFailure (ix : Nat) : Statement (.ideIntegrityFailure ix) := fun _ _ h _ => nomatch h
theorem tdispRequest (bed : Fin 16) (r : Tdisp) : Statement (.tdispRequest bed r) := fun _ _ h _ => nomatch h
theorem spdmRequest (oob : Bool) (r : SpdmReq) : Statement (.spdmRequest oob r) := fun _ _ h _ => nomatch h
theorem mctpJournalRead (start : W32) : Statement (.mctpJournalRead start) := fun _ _ h _ => nomatch h
theorem faultRead (start : W32) : Statement (.faultRead start) := fun _ _ h _ => nomatch h
theorem healthRead : Statement (.healthRead) := fun _ _ h _ => nomatch h
theorem zeroizeNonce : Statement (.zeroizeNonce) := fun _ _ h _ => nomatch h
theorem zeroize (token : List Byte) : Statement (.zeroize token) := fun _ _ h _ => nomatch h
theorem fltLogRead (d : Desc) : Statement (.fltLogRead d) := by
  intro _ _ h w; cases h; unfold Sys2Proof.commandOf; rw [opcode_of_wf w]; rfl
theorem fltUnitUnfence (d : Desc) : Statement (.fltUnitUnfence d) := by
  intro _ _ h w; cases h; unfold Sys2Proof.commandOf; rw [opcode_of_wf w]; rfl
theorem fltRegionRecover (d : Desc) : Statement (.fltRegionRecover d) := by
  intro _ _ h w; cases h; unfold Sys2Proof.commandOf; rw [opcode_of_wf w]; rfl
theorem unitTestComplete (e : TestEnd) : Statement (.unitTestComplete e) := fun _ _ h _ => nomatch h
theorem faultDetect (f : Detect) : Statement (.faultDetect f) := fun _ _ h _ => nomatch h
theorem unitWatchdog (u : Fin 1024) (sid : W64) : Statement (.unitWatchdog u sid) := fun _ _ h _ => nomatch h
theorem fltFirstArm (v : W32) : Statement (.fltFirstArm v) := fun _ _ h _ => nomatch h
theorem fltBedFirstArm (bed : Fin 16) (v : W32) : Statement (.fltBedFirstArm bed v) := fun _ _ h _ => nomatch h
theorem fltInject (v : W32) : Statement (.fltInject v) := fun _ _ h _ => nomatch h
theorem ctrClear (set : Fin 48) : Statement (.ctrClear set) := fun _ _ h _ => nomatch h
theorem ctrRun (set : Fin 48) (run : Bool) : Statement (.ctrRun set run) := fun _ _ h _ => nomatch h
theorem ctrGlobalStart : Statement (.ctrGlobalStart) := fun _ _ h _ => nomatch h
theorem ctrGlobalStop : Statement (.ctrGlobalStop) := fun _ _ h _ => nomatch h
theorem ctrGrant (beds : W16) : Statement (.ctrGrant beds) := fun _ _ h _ => nomatch h
theorem trcMark (d : Desc) : Statement (.trcMark d) := by
  intro _ _ h w; cases h; unfold Sys2Proof.commandOf; rw [opcode_of_wf w]; rfl
theorem ctrSnapshot (d : Desc) : Statement (.ctrSnapshot d) := by
  intro _ _ h w; cases h; unfold Sys2Proof.commandOf; rw [opcode_of_wf w]; rfl
theorem traceRecordWrite (buffer : Fin 5) : Statement (.traceRecordWrite buffer) := fun _ _ h _ => nomatch h
theorem traceHeadWrite (fn : Fin 17) (v : W32) : Statement (.traceHeadWrite fn v) := fun _ _ h _ => nomatch h
theorem powerOn : Statement (.powerOn) := fun _ _ h _ => nomatch h
theorem powerOnResetRelease (strap : Nat) : Statement (.powerOnResetRelease strap) := fun _ _ h _ => nomatch h
theorem stackTrainingComplete (mask : W16) : Statement (.stackTrainingComplete mask) := fun _ _ h _ => nomatch h
theorem memoryReady : Statement (.memoryReady) := fun _ _ h _ => nomatch h
theorem vinLow : Statement (.vinLow) := fun _ _ h _ => nomatch h
theorem vinHigh : Statement (.vinHigh) := fun _ _ h _ => nomatch h
theorem vinOvervoltage : Statement (.vinOvervoltage) := fun _ _ h _ => nomatch h
theorem powerLoss : Statement (.powerLoss) := fun _ _ h _ => nomatch h
theorem thermalWarning (cls : Fin 4) (sensor : Byte) : Statement (.thermalWarning cls sensor) := fun _ _ h _ => nomatch h
theorem thermalShutdown : Statement (.thermalShutdown) := fun _ _ h _ => nomatch h
theorem deviceReset : Statement (.deviceReset) := fun _ _ h _ => nomatch h
theorem hubResetCtrl (v : W32) : Statement (.hubResetCtrl v) := fun _ _ h _ => nomatch h
theorem hubRegionReset (mask : W16) : Statement (.hubRegionReset mask) := fun _ _ h _ => nomatch h
theorem perst : Statement (.perst) := fun _ _ h _ => nomatch h
theorem cxlLinkUp (port : Fin 4) (width : Nat) (rate : Nat) : Statement (.cxlLinkUp port width rate) := fun _ _ h _ => nomatch h
theorem hostLinkUp : Statement (.hostLinkUp) := fun _ _ h _ => nomatch h
theorem hostLinkDown : Statement (.hostLinkDown) := fun _ _ h _ => nomatch h
theorem devResetNAssert : Statement (.devResetNAssert) := fun _ _ h _ => nomatch h
theorem thermalWarningEnd (cls : Fin 4) (sensor : Byte) : Statement (.thermalWarningEnd cls sensor) := fun _ _ h _ => nomatch h

end Sys2Proof.Laws.Opcode
end

