-- ==== Sys2Proof/Tests/Slice0.lean ====
section
/-! SUPPORT. Tests: a term that each check of well-formedness refuses, single steps against the rules of spec/, and for each statement
with hypotheses a state and operands that meet them. -/

namespace Sys2Proof.Tests

open Sys2Proof.Machine

set_option Elab.async false

/-! ## States that the witnesses start from -/

/-- A table image: `n` zero bytes with the fields `(offset, length, value)` set. -/
def image (n : Nat) (fields : List (Nat × Nat × Nat)) : List Byte :=
  fields.foldl (fun b f => b.take f.1 ++ leBytes f.2.1 f.2.2 ++ b.drop (f.1 + f.2.1)) (List.replicate n 0)

/-- ARGS with the fields `(byte, value)` set. -/
def args (fields : List (Nat × Nat)) : W128 := BitVec.ofNat 128 ((fields.map fun f => f.2 * 256 ^ (f.1 - 48)).sum)

/-- What a result holds, or a default. -/
def okD {ε α : Type} (x : Except ε α) (d : α) : α := match x with | .ok a => a | .error _ => d

theorem ok_of {ε α : Type} {x : Except ε α} {d : α} (h : x.isOk = true) : x = .ok (okD x d) := by
  cases x <;> first | rfl | cases h

/-- A result is the value named. -/
def okIs {ε α : Type} [DecidableEq α] (x : Except ε α) (a : α) : Bool := match x with | .ok b => decide (b = a) | .error _ => false

theorem ok_is {ε α : Type} [DecidableEq α] {x : Except ε α} {a : α} (h : okIs x a = true) : x = .ok a := by
  cases x <;> simp [okIs] at h
  rw [h]

theorem some_of {α : Type} {x : Option α} {d : α} (h : x.isSome = true) : x = some (x.getD d) := by
  cases x <;> first | rfl | cases h

theorem some3_of {α β γ : Type} {x : Option (α × β × γ)} {d : α × β × γ} (h : x.isSome = true) :
    x = some ((x.getD d).1, (x.getD d).2.1, (x.getD d).2.2) := by
  cases x <;> first | rfl | cases h

/-- The device with its keep store ready and its sequencer in RUN; Bed 0 owns regions 0 to 3. -/
def dev : State :=
  let s : State := { State.reset with keep := { ready := true } }
  ((s.fset F.SEC_STATE_SEQ 4 0).fset F.SEC_BED_REGIONS_TABLE_REGIONS 0xF 0 0).wrN .TIER_QUOTA_NEAR 0xFFFF 0

/-- The same device, a long time later. -/
def late : State := { dev with time := { dev.time with hub := 0x0040000000000000 } }

/-- A command of the physical function. -/
def pfCmd (fields : List (Nat × Nat)) : Desc := { src := .mailbox 0 0, args := args fields }

/-- A command of the function of Bed 0. -/
def vfCmd (fields : List (Nat × Nat)) : Desc := { src := .mailbox 1 0, args := args fields }

/-- The state with a descriptor in flight. -/
def inFlight (s : State) (d : Desc) : State := { s with host := { s.host with inflight := [{ desc := d }] } }

/-- A home map that gives every bucket to node `n`. -/
def homesAt (n : Nat) : HomeMap :=
  { version := 1, renew := 10, lease := 1000, guardFt := 100, tombstone := 50, nodes := if n = 0 then [] else List.replicate 4096 n }

/-- Session 5 of Bed 0, in a state, owned by this node. -/
def owned (st : SesState) (own : Own := .confirmed) : Entry :=
  { sid := 5, state := st, own := own, isOwner := true, furrow := some 0, tier := .near, epoch := 1 }

/-- The home record of session 5. -/
def homed (st : SesState) (node : Nat) : Entry :=
  { sid := 5, state := st, isHome := true, ownerNode := node, epoch := 1, recEpoch := 1, recNode := node }

/-- A profile of Bed 0. -/
def plainProfile : Profile := { bed := 0, id := 0, bytes := List.replicate 1024 0, nextB := 0 }

/-- The device with a home map, a profile, a Furrow, quotas and one directory entry. -/
def ses (es : List Entry) (base : State := dev) (home : Nat := 0) : State :=
  { ((base.wrN .SES_QUOTA_DIR 8 0).wrN .SES_QUOTA_LIVE 8 0) with
    ses := { entries := es, map := some (homesAt home) }
    sch := { base.sch with profiles := [plainProfile] }
    smp := { base.smp with furrows := [{ num := 0, bed := 0, log2 := 8, base := 0, vector := 0, count := 1, delay := 0 }] } }

/-- A command about session 5. -/
def sesCmd (fields : List (Nat × Nat)) : Desc := { vfCmd fields with target := 5 }

/-- A PAUSED session in near memory with a backing set in CXL. -/
def backed (base : State := dev) (e : Entry := owned .paused) : State :=
  { ses [e] base with
    kv := { base.kv with seqs := [{ bed := 0, sid := 5, range := 1, region := 0 }] }
    tiers := { base.tiers with sets := [{ ix := 0, state := .backing, owner := 5, length := 1000000 }] } }

/-- An ownership message about session 5 under map version 1. -/
def ownMsg : OwnMsg := { sender := 3, seq := 9, sid := 5, epoch := 1, node := 3, mapVersion := 1 }

/-- The entry that an offer of session 5 makes. -/
def offered : Entry :=
  { sid := 5, state := .paused, own := .awaiting, isOwner := true, bed := 0, tier := .near, ownerNode := 0, epoch := 2
    furrow := some 0 }

/-- Node 0 offered session 5. -/
def armedDev : State :=
  { ses [] with ses := { (ses []).ses with armed := [(0, 5)] } }

/-- Session 5, PAUSED, its time-to-live ended. -/
def pausedOut : Entry := { owned .paused with expiry := 1 }

/-- A session whose time-to-live ended, which parks to its backing set. -/
def lapsing : State := (backed late pausedOut).wrN .SES_TTL_CXL 1000 0

/-- A profile table of R121 that keeps every range: ID 1, one layer, SHARE 50, PERIOD 240. -/
def profileBytes : List Byte :=
  image 256 [(0, 4, 0x4C465250), (4, 1, 1), (6, 2, 1), (12, 2, 1), (14, 1, 4), (15, 1, 1), (16, 2, 64), (18, 2, 64),
    (22, 1, 1), (26, 1, 50), (28, 4, 240), (40, 4, 480), (48, 2, 16), (130, 2, 0xFFFF), (132, 2, 0xFFFF), (134, 2, 1),
    (188, 2, 0xFFFF)]

/-- The profile it spells, at its boundary at sample 240. -/
def profile1 : Profile := { profileFrom 0 profileBytes with nextB := 240 }

/-- A vocabulary of one namespace. -/
def vocab : Table := { bed := 0, kind := 1, id := 0, version := 1, bytes := image 128 [(5, 1, 1), (68, 4, 2)] }

/-- A device with the vocabulary and with bytes at 0x1000 of host memory. -/
def withHost (bs : List Byte) (base : State := dev) : State :=
  { base with
    intake := { base.intake with tables := [vocab] }
    mem := { base.mem with host := Mem.writeBytes [] 0x1000 bs } }

/-- Byte memory that holds fields at an address, and zero elsewhere. -/
def cells (a : Nat) (fields : List (Nat × Nat × Nat)) : List Host.Cell :=
  (List.flatten (fields.map fun f => ((leBytes f.2.1 f.2.2).zipIdx (a + f.1)).map fun x => (x.2, x.1))).filter
    fun c => c.2 != 0

/-- A command of Bed 0 about session 5 whose buffer is `n` bytes at 0x1000 of host memory. -/
def bufCmd (n : Nat) (fields : List (Nat × Nat)) : Desc :=
  { sesCmd fields with addr0 := 0x4000000000001000, len0 := BitVec.ofNat 32 n }

/-- Session 5 in slot 0 under profile 1. -/
def slot0 : Slot := { ix := 0, sid := 5, profile := 1, bed := 0, region := 0, inFlight := true }

/-- An entry of two positions, its first position of layer 0 done. -/
def work5 (k : EntryKind := .decode) : Work :=
  { slot := 0, sid := 5, bed := 0, region := 0, profile := 1, kind := k, step := 0, base := 0
    toks := [{ token := 1 }, { token := 2 }], covered := 1, lastMsg := 0 }

/-- A LIVE session 5 with its slot and an entry in flight; node 3 is the step node of group 0. -/
def busy (w : Work) (base : State := dev) : State :=
  let s := ((ses [{ owned .live with profile := 1 }] base).fset F.LX_GROUP_STEP_VALID 1 0 0).fset F.LX_GROUP_STEP_NODE 3 0 0
  { s with
    sch := { profiles := [profile1], slots := [slot0], work := [w] }
    intake := { s.intake with tables := [vocab] } }

/-- The device with profile 1 at a boundary. -/
def atBoundary : State :=
  { dev with
    sch := { dev.sch with profiles := [profile1] }
    time := { dev.time with regions := List.replicate 16 { synced := true, count := ftOfSample 240 } } }

/-- A packet of one position for that entry. -/
def packet : LxHdr := { sender := 3, sid := 5, first := 1, count := 1, length := 768 }

/-- A part whose return can be sent. -/
def readyPart : Part := { layer := 0, first := 0, count := 1, sender := 3, ready := true }

/-- LENGTH and the header fields of a Graft table of rank 1 for one target of profile 1. -/
def graftLen : Nat := 64 + graftLayerBytes profile1 0 1 2
def graftFields : List (Nat × Nat × Nat) :=
  [(0, 4, 0x54465247), (4, 1, 1), (6, 1, 1), (7, 1, 2), (8, 2, 7), (10, 2, 1), (12, 4, 1), (20, 2, 1), (24, 4, graftLen)]

/-- A Graft with that header. -/
def graft7 : Graft := { bed := 0, id := 7, version := 1, table := image 64 graftFields }

/-- Bed 0 holds profile 1, the Graft and a CXL extent. -/
def grafted (base : State := dev) : State :=
  { (((busy (work5) base).wrN .LX_GRAFT_QUOTA 8 0).wrN .TIER_QUOTA_CXL 1000 0) with
    grafts := [graft7]
    sch := { (busy (work5) base).sch with work := [], slots := [] }
    tiers := { base.tiers with extents := [{ port := 0, ix := 0, off := 0, len := 0x40000000, owner := 0xFF, state := .active }] } }

/-- Bed 0 holds a sequence for a session. -/
def paged (q : Seq) (e : Entry := owned .live) (base : State := dev) : State :=
  { ses [e] base with kv := { base.kv with seqs := [q] } }

/-- The sequence of session 5. -/
def seq5 : Seq := { bed := 0, sid := 5, range := 1, region := 0 }

/-- Session 5 is being copied out and every piece is done. -/
def copied : State :=
  let q : Seq := { seq5 with copy := some { passes := 1 } }
  let m : Move :=
    { ix := 0, what := .session 5, cls := 4, bed := 0, region := 0, fromTier := 0, toTier := 1, dst := some 2, pieces := 1
      doneP := 1 }
  { paged q (owned .paused) with tiers := { dev.tiers with moves := [m] } }

/-- Mapping one granule of Bed 0. -/
def mapped : Nat × State :=
  let s := inFlight dev { vfCmd [(48, 0xFF)] with len0 := 16384 }
  let u := s.start { vfCmd [(48, 0xFF)] with len0 := 16384 }
  okD (State.mapGranules 0 none (u.granuleVas 0 0 16384) 0 u) (0, dev)

/-- The near memory that a smallest prefix table takes, and the state that has taken it. -/
def pfxTaken : List Nat × State :=
  let sized := (dev.fset F.KV_PFX_CTRL_LOG2_BUCKETS (F.KV_PFX_CTRL_LOG2_BUCKETS.get 0x80) 0).dropPfxTable 0
  (sized.takeObject 0 (sized.pfxBuckets 0 * 512) (sized.bedOrder 0)).getD ([], dev)

/-- The device with the bytes of that Graft in host memory, and the load of it. -/
def graftLoadCmd : Desc := bufCmd graftLen []
def graftHost : State :=
  inFlight ({ grafted with grafts := [], mem := { dev.mem with host := cells 0x1000 graftFields } }) graftLoadCmd
def graftStarted : State := graftHost.start graftLoadCmd
def graftTake : Option (List Nat × Option Nat × State) :=
  graftStarted.takeWhole ((dBed graftLoadCmd).getD 0) (graftStarted.buf0 graftLoadCmd).length

/-- LIVE session 5 in near memory: its sequence and its output context. -/
def talking (c : OutCtx := { bed := 0, sid := 5 }) (base : State := dev) : State :=
  { busy work5 base with
    kv := { base.kv with seqs := [seq5] }
    smp := { (busy work5 base).smp with ctxs := [c] } }

/-- Session 5 without an entry in flight. -/
def quiet (c : OutCtx := { bed := 0, sid := 5 }) (base : State := dev) : State :=
  { talking c base with sch := { (busy work5 base).sch with work := [], slots := [] } }

/-- LIVE session 5 under profile 1. -/
def live5 : Entry := { owned .live with profile := 1 }

/-- Input that waits for the tokenizer. -/
def input5 : Submit := { d := sesCmd [], sid := 5, records := [], begun := true, text := some ([], true) }

/-- A Furrow of 16 entries with its consumer two behind, and one that is full. -/
def furrow0 : Furrow := { num := 0, bed := 0, log2 := 4, base := 0, vector := 0, count := 1, delay := 1, used := 2, tail := 2, pending := 1 }
def fullFurrow : Furrow := { furrow0 with used := 16 }

/-- An entry for a Furrow. -/
def furEntry : FurEntry := { typ := 1 }

/-- An extent of CXL port 1, and a tensor set with a run in it. -/
def extent1 : Extent := { port := 1, ix := 63, off := 0, len := 0x40000000, owner := 0xFF, state := .active }
def set9 : TensorSet := { ix := 9, state := .backing, tier := 1, bed := 0, gen := 3, owner := 5, length := 4096, runs := [(1, 0, 36864)], expiry := 1 }

/-- A move. -/
def move4 : Move :=
  { ix := 4, what := .session 5, cls := 3, bed := 0, region := 0, fromTier := 1, toTier := 0, pieces := 2, doneP := 2 }

/-- The tiers hold an extent, a set and a move. -/
def tiered (base : State := dev) (es : List Extent := [extent1]) (ms : List Move := []) (ts : List TensorSet := [set9]) : State :=
  { base with tiers := { base.tiers with extents := es, sets := ts, moves := ms } }

/-- A stack whose sparing copies its last stripe. -/
def sparing (ptr : Nat) : State :=
  { dev with tiers := { dev.tiers with hbm := { spare := .copying, die := 2, ptr := ptr } :: List.replicate 15 {} } }

/-- A flash stack in a state. -/
def flashed (f : Flash) (base : State := dev) : State :=
  { base with flash := { base.flash with ctl := f :: List.replicate 7 {} } }

/-- A mapped block, and a copy of it in progress. -/
def block0 : LBlock := { lb := 8, kind := .image, fill := 10, phys := 0 }
def copy0 : FlashCopy := { lb := 8, op := .wear, move := 1, dest := 5, oldData := some 0, oldLog := none, pages := 10 }

/-- An output context that waits for its Furrow, and one whose backlog has gone out. -/
def backlogged : OutCtx := { bed := 0, sid := 5, backlog := [furEntry] }
def drainedDev : State :=
  { quiet { bed := 0, sid := 5, drained := 1 } with
    smp := { furrows := [furrow0], ctxs := [{ bed := 0, sid := 5, drained := 1 }] } }

/-- A committed decoder of four units on port 1. -/
def decodedDev : State := (dev.fset F.CXL_HDM_CTRL_COMMITTED 1 1 0).fset F.CXL_HDM_SIZE_SIZE 4 1 0

/-- A search table of one item: ID 2, DIM 32, DEGREE 8, SHARD_NAME 0x77, 512 bytes. -/
def indexFields : List (Nat × Nat × Nat) :=
  [(0, 4, 0x58444E49), (4, 1, 1), (7, 1, 1), (8, 2, 2), (10, 2, 32), (12, 4, 1), (16, 4, 1), (20, 1, 8), (28, 4, 0x77), (32, 8, 512)]
def version2 : VsVersion := { bed := 0, id := 2, version := 1, table := image 512 indexFields }
def index2 : VsIndex := { bed := 0, id := 2, share := [3], area := 0 }

/-- Bed 0 holds the index and queries. -/
def searching (qs : List VsQuery := []) (base : State := dev) : State :=
  { base with vs := { base.vs with versions := [version2], indexes := [index2], queries := qs } }

/-- A query record of INDEX 2, K 1, DIM 32; a query of a node, and one that waits for node 3. -/
def query64 : List Byte := image 64 [(0, 2, 2), (2, 2, 1), (8, 4, 16), (40, 2, 32)]
def query1 : VsQuery :=
  { ix := 1, bed := 0, id := 2, version := 1, dseq := 0, die := 0, walker := 0, rec64 := query64, vec := [], started := 0 }
def waiting1 : VsQuery := { query1 with remotes := [(3, 9)] }

/-- A request of node 3 for the index. -/
def vsMsg : VsMsg := { sender := 3, reqId := 9, shard := 0x77, payload := query64 }

/-- A job-key slot of Bed 0. -/
def key5 : KeySlot := { ix := 0, keyId := 5, owner := some 0 }

/-- Port 7 in a state. -/
def linked (st : Nat) (q : Port := {}) (base : State := dev) : State :=
  let s := (base.fset F.PLW_STATE_STATE st 7).fset F.PLW_CTRL_LANE_MASK 0xFF 7
  { s with plw := { s.plw with ports := List.replicate 7 {} ++ [q] } }

/-- A train block, a frame, a message that waits in a queue. -/
def train1 (ack : Bool) (majors : Nat) : Train :=
  { role := 1, node := 3, port := 2, lanes := 0xFF, rates := 3, majors := majors, minor1 := 2, minor2 := 0, ack := ack
    credits := List.replicate 8 100 }
def frame1 (good : Bool) : Frame :=
  { vc := 1, typ := 0x10, dest := 0, src := 3, lseq := 0, len := 64, msgLen := 64, good := good }
def egMsg : EgMsg :=
  { typ := 0x10, vc := 1, dest := 3, bed := some 0, msgId := 1, flow := 0, key := none, len := 64, queued := 0 }
def rxCtx : RxCtx :=
  { src := 3, typ := 0x10, vc := 1, msgId := 1, flow := 0, key := 0, msgLen := 9000, next := 1, got := 4096, last := 0 }

/-- A piece of the image of session 5, and its sender's record. -/
def img (offset len total : Nat) : ImgMsg :=
  { object := 0, sender := 3, sid := 5, epoch := 1, offset := offset, total := total, len := len }
def imgTx : ImgTx :=
  { sid := 5, epoch := 1, dest := 3, bed := 0, image := 4096, trx := 64, advanced := 0, resent := 0 }
def sendingImg (t : ImgTx) (base : State := dev) : State := { base with plw := { base.plw with tx := [t] } }

/-- A shard copy being sent. -/
def ckTx1 : CkTx := { dest := 3, ckpt := 6, bed := 0, cur := 0, ack := 0, advanced := 0, resent := 0 }

/-- How a message's key asks for its next mark. -/
def asksMark (v : State) (m : OutMsg) : State := match v.sendKey m with | some k => v.askMark k | none => v

/-- The load of a search index: a new version of one, and a first version. -/
def vsLoadCmd : Desc := bufCmd 512 []
def vsAgain : State :=
  inFlight ({ searching with mem := { dev.mem with host := cells 0x1000 (indexFields.set 5 (12, 4, 2)) } }) vsLoadCmd
def vsFirst : State := inFlight ({ dev with mem := { dev.mem with host := cells 0x1000 indexFields } }) vsLoadCmd
/-- What the load takes of near memory. -/
def vsTaken (s : State) : Option (List Nat × Option Nat × State) :=
  let u := s.start vsLoadCmd
  u.vsTake ((dBed vsLoadCmd).getD 0) (u.buf0 vsLoadCmd).length
    (u.vsIndex? ((dBed vsLoadCmd).getD 0) (vtId (u.buf0 vsLoadCmd))).isNone

/-- An export of Bed 0: 4,096 bytes, coherent, for node 3. -/
def export1 : Export := { bed := 0, ix := 1, gen := 0, start := 0, len := 4096, mode := 2, importers := [3], region := 0 }
def exporting (e : Export := export1) (base : State := dev) : State :=
  { base with exp := { base.exp with exports := [e], names := [{ bed := 0, name := 7, ix := 1, offset := 0, length := 64, version := 1, digest := 0 }] } }

/-- A memory message of node 3 for the first line of that export. -/
def mrMsg : MrMsg := { sender := 3, bed := 0, target := 1, reqId := 8, length := 64 }

/-- A recall without an answer. -/
def recall1 : Recall := { id := 8, node := 3, line := 0, count := 1, since := 0 }
def recalled : Export := { export1 with recalls := [recall1], held := [(0, 3)] }

/-- A remote copy whose piece waits for node 3. -/
def copyCmd (dir : Nat) : Desc := vfCmd [(48, dir), (50, 3)]
def copyPiece : W32 × CopyPiece × W64 := (8, { off := 0, len := 64, poison := false }, 0)
def remote (dir : Nat) : RemoteCopy := { d := copyCmd dir, bed := 0, left := [], out := [copyPiece] }
def copying (dir : Nat) (base : State := dev) : State := { base with exp := { base.exp with copies := [remote dir] } }

/-- A granule of Bed 0 in region 0 that is to move to region 1, and the frame it takes. -/
def granule0 : Granule := { bed := 0, va := 0, pa := plotPa 0 36 0 }
def migrating : State :=
  { dev with exp := { dev.exp with migrate := [(0, 0, [0, 1])] }, mem := { dev.mem with granules := [granule0] } }
def settled : State := { migrating with exp := { migrating.exp with migrate := migrating.exp.migrate.erase (0, 0, [0, 1]) } }
def movedTo : Nat × State := (settled.takeAlong 0 .granules (settled.granule 0) [1]).getD (0, dev)

/-- Bed 0 armed for job 4 with this node as its coordinator. -/
def arm0 : CkArm := { bed := 0, job := 4, coord := 0, profile := 1, dest := 0, orch := 3, d := vfCmd [], parts := [(0, 0)] }
def part0 : CkPart :=
  { bed := 0, ckpt := 6, job := 4, cut := 0x100000000, deadline := 0x200000000, evict := false, coord := 0 }
def round0 : CkRound := { bed := 0, ckpt := 6, cut := 0, deadline := 0, evict := false }
def stored0 (manifest : Bool) : CkStored := { bed := 0, ckpt := 6, manifest := manifest, place := 1, set := none, bytes := [1, 2, 3] }
def staged0 : CkStaged := { bed := 0, since := 0, sessions := [] }
def ckDev (c : Ck) (base : State := dev) : State := { base with ck := c }

/-- A message of node 3 about checkpoint 6 of Bed 0. -/
def ckMsg : CkMsg := { sender := 3, ckpt := 6, job := 4 }

/-- A manifest entry of Bed 0, and a manifest of one entry with its digest. -/
def doneEntry : List Byte := image 64 []
def manifest1 : List Byte :=
  let body := image 192 [(0, 4, 0x54534E4D), (4, 1, 1), (22, 2, 1)]
  body ++ sha256 body

/-- A restore of Bed 0 that fetches a shard of node 3. -/
def restore0 : CkRestore := { bed := 0, d := vfCmd [], manifest := image 192 [(8, 8, 6)], items := [(0, 2, 3, 0)] }

/-- A profile of two layers, and session 5 whose image is pulled in. -/
def profile2 : Profile := { plainProfile with bytes := image 256 [(12, 2, 2)] }
def stSes5 : CkStSes := { sid := 5, epoch := 1, profile := 0, graft := none, furrow := 0, position := 0 }
def pullingDev : State :=
  let s := paged { seq5 with pull := some 0 } (owned .paused)
  { s with sch := { s.sch with profiles := [profile2] }, ck := { s.ck with pulls := [stSes5] } }

/-- The device with its security part changed. -/
def secured (f : Sec → Sec) (base : State := dev) : State := { base with sec := f base.sec }

/-- A fault record, and the device with it. -/
def fault9 : FaultRec := { seq := 9 }
def faulted : State := { dev with flt := { dev.flt with log := [fault9] } }

/-- A staged trace record. -/
def traceRec : TraceRec := { ft := 0, rings := [0], bytes := [] }

/-- The device without power, or held in power-on reset. -/
def supplyAt (x : Supply) : State := { State.reset with pow := { State.reset.pow with supply := x } }

/-- An access that reaches no register, and a read-clear register's. -/
def hole : Access32 := { fn := 0, bar := .bar0, off := 0xFFFFC }

/-- A Bed that a C3 fault stopped. -/
def stoppedBed : State := { dev with flt := { dev.flt with fatalBeds := [0] } }

/-- A fence of ring 1 of Bed 0 that waits for a NOP, a NOP behind it. -/
def ringNop (tag : W16) (fence : Bool) : Desc := { src := .ring 1 2 0, tag := tag, flags := if fence then 2 else 0 }

/-- The device in the safe state. -/
def safeDev : State := { dev with flt := { dev.flt with safe := true } }

/-- A NOP, and an SMP_STOP_SET whose buffer lies on a poisoned line of buffer space. -/
def nopCmd : Desc := { vfCmd [] with opcode := 0x0020 }
def stopCmd : Desc := { vfCmd [] with opcode := 0x0603, len0 := 512 }
def poisonedDev : State :=
  { dev with mem := { dev.mem with granules := [{ bed := 0, va := 0, pa := 0x8000000 }], poison := [0x200000] } }

/-! ## Well-formedness: for each check, a term that it refuses -/

theorem test_wf_descriptor : Instr.wf (.nop { src := .mailbox 0 0, opcode := 0x0020 }) = true ∧
    Instr.wf (.nop { src := .mailbox 0 0, opcode := 0x0030 }) = false ∧
    Instr.wf (.nop { src := .ring 1 2 65536, opcode := 0x0020 }) = false ∧
    Instr.wf (.sesOpen { src := .mailbox 1 0, opcode := 0x0101 }) = false ∧
    Instr.wf (.ctrSnapshot { src := .mailbox 1 0, opcode := 0x0F00 }) = false := by decide

theorem test_wf_access : Instr.wf (.pairLowerRead { fn := 0, bar := .bar0, off := 0x3FFFFFC }) = true ∧
    Instr.wf (.pairLowerRead { fn := 0, bar := .bar0, off := 2 }) = false ∧
    Instr.wf (.registerWrite { fn := 0, bar := .bar0, off := 0x4000000 } 0) = false ∧
    Instr.wf (.rcRead { fn := 1, bar := .bar0, off := 0x100000 } 0) = false ∧
    Instr.wf (.w1cWrite { fn := 1, bar := .bar2, off := 0x20000 } 0 0) = false := by decide

theorem test_wf_time_message : Instr.wf (.beacon 0 ⟨1, 255, 511, 0, 0, 0, 65535⟩) = true ∧
    Instr.wf (.beacon 0 ⟨256, 0, 0, 0, 0, 0, 0⟩) = false ∧ Instr.wf (.beacon 0 ⟨1, 256, 0, 0, 0, 0, 0⟩) = false ∧
    Instr.wf (.delayResponse ⟨1, 0, 512, 0, 0, 0, 0⟩) = false ∧ Instr.wf (.delayResponse ⟨1, 0, 0, 0, 0, 0, 65536⟩) = false := by
  decide

theorem test_wf_ownership_message : Instr.wf (.offer {}) = true ∧ Instr.wf (.offer { code := 256 }) = false ∧
    Instr.wf (.claim { sender := 512 }) = false ∧ Instr.wf (.answer { node := 65536 }) = false ∧
    Instr.wf (.trxAppend { position := 2 ^ 32 }) = false := by decide

theorem test_wf_layer_header : Instr.wf (.lxLayer { length := 1 } [0]) = true ∧ Instr.wf (.lxLayer { length := 2 } [0]) = false ∧
    Instr.wf (.lxLogits { length := 1 } []) = false ∧ LxHdr.wf { version := 256 } = false ∧ LxHdr.wf { code := 256 } = false ∧
    LxHdr.wf { sender := 512 } = false ∧ LxHdr.wf { slot := 65536 } = false ∧ LxHdr.wf { step := 2 ^ 40 } = false ∧
    LxHdr.wf { layer := 65536 } = false ∧ LxHdr.wf { first := 65536 } = false ∧ LxHdr.wf { count := 65536 } = false ∧
    LxHdr.wf { length := 2 ^ 32 } = false := by decide

theorem test_wf_search_message : Instr.wf (.vsReq { sender := 511, reqId := 0, shard := 0 }) = true ∧
    Instr.wf (.vsReq { sender := 512, reqId := 0, shard := 0 }) = false ∧
    Instr.wf (.vsResp { version := 256, sender := 0, reqId := 0, shard := 0 }) = false ∧
    Instr.wf (.vsResp { code := 256, sender := 0, reqId := 0, shard := 0 }) = false := by decide

theorem test_wf_memory_message : Instr.wf (.mrRead { sender := 511, bed := 255, target := 0 } none) = true ∧
    MrMsg.wf { sender := 512, bed := 0, target := 0 } = false ∧ MrMsg.wf { sender := 0, bed := 256, target := 0 } = false ∧
    MrMsg.wf { version := 256, sender := 0, bed := 0, target := 0 } = false ∧
    MrMsg.wf { code := 256, sender := 0, bed := 0, target := 0 } = false ∧
    MrMsg.wf { sender := 0, bed := 0, target := 0, offset := 2 ^ 64 } = false ∧
    Instr.wf (.mrResp { sender := 0, bed := 0, target := 0, length := 2 ^ 32 }) = false := by decide

theorem test_wf_checkpoint_message : Instr.wf (.ckNotice { ckpt := 0 }) = true ∧ Instr.wf (.ckNotice { ckpt := 0, code := 256 }) = false ∧
    Instr.wf (.ckData { ckpt := 0, sender := 512 }) = false ∧ Instr.wf (.ckCommit { ckpt := 0, bed := 256 }) = false ∧
    Instr.wf (.ckDataEnd { ckpt := 0, offset := 2 ^ 64 }) = false := by decide

theorem test_wf_image_message : Instr.wf (.imgData { object := 1, sender := 511, sid := 0, epoch := 0, offset := 0, total := 0 }) = true ∧
    Instr.wf (.imgData { object := 2, sender := 0, sid := 0, epoch := 0, offset := 0, total := 0 }) = false ∧
    Instr.wf (.imgAck { object := 0, sender := 512, sid := 0, epoch := 0, offset := 0, total := 0 }) = false ∧
    ImgMsg.wf { object := 0, sender := 0, sid := 0, epoch := 0, offset := 2 ^ 64, total := 0 } = false ∧
    ImgMsg.wf { object := 0, sender := 0, sid := 0, epoch := 0, offset := 0, total := 2 ^ 64 } = false ∧
    ImgMsg.wf { object := 0, sender := 0, sid := 0, epoch := 0, offset := 0, total := 0, len := 2 ^ 24 } = false := by decide

/-- A frame of one byte. -/
def wfFrame : Frame := { vc := 0, typ := 0x22, dest := 0, src := 0, lseq := 0, len := 1, msgId := 0, msgLen := 1 }

theorem test_wf_frame : Instr.wf (.frameReceive 0 wfFrame) = true ∧ Frame.wf { wfFrame with vc := 8 } = false ∧
    Frame.wf { wfFrame with typ := 256 } = false ∧ Frame.wf { wfFrame with dest := 512 } = false ∧
    Frame.wf { wfFrame with src := 512 } = false ∧ Frame.wf { wfFrame with lseq := 65536 } = false ∧
    Instr.wf (.frameReceive 0 { wfFrame with len := 4097 }) = false ∧ Frame.wf { wfFrame with seg := 16384 } = false ∧
    Frame.wf { wfFrame with flow := 65536 } = false ∧ Frame.wf { wfFrame with msgLen := 0 } = false ∧
    Frame.wf { wfFrame with msgLen := 16777217 } = false := by decide

/-- A train block of a leaf. -/
def wfTrain : Train :=
  { role := 1, node := 5, port := 0, lanes := 16, rates := 1, majors := 1, minor1 := 0, minor2 := 0, ack := true,
    credits := List.replicate 8 4 }

theorem test_wf_train : Instr.wf (.trainBlock 0 wfTrain) = true ∧ Train.wf { wfTrain with role := 256 } = false ∧
    Train.wf { wfTrain with node := 65536 } = false ∧ Train.wf { wfTrain with port := 256 } = false ∧
    Train.wf { wfTrain with lanes := 256 } = false ∧ Train.wf { wfTrain with rates := 256 } = false ∧
    Train.wf { wfTrain with majors := 256 } = false ∧ Train.wf { wfTrain with minor1 := 256 } = false ∧
    Train.wf { wfTrain with minor2 := 256 } = false ∧ Instr.wf (.trainBlock 0 { wfTrain with credits := [1] }) = false ∧
    Train.wf { wfTrain with credits := 65536 :: List.replicate 7 0 } = false := by decide

theorem test_wf_control_block : Instr.wf (.linkControlBlock 0 ⟨false, 0, List.replicate 8 0, true⟩) = true ∧
    Instr.wf (.linkControlBlock 0 ⟨false, 65536, List.replicate 8 0, true⟩) = false ∧
    Instr.wf (.linkControlBlock 0 ⟨true, 0, [], true⟩) = false ∧
    Instr.wf (.linkControlBlock 0 ⟨true, 0, 65536 :: List.replicate 7 0, true⟩) = false := by decide

theorem test_wf_detection : Instr.wf (.faultDetect { source := 1, bed := some 15 }) = true ∧
    Instr.wf (.faultDetect { source := 65536 }) = false ∧ Detect.wf { source := 1, level := 5 } = false ∧
    Detect.wf { source := 1, bed := some 16 } = false ∧ Detect.wf { source := 1, location := 65536 } = false ∧
    Detect.wf { source := 1, space := 7 } = false ∧ Detect.wf { source := 1, access := 6 } = false ∧
    Detect.wf { source := 1, master := 65536 } = false := by decide

theorem test_wf_test_end : Instr.wf (.unitTestComplete (.unit 1023 true)) = true ∧
    Instr.wf (.unitTestComplete (.unit 1024 true)) = false ∧ Instr.wf (.unitTestComplete (.region 16 [])) = false ∧
    Instr.wf (.unitTestComplete (.region 0 [64])) = false := by decide

theorem test_wf_small_operands : Instr.wf (.imgGiveUp (.shard 512 0 0)) = false ∧ Instr.wf (.imgResendTimer (.shard 0 0 16)) = false ∧
    Instr.wf (.replicaWordLoss (.region 16)) = false ∧ Instr.wf (.replicaWordLoss (.die 4)) = false ∧
    wrongWf (15, 15) = true ∧ Instr.wf (.tdispRequest 0 (.lock 256)) = false ∧
    Instr.wf (.supplyDroop 0 1801) = false ∧ Instr.wf (.zeroize []) = false := by decide

theorem test_wf_stripes : (∀ r x, Instr.wf (.rakeStripe r x [(15, 15)]) = true) ∧
    (∀ r x, Instr.wf (.rakeStripe r x [(16, 0)]) = false) ∧ (∀ r x, Instr.wf (.spareStripeCopy r x [(0, 16)]) = false) :=
  ⟨fun _ _ => rfl, fun _ _ => rfl, fun _ _ => rfl⟩

/-! ## One step -/

/-- R67, R68: opcode 0x0020 is NOP, 0x0F01 CTR_SNAPSHOT, 0x0100 SES_OPEN; the opcode stands in bytes 0 and 1 of the descriptor. -/
theorem test_opcode_nop : commandOf (dParse (.mailbox 0 0) (0x20 :: List.replicate 63 0)) = some (.nop { src := .mailbox 0 0, opcode := 0x20 }) := by
  decide +kernel

theorem test_opcode_ctr_snapshot : (commandOf (dParse (.mailbox 0 0) (0x01 :: 0x0F :: List.replicate 62 0))).bind
    (fun c => (c.desc?).map Prod.snd) = some 0x0F01 := by decide +kernel

theorem test_opcode_unknown : commandOf (dParse (.mailbox 0 0) (0xFF :: 0xFF :: List.replicate 62 0)) = none := by decide +kernel

/-- FIPS 180-4, example of one block: SHA-256 of the bytes 61 62 63. -/
theorem test_sha256_abc : (sha256 [0x61, 0x62, 0x63]).take 4 = [0xBA, 0x78, 0x16, 0xBF] := by decide +kernel

/-- The outcome of a command, read through `f`. -/
def after {α : Type} (c : Instr) (s : State) (f : State → α) : Option α :=
  match exec c s with
  | .next t => some (f t)
  | _ => none

/-- R73: a NOP in a mailbox clears BUSY. -/
theorem test_nop_clears_busy :
    after (.nop (vfCmd [])) (inFlight (dev.fset F.MB_STATUS_BUSY 1 1 0) (vfCmd [])) (fun t => t.fget F.MB_STATUS_BUSY 1 0) = some 0 := by
  decide +kernel

/-- R11: a read of an offset that holds no register returns zero. -/
theorem test_hole_reads_zero :
    after (.pairLowerRead hole) { dev with bus := { dev.bus with readData := 7 } } (fun t => t.bus.readData) = some 0 := by decide +kernel

/-- R49: 64 hub clocks advance Frame Time while the device is on, and nothing advances it without power. -/
theorem test_time_needs_power : after (.timeWord 64) (supplyAt .off) (fun t => t.now) = some (supplyAt .off).now := by decide +kernel

/-- R463: in the safe state a session is not opened. -/
theorem test_safe_opens_nothing :
    after (.sesOpen { vfCmd [] with target := 5 }) (inFlight safeDev { vfCmd [] with target := 5 }) (fun t => t.ses.entries.length) =
      some 0 := by decide +kernel

/-- R462: a command of a Bed that a C3 fault stopped completes, and leaves the engine. -/
theorem test_stopped_bed_completes :
    after (.nop (vfCmd [])) (inFlight stoppedBed (vfCmd [])) (fun t => t.host.inflight.length) = some 0 := by decide +kernel

/-- R278: no wrong symbol is clean; four are corrected; a whole die returned wrong is found as that die in every line; two dies are
past correction. -/
theorem test_stripe_decoding : let k : Stack := {}
    k.find 0 [] 0 = .clean ∧ k.find 0 [(0, 0), (0, 3), (1, 2), (2, 1)] 0 = .outer ∧
    (List.range 3).map (fun j => k.find 0 ((List.range 16).map fun o => (7, o)) j) = [.die 7, .die 7, .die 7] ∧
    k.find 0 ((List.range 16).flatMap fun o => [(7, o), (9, o)]) 2 = .bad := by decide +kernel

/-- An empty queue idles; a queue with a NOP gives it up. -/
theorem test_queue_pops : (match step { State.reset with pending := [.stepNow, .healthRead] } with
    | .next t => t.pending | _ => []) = [.healthRead] := by decide +kernel

/-! ## Witnesses: for every statement with hypotheses, a state and operands that meet them -/

theorem witness_TimeExchangeRuns_0 : ∃ s : State, ∃ p : Fin 8, ∃ m : TimeMsg,
    (s.active = true) ∧ (s.timeFits m = true) ∧ (s.timePort = some p.val) ∧ (s.time.exch = none) :=
  ⟨(dev.fset F.FT_REF_PORT_MASK_MASK 2 0).fset F.PLW_STATE_STATE 3 1, 1, { version := 1, domain := 0, sender := 0, seq := 7, time := 5, corr := 0, target := 0 }, by decide +kernel, by decide +kernel, by decide +kernel, by decide +kernel⟩

theorem witness_TimeExchangeRuns_1 : ∃ s : State, ∃ x : Exchange,
    (s.active = true) ∧ (s.time.exch = some x) ∧ (x.t3 = none) :=
  ⟨{ dev with time := { dev.time with exch := some { port := 1, seq := 7, t1 := 1, t2 := 2, corr := 0 } } }, { port := 1, seq := 7, t1 := 1, t2 := 2, corr := 0 }, by decide +kernel, by decide +kernel, by decide +kernel⟩

theorem witness_TimeExchangeRuns_2 : ∃ s : State, ∃ m : TimeMsg, ∃ x : Exchange, ∃ t3 : W64,
    (s.active = true) ∧ (s.time.exch = some x) ∧ (x.t3 = some t3) ∧ (s.timeFits m = true) ∧ (m.target = s.node) ∧ (m.seq = x.seq) ∧ (ftLater (s.dieFt (x.port / 2)) (ftAdd t3 48) = false) :=
  ⟨{ dev with time := { dev.time with exch := some { port := 1, seq := 7, t1 := 1, t2 := 2, corr := 0, t3 := some 3 } } }, { version := 1, domain := 0, sender := 0, seq := 7, time := 5, corr := 0, target := 0 }, { port := 1, seq := 7, t1 := 1, t2 := 2, corr := 0, t3 := some 3 }, 3, by decide +kernel, by decide +kernel, by decide +kernel, by decide +kernel, by decide +kernel, by decide +kernel, by decide +kernel⟩

theorem witness_TimeExchangeRuns_3 : ∃ s : State, ∃ x : Exchange, ∃ t3 : W64,
    (s.active = true) ∧ (s.time.exch = some x) ∧ (x.t3 = some t3) ∧ (ftReached (s.dieFt (x.port / 2)) (ftAdd t3 48) = true) :=
  ⟨{ dev with time := { dev.time with exch := some { port := 1, seq := 7, t1 := 1, t2 := 2, corr := 0, t3 := some 3 }, dies := List.replicate 4 { count := 0x40000000 } } }, { port := 1, seq := 7, t1 := 1, t2 := 2, corr := 0, t3 := some 3 }, 3, by decide +kernel, by decide +kernel, by decide +kernel, by decide +kernel⟩

theorem witness_TimeExchangeRuns_4 : ∃ s : State, ∃ _ : W64,
    (s.active = true) ∧ (s.fget F.FT_CTRL_SOURCE 0 = 1) :=
  ⟨dev.fset F.FT_CTRL_SOURCE 1 0, 9, by decide +kernel, by decide +kernel⟩

theorem witness_HubTimeRuns_0 : ∃ s : State,
    (s.active = true) ∧ (s.time.slew ≠ 0) ∧ (s.freq ≠ s.applied) :=
  ⟨{ dev with time := { dev.time with slew := 5 } }, by decide +kernel, by decide +kernel, by decide +kernel⟩

theorem witness_HubTimeRuns_1 : ∃ s : State,
    (s.active = true) ∧ (ftReached s.now (ftAdd s.time.lastDone (48 * max 1 (s.rdN .FT_BEACON_TIMEOUT 0))) = true) ∧ (s.ftState = Fs.acquiring) :=
  ⟨late.fset F.FT_STATUS_STATE Fs.acquiring 0, by decide +kernel, by decide +kernel, by decide +kernel⟩

theorem witness_HubTimeRuns_2 : ∃ s : State,
    (s.active = true) ∧ (ftReached s.now (ftAdd s.time.lastDone (48 * max 1 (s.rdN .FT_BEACON_TIMEOUT 0))) = true) ∧ (s.ftState = Fs.locked) :=
  ⟨late.fset F.FT_STATUS_STATE Fs.locked 0, by decide +kernel, by decide +kernel, by decide +kernel⟩

theorem witness_HubTimeRuns_3 : ∃ s : State,
    (s.active = true) ∧ (s.ftState = Fs.holdover) ∧ (ftReached s.now (ftAdd s.time.since (s.rdN .FT_HOLDOVER_LIMIT 0)) = true) :=
  ⟨late.fset F.FT_STATUS_STATE Fs.holdover 0, by decide +kernel, by decide +kernel, by decide +kernel⟩

theorem witness_HubTimeRuns_4 : ∃ s : State, ∃ v : Fin 4,
    (s.active = true) ∧ (s.fget F.FT_CTRL_SOURCE 0 ≠ v.val) :=
  ⟨dev, 1, by decide +kernel, by decide +kernel⟩

theorem witness_HubTimeRuns_5 : ∃ s : State,
    (s.active = true) ∧ (∃ offset, offset = ((BitVec.ofNat 64 (s.rd64 .FT_OFFSET_LO .FT_OFFSET_HI 0)).toInt) ∧ (offset ≤ 0 ∨ s.serving = false)) :=
  ⟨dev, by decide +kernel, _, rfl, by decide +kernel⟩

theorem witness_HubTimeRuns_6 : ∃ s : State,
    (s.active = true) ∧ (∃ offset, offset = ((BitVec.ofNat 64 (s.rd64 .FT_OFFSET_LO .FT_OFFSET_HI 0)).toInt) ∧ (0 < offset) ∧ (s.serving = true)) :=
  ⟨(dev.wrN .FT_OFFSET_LO 5 0).fset F.IF_STATE_OPEN 1 0, by decide +kernel, _, rfl, by decide +kernel, by decide +kernel⟩

theorem witness_HubTimeRuns_7 : ∃ s : State, ∃ _ : Nat,
    (s.pow.supply = .on) :=
  ⟨dev, 16777216, by decide +kernel⟩

theorem witness_RegionClockRuns_0 : ∃ s : State, ∃ _ : Nat,
    (s.active = true) :=
  ⟨dev, 3, by decide +kernel⟩

theorem witness_RegionClockRuns_1 : ∃ s : State, ∃ _ : Nat,
    (s.active = true) :=
  ⟨dev, 1, by decide +kernel⟩

theorem witness_RegionClockRuns_2 : ∃ s : State, ∃ r : Fin 16,
    (s.active = true) ∧ (s.fget F.RGN_CLK_STATUS_RESYNC_PENDING r = 1) :=
  ⟨dev.fset F.RGN_CLK_STATUS_RESYNC_PENDING 1 15, 15, by decide +kernel, by decide +kernel⟩

theorem witness_RegionClockRuns_3 : ∃ s : State, ∃ _ : Fin 16, ∃ _ : Bool,
    (s.active = true) :=
  ⟨dev, 0, true, by decide +kernel⟩

theorem witness_RegionClockRuns_4 : ∃ s : State, ∃ r : Fin 16,
    (s.active = true) ∧ (s.fget F.RGN_CLK_CTRL_GATE_REQ r = 1) ∧ (s.fget F.RGN_CLK_STATUS_STOPPED r = 0) ∧ (s.fget F.RGN_CLK_STATUS_RESYNC_PENDING r = 0) ∧ (s.quiescent r = true) :=
  ⟨dev.fset F.RGN_CLK_CTRL_GATE_REQ 1 15, 15, by decide +kernel, by decide +kernel, by decide +kernel, by decide +kernel, by decide +kernel⟩

theorem witness_RegionClockRuns_5 : ∃ s : State, ∃ r : Fin 16,
    (s.active = true) ∧ (s.fget F.RGN_CLK_STATUS_STOPPED r = 1) :=
  ⟨dev.fset F.RGN_CLK_STATUS_STOPPED 1 0, 0, by decide +kernel, by decide +kernel⟩

theorem witness_RegionClockRuns_6 : ∃ s : State, ∃ r : Fin 16, ∃ mhz : Nat,
    (s.active = true) ∧ (s.fget F.RGN_CLK_STATUS_STOPPED r = 0) ∧ (1200 ≤ mhz) ∧ (mhz ≤ 1800) :=
  ⟨dev, 4, 1200, by decide +kernel, by decide +kernel, by decide +kernel, by decide +kernel⟩

theorem witness_RegionClockRuns_7 : ∃ s : State, ∃ r : Fin 16, ∃ mhz : Nat,
    (s.active = true) ∧ (s.fget F.RGN_CLK_STATUS_STOPPED r = 0) ∧ (mhz < 1200) :=
  ⟨dev, 4, 1199, by decide +kernel, by decide +kernel, by decide +kernel⟩

theorem witness_RegisterAccessRuns_0 : ∃ s : State, ∃ a : Access32, ∃ r : Reg, ∃ up : RN,
    (s.active = true) ∧ (s.admits a = true) ∧ (s.locate a = .reg r) ∧ (r.name.upper = some up) ∧ (s.freeView r = false) ∧ (s.freeView { r with name := up } = false) :=
  ⟨dev, { fn := 0, bar := .bar0, off := 0xA0010 }, ⟨.CXL_IO_ADDR_LO, 0, 0⟩, .CXL_IO_ADDR_HI, by decide +kernel, by decide +kernel, by decide +kernel, by decide +kernel, by decide +kernel, by decide +kernel⟩

theorem witness_RegisterAccessRuns_1 : ∃ s : State, ∃ a : Access32, ∃ _ : W32, ∃ r : Reg,
    (s.active = true) ∧ (s.admits a = true) ∧ (s.locate a = .reg r) ∧ (r.name.upper.isSome = true) ∧ (r.name.writeMask ≠ 0) :=
  ⟨dev, { fn := 0, bar := .bar0, off := 0xA0010 }, 1, ⟨.CXL_IO_ADDR_LO, 0, 0⟩, by decide +kernel, by decide +kernel, by decide +kernel, by decide +kernel, by decide +kernel⟩

theorem witness_RegisterAccessRuns_2 : ∃ s : State, ∃ a : Access32, ∃ _ : W32, ∃ r : Reg, ∃ low : RN,
    (s.active = true) ∧ (s.admits a = true) ∧ (s.locate a = .reg r) ∧ (r.name.lower = some low) ∧ (r.name.writeMask ≠ 0) ∧ (low ≠ .FT_HOST_LO) ∧ (low ≠ .TRC_BASE_LO) :=
  ⟨dev, { fn := 0, bar := .bar0, off := 0xA0014 }, 1, ⟨.CXL_IO_ADDR_HI, 0, 0⟩, .CXL_IO_ADDR_LO, by decide +kernel, by decide +kernel, by decide +kernel, by decide +kernel, by decide +kernel, by decide +kernel, by decide +kernel⟩

theorem witness_RegisterAccessRuns_3 : ∃ s : State, ∃ a : Access32, ∃ _ : W32, ∃ r : Reg, ∃ low : RN, ∃ q,
    (s.active = true) ∧ (s.admits a = true) ∧ (s.locate a = .reg r) ∧ (r.name.lower = some low) ∧ (r.name.writeMask ≠ 0) ∧ (low ≠ .FT_HOST_LO) ∧ (low ≠ .TRC_BASE_LO) ∧ (q ≠ r) ∧ (q ≠ { r with name := low }) :=
  ⟨dev, { fn := 0, bar := .bar0, off := 0xA0014 }, 1, ⟨.CXL_IO_ADDR_HI, 0, 0⟩, .CXL_IO_ADDR_LO, ⟨.HUB_BOOT, 0, 0⟩, by decide +kernel, by decide +kernel, by decide +kernel, by decide +kernel, by decide +kernel, by decide +kernel, by decide +kernel, by decide +kernel, by decide +kernel⟩

theorem witness_RegisterAccessRuns_4 : ∃ s : State, ∃ a : Access32, ∃ _ : W32, ∃ r : Reg,
    (s.active = true) ∧ (s.admits a = true) ∧ (s.locate a = .reg r) ∧ (r.name.upper = none) ∧ (r.name.lower = none) ∧ (r.name.rcMask ≠ 0) ∧ (s.freeView r = false) :=
  ⟨dev, { fn := 0, bar := .bar0, off := 0x5000C }, 1, ⟨.JRN_COALESCE, 0, 0⟩, by decide +kernel, by decide +kernel, by decide +kernel, by decide +kernel, by decide +kernel, by decide +kernel, by decide +kernel⟩

theorem witness_RegisterAccessRuns_5 : ∃ s : State, ∃ a : Access32, ∃ _ : W32, ∃ _ : W32, ∃ r : Reg,
    (s.active = true) ∧ (s.admits a = true) ∧ (s.locate a = .reg r) ∧ ((r.name.maskOf fun i => i.acc == .w1c) ≠ 0) :=
  ⟨dev, { fn := 0, bar := .bar0, off := 0x50008 }, 1, 1, ⟨.JRN_STATUS, 0, 0⟩, by decide +kernel, by decide +kernel, by decide +kernel, by decide +kernel⟩

theorem witness_RegisterAccessRuns_6 : ∃ s : State, ∃ a : Access32, ∃ _ : W32, ∃ r : Reg, ∃ st : Reg,
    (s.active = true) ∧ (s.admits a = true) ∧ (s.locate a = .reg r) ∧ (r.governed = some st) :=
  ⟨dev, { fn := 0, bar := .bar0, off := 0x4000C }, 1, ⟨.FLT_ENABLE, 0, 0⟩, ⟨.FLT_STATUS, 0, 0⟩, by decide +kernel, by decide +kernel, by decide +kernel, by decide +kernel⟩

theorem witness_RegisterAccessRuns_7 : ∃ s : State, ∃ a : Access32, ∃ _ : W32, ∃ r : Reg,
    (s.active = true) ∧ (s.admits a = true) ∧ (s.locate a = .reg r) ∧ (s.plainFields r ≠ 0) ∧ (plwClass r.name = none) ∧ (r.name ≠ .RING_CQ) :=
  ⟨dev, { fn := 0, bar := .bar0, off := 0x2001C }, 1, ⟨.FT_REF_PORT_MASK, 0, 0⟩, by decide +kernel, by decide +kernel, by decide +kernel, by decide +kernel, by decide +kernel, by decide +kernel⟩

theorem witness_RegisterAccessRuns_8 : ∃ s : State, ∃ a : Access32, ∃ _ : W32,
    (s.active = true) ∧ (s.admits a = true) ∧ (s.locate a = .nothing) :=
  ⟨dev, { fn := 0, bar := .bar0, off := 0xC0000 }, 1, by decide +kernel, by decide +kernel, by decide +kernel⟩

theorem witness_InterfaceCommandsRun_0 : ∃ s : State, ∃ d : Desc, ∃ major : Nat, ∃ minor : Nat, ∃ rest : List (Nat × Nat),
    (s.mayRun d = true) ∧ ((dBed d).all (s.start d).bedConfigured = true) ∧ (((dBed d).any fun b => bitSet (s.start d).sec.policy 0 && (s.start d).fget F.SEC_BED_STATE_TDI b != 2) = false) ∧ (((s.start d).ifOpenBit (dFn d) && (s.start d).host.rings.any fun q => q.fn == dFn d) = false) ∧ ((s.start d).common (dArg d 48 4 % 8) [dArg d 49 1, dArg d 50 1, dArg d 51 1] = (major, minor) :: rest) :=
  ⟨inFlight dev (vfCmd [(48, 1)]), vfCmd [(48, 1)], 1, 0, [], by decide +kernel, by decide +kernel, by decide +kernel, by decide +kernel, by decide +kernel⟩

theorem witness_InterfaceCommandsRun_1 : ∃ s : State, ∃ d : Desc,
    (s.mayRun d = true) ∧ (((s.start d).host.rings.any fun q => q.fn == dFn d) = false) ∧ ((s.start d).host.closing = []) :=
  ⟨inFlight dev (vfCmd []), vfCmd [], by decide +kernel, by decide +kernel, by decide +kernel⟩

theorem witness_InterfaceCommandsRun_2 : ∃ s : State, ∃ d : Desc,
    (s.mayRun d = true) ∧ (dArg d 48 2 < ringMax (dFn d)) ∧ ((s.start d).ring? (dFn d) (dArg d 48 2) = none) :=
  ⟨inFlight dev (vfCmd [(48, 255), (50, 4)]), vfCmd [(48, 255), (50, 4)], by decide +kernel, by decide +kernel, by decide +kernel⟩

theorem witness_InterfaceCommandsRun_3 : ∃ s : State, ∃ d : Desc,
    (s.mayRun d = true) ∧ (((s.start d).ring? (dFn d) (dArg d 48 2)).isSome = true) ∧ ((s.start d).ringState (dFn d) (dArg d 48 2) = 1) :=
  ⟨inFlight (({ dev with host := { rings := [{ fn := 1, idx := 2 }] } } : State).fset F.RING_STATE_STATE 1 1 2) (vfCmd [(48, 2)]), vfCmd [(48, 2)], by decide +kernel, by decide +kernel, by decide +kernel⟩

theorem witness_InterfaceCommandsRun_4 : ∃ s : State, ∃ fn : Fin 17, ∃ r : Fin 256, ∃ q : Ring,
    (s.active = true) ∧ (s.ring? fn r = some q) ∧ (s.ringState fn r = 2) ∧ (s.ringInflight fn r = 0) :=
  ⟨({ dev with host := { rings := [{ fn := 1, idx := 2 }] } } : State).fset F.RING_STATE_STATE 2 1 2, 1, 2, { fn := 1, idx := 2 }, by decide +kernel, by decide +kernel, by decide +kernel, by decide +kernel⟩

theorem witness_InterfaceCommandsRun_5 : ∃ s : State, ∃ d : Desc,
    (s.mayRun d = true) :=
  ⟨inFlight dev (vfCmd []), vfCmd [], by decide +kernel⟩

theorem witness_CommandEngineRuns_0 : ∃ s : State, ∃ d : Desc, ∃ f : W32, ∃ gap : Bool, ∃ n : W32,
    (s.mayRun d = true) ∧ ((s.start d).journalStart (BitVec.ofNat 32 (dArg d 48 4)) = (some f, gap, n)) :=
  ⟨inFlight ({ dev with keep := { ready := true, jHeld := 1, jNewest := 1 } } : State) (pfCmd [(48, 1)]), pfCmd [(48, 1)], 1, false, 1, by decide +kernel, by decide +kernel⟩

theorem witness_CommandEngineRuns_1 : ∃ s : State, ∃ fn : Fin 17, ∃ m : Fin 16,
    (s.active = true) ∧ (s.fget F.MB_STATUS_BUSY fn m ≠ 1) ∧ (∃ bytes, bytes = ((List.range 16).flatMap fun k => leBytes 4 (s.rdN .MB_DESC fn (m * 16 + k))) ∧ (∃ d, d = (dParse (.mailbox fn m) bytes) ∧ ((s.fset F.MB_STATUS_BUSY 1 fn m).gate d = none))) :=
  ⟨((dev.fset F.IF_STATE_OPEN 1 1).wrN .MB_DESC 0x20 1 0), 1, 0, by decide +kernel, by decide +kernel, _, rfl, _, rfl, by decide +kernel⟩

theorem witness_CommandEngineRuns_2 : ∃ s : State, ∃ fn : Fin 17, ∃ r : Fin 256, ∃ _ : W16,
    (s.active = true) ∧ (s.ringState fn r = 1) :=
  ⟨dev.fset F.RING_STATE_STATE 1 1 2, 1, 2, 3, by decide +kernel, by decide +kernel⟩

theorem witness_CommandEngineRuns_3 : ∃ s : State, ∃ fn : Fin 17, ∃ r : Fin 256, ∃ q : Ring,
    (s.active = true) ∧ (s.ring? fn r = some q) ∧ (s.fetchable fn r = true) :=
  ⟨(({ dev with host := { rings := [{ fn := 1, idx := 2 }] } } : State).fset F.RING_STATE_STATE 1 1 2).fset F.RING_SQ_TAIL 1 1 2, 1, 2, { fn := 1, idx := 2 }, by decide +kernel, by decide +kernel, by decide +kernel⟩

theorem witness_CommandEngineRuns_4 : ∃ s : State, ∃ fn : Fin 17, ∃ r : Fin 256, ∃ q : Ring,
    (s.active = true) ∧ (s.ring? fn r = some q) ∧ (q.pending ≠ 0) ∧ (s.fget F.RING_IRQ_CTRL_DELAY fn r ≠ 0) ∧ (ftReached s.now (q.oldest + BitVec.ofNat 64 (s.fget F.RING_IRQ_CTRL_DELAY fn r * 2 ^ 16)) = true) :=
  ⟨({ late with host := { rings := [{ fn := 1, idx := 2, pending := 1 }] } } : State).fset F.RING_IRQ_CTRL_DELAY 1 1 2, 1, 2, { fn := 1, idx := 2, pending := 1 }, by decide +kernel, by decide +kernel, by decide +kernel, by decide +kernel, by decide +kernel⟩

theorem witness_CommandEngineRuns_5 : ∃ s : State, ∃ _ : Fin 17,
    (s.powered = true) :=
  ⟨dev, 16, by decide +kernel⟩

theorem witness_CommandEngineRuns_6 : ∃ s : State,
    (s.active = true) ∧ (s.keep.ready = true) ∧ (s.keep.queue ≠ []) :=
  ⟨{ dev with keep := { ready := true, queue := [{}] } }, by decide +kernel, by decide +kernel, by decide +kernel⟩

theorem witness_SessionCommandsRun_0 : ∃ s : State, ∃ u : State, ∃ d : Desc, ∃ home : Nat,
    (s.mayRun d = true) ∧ (u = s.start d) ∧ (u.entry? d.target = none) ∧ ((u.ses.waits.any fun w => w.sid == d.target && w.why == SesWhy.open) = false) ∧ ((u.profile? (State.cmdBed d) (dArg d 48 2)).isSome = true) ∧ (u.ownsFurrow (State.cmdBed d) (dArg d 52 2) = true) ∧ (u.dirQuotaOk (State.cmdBed d) = true) ∧ (u.liveQuotaOk (State.cmdBed d) = true) ∧ (u.homeOf d.target = some home) :=
  ⟨inFlight (ses []) (sesCmd []), (inFlight (ses []) (sesCmd [])).start (sesCmd []), sesCmd [], 0, by decide +kernel, rfl, by decide +kernel, by decide +kernel, by decide +kernel, by decide +kernel, by decide +kernel, by decide +kernel, by decide +kernel⟩

theorem witness_SessionCommandsRun_1 : ∃ s : State, ∃ u : State, ∃ d : Desc, ∃ e : Entry,
    (s.mayRun d = true) ∧ (u = s.start d) ∧ (u.heldEntry d d.target = .ok e) ∧ (e.state = .live) :=
  ⟨inFlight (ses [owned .live]) (sesCmd []), (inFlight (ses [owned .live]) (sesCmd [])).start (sesCmd []), sesCmd [], owned .live, by decide +kernel, rfl, (ok_is (by decide +kernel)), by decide +kernel⟩

theorem witness_SessionCommandsRun_2 : ∃ s : State, ∃ u : State, ∃ d : Desc, ∃ e : Entry,
    (s.mayRun d = true) ∧ (u = s.start d) ∧ (u.heldEntry d d.target = .ok e) ∧ (e.state ≠ .live) ∧ (e.state ≠ .closed) :=
  ⟨inFlight (ses [owned .paused]) (sesCmd []), (inFlight (ses [owned .paused]) (sesCmd [])).start (sesCmd []), sesCmd [], owned .paused, by decide +kernel, rfl, (ok_is (by decide +kernel)), by decide +kernel, by decide +kernel⟩

theorem witness_SessionCommandsRun_3 : ∃ s : State, ∃ u : State, ∃ t : State, ∃ d : Desc, ∃ o : Entry, ∃ e : Entry,
    (s.mayRun d = true) ∧ (u = s.start d) ∧ (u.owner? d.target = some o) ∧ (u.heldEntry d d.target = .ok e) ∧ (e.state ≠ .live) ∧ (e.state ≠ .closed) ∧ (dArg d 48 2 = 0xFFFF) ∧ (u.liveQuotaOk e.bed = true) ∧ (u.owner? e.sid = some e) ∧ (u.wake e (some d) = .ok t) :=
  ⟨inFlight (ses [owned .paused]) (sesCmd [(48, 0xFFFF)]), (inFlight (ses [owned .paused]) (sesCmd [(48, 0xFFFF)])).start (sesCmd [(48, 0xFFFF)]), okD (((inFlight (ses [owned .paused]) (sesCmd [(48, 0xFFFF)])).start (sesCmd [(48, 0xFFFF)])).wake (owned .paused) (some (sesCmd [(48, 0xFFFF)]))) dev, sesCmd [(48, 0xFFFF)], owned .paused, owned .paused, by decide +kernel, rfl, by decide +kernel, (ok_is (by decide +kernel)), by decide +kernel, by decide +kernel, by decide +kernel, by decide +kernel, by decide +kernel, (ok_of (by decide +kernel))⟩

theorem witness_SessionCommandsRun_4 : ∃ s : State, ∃ u : State, ∃ _ : State, ∃ d : Desc, ∃ e : Entry,
    (s.mayRun d = true) ∧ (u = s.start d) ∧ (u.heldEntry d d.target = .ok e) ∧ (dArg d 48 1 = 1 ∨ dArg d 48 1 = 2) ∧ (e.state = .live) :=
  ⟨inFlight (ses [owned .live]) (sesCmd [(48, 1)]), (inFlight (ses [owned .live]) (sesCmd [(48, 1)])).start (sesCmd [(48, 1)]), dev, sesCmd [(48, 1)], owned .live, by decide +kernel, rfl, (ok_is (by decide +kernel)), by decide +kernel, by decide +kernel⟩

theorem witness_SessionCommandsRun_5 : ∃ s : State, ∃ u : State, ∃ t : State, ∃ d : Desc, ∃ e : Entry,
    (s.mayRun d = true) ∧ (u = s.start d) ∧ (u.heldEntry d d.target = .ok e) ∧ (dArg d 48 1 = 1 ∨ dArg d 48 1 = 2) ∧ (e.state = .paused) ∧ (u.liveWaits e.sid = false) ∧ (u.moveOf (.session e.sid) = none) ∧ (((u.flushIntake e.sid).idleSlot e.sid).startDown e (dArg d 48 1) (some d) = .ok t) :=
  ⟨inFlight backed (sesCmd [(48, 1)]), (inFlight backed (sesCmd [(48, 1)])).start (sesCmd [(48, 1)]), okD (((((inFlight backed (sesCmd [(48, 1)])).start (sesCmd [(48, 1)])).flushIntake 5).idleSlot 5).startDown (owned .paused) 1 (some (sesCmd [(48, 1)]))) dev, sesCmd [(48, 1)], owned .paused, by decide +kernel, rfl, (ok_is (by decide +kernel)), by decide +kernel, by decide +kernel, by decide +kernel, by decide +kernel, (ok_of (by decide +kernel))⟩

theorem witness_SessionCommandsRun_6 : ∃ s : State, ∃ u : State, ∃ d : Desc, ∃ e : Entry,
    (s.mayRun d = true) ∧ (u = s.start d) ∧ (u.heldEntry d d.target = .ok e) ∧ (e.state = .paused) :=
  ⟨inFlight (ses [owned .paused]) (sesCmd []), (inFlight (ses [owned .paused]) (sesCmd [])).start (sesCmd []), sesCmd [], owned .paused, by decide +kernel, rfl, (ok_is (by decide +kernel)), by decide +kernel⟩

theorem witness_SessionPlacementRuns_0 : ∃ s : State, ∃ u : State, ∃ d : Desc, ∃ e : Entry,
    (s.mayRun d = true) ∧ (u = s.start d) ∧ (u.heldEntry d d.target = .ok e) ∧ (u.ses.map.isSome = true) ∧ (e.state = .live) :=
  ⟨inFlight (ses [owned .live]) (sesCmd []), (inFlight (ses [owned .live]) (sesCmd [])).start (sesCmd []), sesCmd [], owned .live, by decide +kernel, rfl, (ok_is (by decide +kernel)), by decide +kernel, by decide +kernel⟩

theorem witness_SessionPlacementRuns_1 : ∃ s : State, ∃ u : State, ∃ d : Desc, ∃ e : Entry,
    (s.mayRun d = true) ∧ (u = s.start d) ∧ (u.heldEntry d d.target = .ok e) ∧ (u.ses.map.isSome = true) ∧ (e.state = .paused) ∧ (u.moveOf (.session e.sid) = none) ∧ (u.liveWaits e.sid = false) ∧ (u.ckCovered e.bed e.sid = false) :=
  ⟨inFlight (ses [owned .paused]) (sesCmd []), (inFlight (ses [owned .paused]) (sesCmd [])).start (sesCmd []), sesCmd [], owned .paused, by decide +kernel, rfl, (ok_is (by decide +kernel)), by decide +kernel, by decide +kernel, by decide +kernel, by decide +kernel, by decide +kernel⟩

theorem witness_SessionPlacementRuns_2 : ∃ s : State, ∃ u : State, ∃ d : Desc,
    (s.mayRun d = true) ∧ (u = s.start d) :=
  ⟨inFlight (ses []) (sesCmd []), (inFlight (ses []) (sesCmd [])).start (sesCmd []), sesCmd [], by decide +kernel, rfl⟩

theorem witness_SessionPlacementRuns_3 : ∃ s : State, ∃ u : State, ∃ d : Desc, ∃ home : Nat,
    (s.mayRun d = true) ∧ (u = s.start d) ∧ (∃ copied, copied = (u.writeAddr d d.addr0 (match u.view? d d.target with
      | some e => entryBytes e
      | none => List.replicate 64 0)) ∧ (copied.homeOf d.target = some home) ∧ (home ≠ copied.node)) :=
  ⟨inFlight (ses [] dev 3) (sesCmd []), (inFlight (ses [] dev 3) (sesCmd [])).start (sesCmd []), sesCmd [], 3, by decide +kernel, rfl, _, rfl, by decide +kernel, by decide +kernel⟩

theorem witness_SessionPlacementRuns_4 : ∃ s : State, ∃ u : State, ∃ d : Desc,
    (s.mayRun d = true) ∧ (u = s.start d) ∧ (u.bedConfigured (limitBed d) = true) ∧ (dArg d 48 1 ≤ 5) ∧ ((decide (dArg d 48 1 < 2) = (dFn d == 0))) ∧ (u.keep.ready = true) :=
  ⟨inFlight (ses []) (sesCmd [(48, 5)]), (inFlight (ses []) (sesCmd [(48, 5)])).start (sesCmd [(48, 5)]), sesCmd [(48, 5)], by decide +kernel, rfl, by decide +kernel, by decide +kernel, by decide +kernel, by decide +kernel⟩

theorem witness_HomeMessagesRun_0 : ∃ s : State, ∃ u : State, ∃ t : State, ∃ m : OwnMsg,
    (s.active = true) ∧ (u = s.msgReach m) ∧ (m.mapVersion = u.heldVersion) ∧ (u.servesHome m.sid = true) ∧ (u.record? m.sid = none) ∧ (m.flagNew = true) ∧ (u.newRecord m.sid m.sender 1 = some t) :=
  ⟨ses [], _, _, { ownMsg with flagNew := true }, by decide +kernel, rfl, by decide +kernel, by decide +kernel, by decide +kernel, by decide +kernel, (some_of (d := dev) (by decide +kernel))⟩

theorem witness_HomeMessagesRun_1 : ∃ s : State, ∃ u : State, ∃ m : OwnMsg, ∃ r : Entry,
    (s.active = true) ∧ (u = s.msgReach m) ∧ (m.mapVersion = u.heldVersion) ∧ (u.servesHome m.sid = true) ∧ (u.record? m.sid = some r) ∧ ((m.flagNew || m.flagRebuild || m.flagRevive) = false) ∧ (homeState r = .held) ∧ (r.recNode = m.node) ∧ (r.recEpoch = m.epoch) ∧ (m.epoch ≠ 0xFFFFFFFF#32) ∧ (m.node ≠ m.sender) ∧ ((r.isOwner && r.state == .dropped) = false) :=
  ⟨ses [homed .held 3], _, { ownMsg with sender := 4 }, homed .held 3, by decide +kernel, rfl, by decide +kernel, by decide +kernel, by decide +kernel, by decide +kernel, by decide +kernel, by decide +kernel, by decide +kernel, by decide +kernel, by decide +kernel, by decide +kernel⟩

theorem witness_HomeMessagesRun_2 : ∃ s : State, ∃ u : State, ∃ m : OwnMsg, ∃ r : Entry,
    (s.active = true) ∧ (u = s.msgReach m) ∧ (m.mapVersion = u.heldVersion) ∧ (u.servesHome m.sid = true) ∧ (u.record? m.sid = some r) :=
  ⟨ses [homed .held 3], _, ownMsg, homed .held 3, by decide +kernel, rfl, by decide +kernel, by decide +kernel, by decide +kernel⟩

theorem witness_HomeMessagesRun_3 : ∃ s : State, ∃ u : State, ∃ m : OwnMsg,
    (s.active = true) ∧ (u = s.msgReach m) ∧ (m.mapVersion = u.heldVersion) :=
  ⟨ses [], _, ownMsg, by decide +kernel, rfl, by decide +kernel⟩

theorem witness_HomeMessagesRun_4 : ∃ s : State, ∃ u : State, ∃ m : OwnMsg, ∃ r : Entry,
    (s.active = true) ∧ (u = s.msgReach m) ∧ (m.mapVersion = u.heldVersion) ∧ (u.servesHome m.sid = true) ∧ (u.record? m.sid = some r) ∧ (noteFits r m = true) :=
  ⟨ses [homed .held 3], _, ownMsg, homed .held 3, by decide +kernel, rfl, by decide +kernel, by decide +kernel, by decide +kernel, by decide +kernel⟩

theorem witness_HomeMessagesRun_5 : ∃ s : State, ∃ u : State, ∃ m : OwnMsg, ∃ r : Entry,
    (s.active = true) ∧ (u = s.msgReach m) ∧ (m.mapVersion = u.heldVersion) ∧ (u.servesHome m.sid = true) ∧ (u.record? m.sid = some r) ∧ (noteFits r m = false) :=
  ⟨ses [homed .held 3], _, { ownMsg with epoch := 2 }, homed .held 3, by decide +kernel, rfl, by decide +kernel, by decide +kernel, by decide +kernel, by decide +kernel⟩

theorem witness_HomeMessagesRun_6 : ∃ s : State, ∃ u : State, ∃ m : OwnMsg, ∃ r : Entry, ∃ r' : Entry,
    (s.active = true) ∧ (u = s.msgReach m) ∧ (m.mapVersion = u.heldVersion) ∧ (u.servesHome m.sid = true) ∧ (u.record? m.sid = some r) ∧ (noteFits r m = true) ∧ (homeState r = .held) ∧ (r.isOwner = false) ∧ (∃ dropped, dropped = ((u.setRecord m.sid .dropped r.recNode r.recEpoch).settleTrx m.sid) ∧ (dropped.record? m.sid = some r')) :=
  ⟨ses [homed .held 3], _, ownMsg, homed .held 3, homed .dropped 3, by decide +kernel, rfl, by decide +kernel, by decide +kernel, by decide +kernel, by decide +kernel, by decide +kernel, by decide +kernel, _, rfl, by decide +kernel⟩

theorem witness_HomeMessagesRun_7 : ∃ s : State, ∃ u : State, ∃ m : OwnMsg, ∃ r : Entry, ∃ r' : Entry,
    (s.active = true) ∧ (u = s.msgReach m) ∧ (m.mapVersion = u.heldVersion) ∧ (u.servesHome m.sid = true) ∧ (u.record? m.sid = some r) ∧ (noteFits r m = true) ∧ (∃ closed, closed = ((u.updEntry m.sid fun e =>
      { e with state := .closed, expiry := ftSample (ftAdd u.now u.tombstoneFt) }).settleTrx m.sid) ∧ (closed.record? m.sid = some r')) :=
  ⟨ses [homed .held 3], _, ownMsg, homed .held 3, { homed .closed 3 with expiry := ftSample (ftAdd dev.now 50) }, by decide +kernel, rfl, by decide +kernel, by decide +kernel, by decide +kernel, by decide +kernel, _, rfl, by decide +kernel⟩

theorem witness_OwnerMessagesRun_0 : ∃ s : State, ∃ u : State, ∃ t : State, ∃ v : State, ∃ m : OwnMsg, ∃ bed : Nat, ∃ x : Entry, ∃ e : Entry,
    (s.active = true) ∧ (u = s.msgReach m) ∧ (m.mapVersion = u.heldVersion) ∧ (u.ses.armed.find? (fun a => a.2 == m.sid) = some (bed, m.sid)) ∧ (m.entry = some x) ∧ (u.owner? m.sid = none) ∧ (u.dirQuotaOk bed = true) ∧ ((x.state ≠ .live ∨ u.liveQuotaOk bed = true)) ∧ ((u.profile? bed x.profile).isSome = true) ∧ (x.furrow = none) ∧ (e =
      { sid := m.sid, state := x.state, own := .awaiting, isOwner := true, bed := bed, tier := .near, prio := x.prio, ownerNode := u.node, epoch := x.epoch + 1, profile := x.profile, furrow := minNat? ((u.smp.furrows.filter fun f => f.bed == bed).map fun f => f.num), pauseReason := x.pauseReason, position := x.position, confirmed := x.confirmed, expiry := x.expiry, turnStart := x.turnStart, graft := x.graft }) ∧ (u.newOwner e = some t) ∧ (t.enterNear e e.profile none = .ok v) :=
  ⟨armedDev, _, _, _, { ownMsg with entry := some { sid := 5, state := .paused, epoch := 1 } }, 0, { sid := 5, state := .paused, epoch := 1 }, offered, by decide +kernel, rfl, by decide +kernel, by decide +kernel, by decide +kernel, by decide +kernel, by decide +kernel, by decide +kernel, by decide +kernel, by decide +kernel, (by decide +kernel), (some_of (d := dev) (by decide +kernel)), (ok_of (d := dev) (by decide +kernel))⟩

theorem witness_OwnerMessagesRun_1 : ∃ s : State, ∃ r : State, ∃ u : State, ∃ m : OwnMsg, ∃ e : Entry,
    (s.active = true) ∧ (r = s.msgReach m) ∧ (m.mapVersion = r.heldVersion) ∧ (u = r.touchOwn m.sid) ∧ (u.ses.waits.find? (fun w => w.sid == m.sid && (w.why == SesWhy.open || w.why == SesWhy.revive)) = none) ∧ (u.stagedConfirm m = none) ∧ (u.owner? m.sid = some e) ∧ (e.own = .awaiting) ∧ (m.node = u.node) ∧ (m.epoch = e.epoch) :=
  ⟨ses [owned .paused .awaiting], _, _, { ownMsg with node := 0 }, owned .paused .awaiting, by decide +kernel, rfl, by decide +kernel, rfl, by decide +kernel, by decide +kernel, by decide +kernel, by decide +kernel, by decide +kernel, by decide +kernel⟩

theorem witness_OwnerMessagesRun_2 : ∃ s : State, ∃ r : State, ∃ u : State, ∃ m : OwnMsg, ∃ e : Entry,
    (s.active = true) ∧ (r = s.msgReach m) ∧ (m.mapVersion = r.heldVersion) ∧ (u = r.touchOwn m.sid) ∧ (u.ses.waits.find? (fun w => w.sid == m.sid && (w.why == SesWhy.open || w.why == SesWhy.revive)) = none) ∧ (u.stagedConfirm m = none) ∧ (u.owner? m.sid = some e) ∧ (e.own = .offered) ∧ (m.node ≠ u.node) ∧ (m.epoch = e.epoch + 1) :=
  ⟨ses [owned .paused .offered], _, _, { ownMsg with epoch := 2 }, owned .paused .offered, by decide +kernel, rfl, by decide +kernel, rfl, by decide +kernel, by decide +kernel, by decide +kernel, by decide +kernel, by decide +kernel, by decide +kernel⟩

theorem witness_OwnerMessagesRun_3 : ∃ s : State, ∃ m : OwnMsg,
    (s.active = true) ∧ (m.code = Rf.mapMismatch) :=
  ⟨ses [], { ownMsg with code := Rf.mapMismatch }, by decide +kernel, by decide +kernel⟩

theorem witness_OwnerMessagesRun_4 : ∃ s : State, ∃ r : State, ∃ u : State, ∃ m : OwnMsg, ∃ e : Entry,
    (s.active = true) ∧ (r = s.msgReach m) ∧ (m.mapVersion = r.heldVersion) ∧ (u = (r.touchOwn m.sid).endQueries m.sid (some (m.epoch, m.node, m.code))) ∧ (u.ses.notes.find? (fun n => n.sid == m.sid && m.code == (if n.close then SesNum .closed else SesNum .dropped)) =
      none) ∧ (u.owner? m.sid = some e) ∧ (e.own = .inDoubt) ∧ (m.code = SesNum .held) ∧ (m.node = u.node) ∧ (m.epoch = e.epoch) :=
  ⟨ses [owned .paused .inDoubt], _, _, { ownMsg with node := 0, code := SesNum .held }, owned .paused .inDoubt, by decide +kernel, rfl, by decide +kernel, rfl, by decide +kernel, by decide +kernel, by decide +kernel, by decide +kernel, by decide +kernel, by decide +kernel⟩

theorem witness_OwnerMessagesRun_5 : ∃ s : State, ∃ m : OwnMsg, ∃ x : Nat × W16 × W64,
    (s.active = true) ∧ (m.sid = 0) ∧ (m.mapVersion = s.heldVersion) ∧ (s.ses.renewSent.find? (fun x => x.1 == m.sender && x.2.1 == m.seq) = some x) ∧ (m.flagRebuild = false) :=
  ⟨{ ses [] with ses := { (ses []).ses with renewSent := [(3, 9, 0)] } }, { ownMsg with sid := 0 }, (3, 9, 0), by decide +kernel, by decide +kernel, by decide +kernel, by decide +kernel, by decide +kernel⟩

theorem witness_OwnerMessagesRun_6 : ∃ s : State, ∃ r : State, ∃ u : State, ∃ m : OwnMsg, ∃ e : Entry,
    (s.active = true) ∧ (r = s.msgReach m) ∧ (m.mapVersion = r.heldVersion) ∧ (u = { r with ses := { r.ses with trxAcks := Table.set r.ses.trxAcks 0 m.sid m.ft } }) ∧ (u.owner? m.sid = some e) :=
  ⟨ses [owned .live], _, _, ownMsg, owned .live, by decide +kernel, rfl, by decide +kernel, rfl, by decide +kernel⟩

theorem witness_TransferMessagesRun_0 : ∃ s : State, ∃ u : State, ∃ t : State, ∃ m : OwnMsg, ∃ x : Entry,
    (s.active = true) ∧ (u = s.msgReach m) ∧ (m.mapVersion = u.heldVersion) ∧ (m.entry = some x) ∧ (u.isHome x.sid = true) ∧ (u.entry? x.sid = none) ∧ (u.addEntry { sid := x.sid, state := x.state, isHome := true, ownerNode := x.ownerNode, epoch := x.epoch, confirmed := x.confirmed, expiry := x.expiry, recEpoch := x.epoch, recNode := x.ownerNode } = some t) :=
  ⟨ses [], _, _, { ownMsg with entry := some { sid := 5, state := .held, isHome := true, ownerNode := 3, epoch := 1 } }, { sid := 5, state := .held, isHome := true, ownerNode := 3, epoch := 1 }, by decide +kernel, rfl, by decide +kernel, by decide +kernel, by decide +kernel, by decide +kernel, (some_of (d := dev) (by decide +kernel))⟩

theorem witness_TransferMessagesRun_1 : ∃ s : State, ∃ m : OwnMsg,
    (s.active = true) ∧ (m.sid = 0) ∧ (m.mapVersion = s.heldVersion) :=
  ⟨ses [], { ownMsg with sid := 0 }, by decide +kernel, by decide +kernel, by decide +kernel⟩

theorem witness_TransferMessagesRun_2 : ∃ s : State, ∃ u : State, ∃ m : OwnMsg, ∃ t : Transcript,
    (s.active = true) ∧ (u = s.msgReach m) ∧ (m.mapVersion = u.heldVersion) ∧ (u.servesHome m.sid = true) ∧ (u.transcript? m.sid = some t) ∧ (t.tokens.length - m.position < 64) :=
  ⟨{ ses [homed .held 3] with ses := { (ses [homed .held 3]).ses with transcripts := [{ sid := 5, tokens := List.replicate 63 1 }] } }, _, ownMsg, { sid := 5, tokens := List.replicate 63 1 }, by decide +kernel, rfl, by decide +kernel, by decide +kernel, by decide +kernel, by decide +kernel⟩

theorem witness_TransferMessagesRun_3 : ∃ s : State, ∃ v : State, ∃ u : State, ∃ m : OwnMsg, ∃ r : Revival, ∃ e : Entry,
    (s.active = true) ∧ (v = s.msgReach m) ∧ (m.mapVersion = v.heldVersion) ∧ (v.isHome m.sid = false) ∧ (u = v.touchOwn m.sid) ∧ (u.ses.revivals.find? (fun r => r.sid == m.sid) = some r) ∧ (u.owner? m.sid = some e) ∧ (e.state = .dropped) ∧ (m.tokens.length = 64) :=
  ⟨{ ses [owned .dropped] dev 3 with ses := { (ses [owned .dropped] dev 3).ses with revivals := [{ sid := 5 }] } }, _, _, { ownMsg with tokens := List.replicate 64 1 }, { sid := 5 }, owned .dropped, by decide +kernel, rfl, by decide +kernel, by decide +kernel, rfl, by decide +kernel, by decide +kernel, by decide +kernel, by decide +kernel⟩

theorem witness_TransferMessagesRun_4 : ∃ s : State, ∃ bucket : Fin 4096, ∃ x : Xfer,
    (s.active = true) ∧ (s.ses.xferOut.filter (fun x => x.bucket == bucket.val && x.refused && ftReached s.now (ftAdd x.lastSent 48)) = [x]) :=
  ⟨{ ses [] late with ses := { (ses []).ses with xferOut := [{ bucket := 4095, dest := 3, seq := 1, entry := none, refused := true, lastSent := 0 }] } }, 4095, { bucket := 4095, dest := 3, seq := 1, entry := none, refused := true, lastSent := 0 }, by decide +kernel, by decide +kernel⟩

theorem witness_TransferMessagesRun_5 : ∃ s : State, ∃ bucket : Fin 4096, ∃ x : Nat × Nat × W64,
    (s.active = true) ∧ (s.ses.takeUp.find? (fun x => x.1 == bucket.val) = some x) ∧ (ftReached s.now (ftAdd x.2.2 s.leaseFt) = true) :=
  ⟨{ ses [] late with ses := { (ses []).ses with takeUp := [(4095, 3, 0)] } }, 4095, (4095, 3, 0), by decide +kernel, by decide +kernel, by decide +kernel⟩

theorem witness_LeaseTimersRun_0 : ∃ s : State, ∃ sid : W64, ∃ n : Note,
    (s.active = true) ∧ (s.ses.notes.find? (fun n => n.sid == sid && ftReached s.now (ftAdd n.lastSent 48)) = some n) :=
  ⟨{ ses [] late with ses := { (ses []).ses with notes := [{ sid := 5, bed := 0, close := true, epoch := 1, lastSent := 0 }] } }, 5, { sid := 5, bed := 0, close := true, epoch := 1, lastSent := 0 }, by decide +kernel, by decide +kernel⟩

theorem witness_LeaseTimersRun_1 : ∃ s : State, ∃ sid : W64, ∃ e : Entry,
    (s.active = true) ∧ (s.owner? sid = some e) ∧ (e.own = .inDoubt) ∧ ((∀ q, s.ses.queries.find? (fun q => q.1 == sid) = some q → ftReached s.now (ftAdd q.2 48) = true)) :=
  ⟨ses [owned .live .inDoubt] late, 5, owned .live .inDoubt, by decide +kernel, by decide +kernel, by decide +kernel, (fun _ h => nomatch h)⟩

theorem witness_LeaseTimersRun_2 : ∃ s : State, ∃ home : Fin 512,
    (s.active = true) ∧ ((s.ownedUnder home) ≠ []) ∧ (((s.ses.renewSent.filter fun x => x.1 == home.val).getLast?.all fun x =>
      ftReached s.now (ftAdd x.2.2 s.renewFt)) = true) :=
  ⟨ses [owned .live], 0, by decide +kernel, by decide +kernel, by decide +kernel⟩

theorem witness_LeaseTimersRun_3 : ∃ s : State, ∃ home : Fin 512, ∃ x : Nat × W64,
    (s.active = true) ∧ (s.ses.acked.find? (fun x => x.1 == home.val) = some x) ∧ (ftReached s.now (ftAdd x.2 (s.leaseFt - s.guardFt)) = true) :=
  ⟨{ ses [] late with ses := { (ses []).ses with acked := [(3, 0)] } }, 3, (3, 0), by decide +kernel, by decide +kernel, by decide +kernel⟩

theorem witness_LeaseTimersRun_4 : ∃ s : State, ∃ owner : Fin 512, ∃ x : Nat × W64,
    (s.active = true) ∧ (s.ses.renewSeen.find? (fun x => x.1 == owner.val) = some x) ∧ (ftReached s.now (ftAdd x.2 s.leaseFt) = true) :=
  ⟨{ ses [] late with ses := { (ses []).ses with renewSeen := [(3, 0)] } }, 3, (3, 0), by decide +kernel, by decide +kernel, by decide +kernel⟩

theorem witness_LeaseTimersRun_5 : ∃ s : State, ∃ sid : W64, ∃ w : SesWait,
    (s.active = true) ∧ (s.ses.waits.find? (fun w => w.sid == sid && ftReached s.now (ftAdd w.since 480) &&
      (w.why == SesWhy.query || w.why == SesWhy.revive || (w.why == SesWhy.open && !(s.owner? sid).isSome))) = some w) ∧ (w.why = .query) :=
  ⟨{ ses [] late with ses := { (ses []).ses with waits := [{ sid := 5, why := .query, since := 0, d := none }] } }, 5, { sid := 5, why := .query, since := 0, d := none }, by decide +kernel, by decide +kernel, by decide +kernel⟩

theorem witness_LeaseTimersRun_6 : ∃ s : State, ∃ t : W64,
    (s.active = true) ∧ (s.ses.rebuildUntil = some t) ∧ (ftReached s.now t = true) :=
  ⟨{ ses [] late with ses := { (ses []).ses with rebuildUntil := some 0 } }, 0, by decide +kernel, by decide +kernel, by decide +kernel⟩

theorem witness_TimeToLiveRuns_0 : ∃ s : State, ∃ t : State, ∃ sid : W64, ∃ e : Entry,
    (s.active = true) ∧ (s.ttlDue sid .paused none = some e) ∧ (∃ shown, shown = (s.setStatus F.SES_STATUS_TTL_EXPIRED e.bed) ∧ (((shown.parkTiers sid).findSome? fun k => if shown.tierTtl e.bed k = 0 then none else
      match (shown.flushIntake sid).startDown e k none with | .ok x => some x | .error _ => none) = some t)) :=
  ⟨lapsing, okD ((lapsing.setStatus F.SES_STATUS_TTL_EXPIRED 0 |>.flushIntake 5).startDown pausedOut 1 none) dev, 5, pausedOut, by decide +kernel, by decide +kernel, _, rfl, by decide +kernel⟩

theorem witness_TimeToLiveRuns_1 : ∃ s : State, ∃ sid : W64, ∃ e : Entry,
    (s.active = true) ∧ (s.ttlDue sid .parked (some .cxl) = some e) ∧ (∃ shown, shown = (s.setStatus F.SES_STATUS_TTL_EXPIRED e.bed) ∧ (((shown.parkTiers sid).contains 2 && shown.tierTtl e.bed 2 != 0) = false)) :=
  ⟨(ses [{ owned .parked with tier := .cxl, expiry := 1 }] late).wrN .SES_TTL_MULCH 0 0, 5, { owned .parked with tier := .cxl, expiry := 1 }, by decide +kernel, by decide +kernel, _, rfl, by decide +kernel⟩

theorem witness_TimeToLiveRuns_2 : ∃ s : State, ∃ sid : W64, ∃ e : Entry,
    (s.active = true) ∧ (s.ttlDue sid .parked (some .mulch) = some e) :=
  ⟨ses [{ owned .parked with tier := .mulch, expiry := 1 }] late, 5, { owned .parked with tier := .mulch, expiry := 1 }, by decide +kernel, by decide +kernel⟩

theorem witness_TimeToLiveRuns_3 : ∃ s : State, ∃ sid : W64, ∃ e : Entry,
    (s.active = true) ∧ (s.ttlDue sid .dropped none = some e) :=
  ⟨ses [{ owned .dropped with expiry := 1 }] late, 5, { owned .dropped with expiry := 1 }, by decide +kernel, by decide +kernel⟩

theorem witness_TimeToLiveRuns_4 : ∃ s : State, ∃ sid : W64, ∃ e : Entry,
    (s.active = true) ∧ (s.entry? sid = some e) ∧ (e.isHome = true) ∧ (e.isOwner = false) ∧ (e.state = .closed) ∧ (ftReached s.now (ftExtend40 e.expiry) = true) :=
  ⟨ses [{ homed .closed 3 with expiry := 1 }] late, 5, { homed .closed 3 with expiry := 1 }, by decide +kernel, by decide +kernel, by decide +kernel, by decide +kernel, by decide +kernel, by decide +kernel⟩

theorem witness_SchedulingRuns_0 : ∃ s : State, ∃ u : State, ∃ d : Desc,
    (s.mayRun d = true) ∧ (u = s.start d) ∧ (u.profileRefusal (profileFrom ((dBed d).getD 0) (u.buf0N d 256)) (dLen0 d) = none) ∧ (u.keep.ready = true) :=
  ⟨inFlight (withHost profileBytes) (bufCmd 256 []), (inFlight (withHost profileBytes) (bufCmd 256 [])).start (bufCmd 256 []), bufCmd 256 [], by decide +kernel, rfl, by decide +kernel, by decide +kernel⟩

theorem witness_SchedulingRuns_1 : ∃ s : State, ∃ u : State, ∃ d : Desc, ∃ p : Profile,
    (s.mayRun d = true) ∧ (u = s.start d) ∧ (u.profile? ((dBed d).getD 0) (dArg d 48 2) = some p) ∧ (u.profileNamed ((dBed d).getD 0) (dArg d 48 2) = false) ∧ (u.keep.ready = true) :=
  ⟨inFlight (atBoundary) (sesCmd [(48, 1)]), (inFlight (atBoundary) (sesCmd [(48, 1)])).start (sesCmd [(48, 1)]), sesCmd [(48, 1)], profile1, by decide +kernel, rfl, by decide +kernel, by decide +kernel, by decide +kernel⟩

theorem witness_SchedulingRuns_2 : ∃ s : State, ∃ u : State, ∃ d : Desc, ∃ t : Slot,
    (s.mayRun d = true) ∧ (u = s.start d) ∧ (u.slotTarget d = some t) :=
  ⟨inFlight (busy work5) (sesCmd []), (inFlight (busy work5) (sesCmd [])).start (sesCmd []), sesCmd [], slot0, by decide +kernel, rfl, by decide +kernel⟩

theorem witness_SchedulingRuns_3 : ∃ s : State, ∃ u : State, ∃ d : Desc, ∃ t : Slot, ∃ e : Entry,
    (s.mayRun d = true) ∧ (u = s.start d) ∧ (u.slotTarget d = some t) ∧ (u.heldEntry d t.sid = .ok e) ∧ (dArg d 48 1 = 0) :=
  ⟨inFlight (busy work5) (sesCmd []), (inFlight (busy work5) (sesCmd [])).start (sesCmd []), sesCmd [], slot0, { owned .live with profile := 1 }, by decide +kernel, rfl, by decide +kernel, (ok_is (by decide +kernel)), by decide +kernel⟩

theorem witness_SchedulingRuns_4 : ∃ s : State, ∃ u : State, ∃ d : Desc, ∃ t : Slot, ∃ e : Entry,
    (s.mayRun d = true) ∧ (u = s.start d) ∧ (u.slotTarget d = some t) ∧ (u.heldEntry d t.sid = .ok e) ∧ (dArg d 48 1 = 1) :=
  ⟨inFlight (busy work5) (sesCmd [(48, 1)]), (inFlight (busy work5) (sesCmd [(48, 1)])).start (sesCmd [(48, 1)]), sesCmd [(48, 1)], slot0, { owned .live with profile := 1 }, by decide +kernel, rfl, by decide +kernel, (ok_is (by decide +kernel)), by decide +kernel⟩

theorem witness_SchedulingRuns_5 : ∃ s : State, ∃ u : State, ∃ d : Desc, ∃ t : Slot, ∃ e : Entry,
    (s.mayRun d = true) ∧ (u = s.start d) ∧ (u.slotTarget d = some t) ∧ (u.heldEntry d t.sid = .ok e) ∧ (dArg d 48 1 = 2) :=
  ⟨inFlight (busy work5) (sesCmd [(48, 2)]), (inFlight (busy work5) (sesCmd [(48, 2)])).start (sesCmd [(48, 2)]), sesCmd [(48, 2)], slot0, { owned .live with profile := 1 }, by decide +kernel, rfl, by decide +kernel, (ok_is (by decide +kernel)), by decide +kernel⟩

theorem witness_SchedulingRuns_6 : ∃ s : State, ∃ bed : Fin 16, ∃ pid : W16, ∃ p : Profile, ∃ q : Profile, ∃ f : W64, ∃ b : Nat,
    (s.active = true) ∧ (s.profile? bed pid.toNat = some p) ∧ (s.latest p = some (b, 0, f)) ∧ (s.inTurn p b = true) ∧ (p.lag = []) ∧ (∃ rs, rs = ((s.regionsOf bed).filter fun r => s.raises r) ∧ (∃ lag, lag = (((s.regionsOf bed).filter fun r => !rs.contains r).map fun r => (r, p.nextB)) ∧ (∃ counted, counted = (((s.bump .SCH_STEPS bed).skip bed 0).updProfile bed pid.toNat fun p =>
      { p with nextB := nextGrid p b, lag := lag }) ∧ (counted.flt.fatalBeds.contains bed.val = false) ∧ (counted.ckPart? bed = none) ∧ (∃ changed, changed = ((counted.applyBoundary bed pid.toNat).applyRegroups bed b) ∧ (changed.profile? bed pid.toNat = some q))))) :=
  ⟨atBoundary, 0, 1, profile1, { profile1 with nextB := 480 }, ftOfSample 240, 240, by decide +kernel, by decide +kernel, by decide +kernel, by decide +kernel, by decide +kernel, _, rfl, _, rfl, _, rfl, by decide +kernel, by decide +kernel, _, rfl, by decide +kernel⟩

theorem witness_SchedulingRuns_7 : ∃ s : State, ∃ bed : Fin 16, ∃ pid : W16, ∃ p : Profile, ∃ r : Nat, ∃ n : Nat, ∃ f : W64,
    (s.active = true) ∧ (s.profile? bed pid.toNat = some p) ∧ (s.latest p = none) ∧ (s.lateAt p = some (r, n, f)) :=
  ⟨{ atBoundary with sch := { atBoundary.sch with profiles := [{ profile1 with nextB := 480, lag := [(0, 240)] }] } }, 0, 1, { profile1 with nextB := 480, lag := [(0, 240)] }, 0, 240, ftOfSample 240, by decide +kernel, by decide +kernel, by decide +kernel, by decide +kernel⟩

theorem witness_LayerExchangeRuns_0 : ∃ s : State, ∃ h : LxHdr, ∃ payload : List Byte, ∃ w : Work, ∃ p : Profile,
    (s.active = true) ∧ (s.lxCheck h = .ok (w, p)) ∧ (layerOrder w h = true) ∧ (h.graft = w.graft.isSome) ∧ (h.length = h.count * 2 * lxElems p w.graft.isSome) ∧ (payload.length = h.length) ∧ (0 < h.first) ∧ (∃ counted, counted = (s.bump64 .LX_LAYER_MSGS_LO .LX_LAYER_MSGS_HI w.bed) ∧ (counted.layerHere w h.layer = true)) :=
  ⟨busy work5, packet, List.replicate 768 0, work5, profile1, by decide +kernel, (ok_is (by decide +kernel)), by decide +kernel, by decide +kernel, by decide +kernel, by decide +kernel, by decide +kernel, _, rfl, by decide +kernel⟩

theorem witness_LayerExchangeRuns_1 : ∃ s : State, ∃ sid : W64, ∃ w : Work, ∃ p : Profile, ∃ x : Part,
    (s.active = true) ∧ (s.work? sid = some w) ∧ (s.profile? w.bed w.profile = some p) ∧ (w.parts.find? (fun x => x.ready) = some x) :=
  ⟨busy { work5 with parts := [readyPart] }, 5, { work5 with parts := [readyPart] }, profile1, readyPart, by decide +kernel, by decide +kernel, by decide +kernel, by decide +kernel⟩

theorem witness_LayerExchangeRuns_2 : ∃ s : State, ∃ h : LxHdr, ∃ payload : List Byte, ∃ w : Work, ∃ p : Profile, ∃ t : Table, ∃ recs : List LogitRec,
    (s.active = true) ∧ (s.lxCheck h = .ok (w, p)) ∧ (logitOrder w p = true) ∧ (s.table? w.bed 1 p.vocabId = some t) ∧ (payload.length = h.length) ∧ (logitRecs p.logitMode (fun n => if n < 16 then t.nsSize n else 0) h.count payload = some recs) :=
  ⟨busy { work5 with covered := 2, returned := 2 }, { packet with first := 0, length := 20 }, image 20 [(4, 4, 2)], { work5 with covered := 2, returned := 2 }, profile1, vocab, [{ index := 0, head := 0, ns := 0, mode := 0, lse := 0, full := [0, 0], pairs := [] }], by decide +kernel, (ok_is (by decide +kernel)), by decide +kernel, by decide +kernel, by decide +kernel, by decide +kernel⟩

theorem witness_LayerExchangeRuns_3 : ∃ s : State, ∃ sid : W64, ∃ w : Work, ∃ p : Profile,
    (s.active = true) ∧ (s.work? sid = some w) ∧ (s.profile? w.bed w.profile = some p) ∧ (s.abandonDue w p = true) :=
  ⟨busy work5 late, 5, work5, profile1, by decide +kernel, by decide +kernel, by decide +kernel, by decide +kernel⟩

theorem witness_LayerExchangeRuns_4 : ∃ s : State, ∃ sid : W64, ∃ w : Work, ∃ p : Profile, ∃ e : Entry,
    (s.active = true) ∧ (s.work? sid = some w) ∧ (s.owner? sid = some e) ∧ (s.profile? w.bed w.profile = some p) ∧ (w.sampling = true) ∧ (w.done = false) ∧ (s.samplerTurn w = true) ∧ (w.kind = .decode) :=
  ⟨busy { work5 with sampling := true }, 5, { work5 with sampling := true }, profile1, { owned .live with profile := 1 }, by decide +kernel, by decide +kernel, by decide +kernel, by decide +kernel, by decide +kernel, by decide +kernel, by decide +kernel, by decide +kernel⟩

theorem witness_LayerExchangeRuns_5 : ∃ s : State, ∃ sid : W64, ∃ w : Work, ∃ p : Profile, ∃ e : Entry,
    (s.active = true) ∧ (s.work? sid = some w) ∧ (s.owner? sid = some e) ∧ (s.profile? w.bed w.profile = some p) ∧ (w.sampling = true) ∧ (w.done = false) ∧ (s.samplerTurn w = true) ∧ (w.kind = .finalChunk) :=
  ⟨busy { work5 .finalChunk with sampling := true }, 5, { work5 .finalChunk with sampling := true }, profile1, { owned .live with profile := 1 }, by decide +kernel, by decide +kernel, by decide +kernel, by decide +kernel, by decide +kernel, by decide +kernel, by decide +kernel, by decide +kernel⟩

theorem witness_LayerExchangeRuns_6 : ∃ s : State, ∃ sid : W64, ∃ w : Work, ∃ p : Profile,
    (s.active = true) ∧ (s.work? sid = some w) ∧ (s.profile? w.bed w.profile = some p) ∧ (w.kind = .chunk) ∧ (chunkDone w p = true) ∧ (w.parts = []) :=
  ⟨busy { work5 .chunk with covered := 2 }, 5, { work5 .chunk with covered := 2 }, profile1, by decide +kernel, by decide +kernel, by decide +kernel, by decide +kernel, by decide +kernel, by decide +kernel⟩

theorem witness_GraftCommandsRun_0 : ∃ s : State, ∃ u : State, ∃ t : State, ∃ d : Desc, ∃ near : List Nat, ∃ area : Option Nat,
    (s.mayRun d = true) ∧ (u = s.start d) ∧ (u.keep.ready = true) ∧ (u.graftVerdict ((dBed d).getD 0) (u.buf0 d) = .accept) ∧ (u.takeWhole ((dBed d).getD 0) (u.buf0 d).length = some (near, area, t)) :=
  ⟨graftHost, graftStarted, (graftTake.getD ([], none, dev)).2.2, graftLoadCmd, (graftTake.getD ([], none, dev)).1, (graftTake.getD ([], none, dev)).2.1, by decide +kernel, rfl, by decide +kernel, by decide +kernel, (some3_of (x := graftTake) (by decide +kernel))⟩

theorem witness_GraftCommandsRun_1 : ∃ s : State, ∃ u : State, ∃ d : Desc, ∃ g : Graft,
    (s.mayRun d = true) ∧ (u = s.start d) ∧ (u.keep.ready = true) ∧ (u.graft? ((dBed d).getD 0) (dArg d 48 2) = some g) :=
  ⟨inFlight (grafted) (sesCmd [(48, 7)]), (inFlight (grafted) (sesCmd [(48, 7)])).start (sesCmd [(48, 7)]), sesCmd [(48, 7)], graft7, by decide +kernel, rfl, by decide +kernel, by decide +kernel⟩

theorem witness_GraftCommandsRun_2 : ∃ s : State, ∃ u : State, ∃ _ : State, ∃ d : Desc, ∃ g : Graft,
    (s.mayRun d = true) ∧ (u = s.start d) ∧ (u.graft? ((dBed d).getD 0) (dArg d 48 2) = some g) ∧ (u.moveOf (.graft ((dBed d).getD 0) g.id g.version) = none) ∧ (g.stow = none) ∧ (g.tier ≠ dArg d 50 1) ∧ (dArg d 50 1 = 1 ∨ dArg d 50 1 = 2) ∧ (u.bindings ((dBed d).getD 0) g.id g.version ≠ 0) :=
  ⟨inFlight ({ grafted with sch := { grafted.sch with work := [{ work5 with graft := some (7, 1) }] } }) (sesCmd [(48, 7), (50, 1)]), (inFlight ({ grafted with sch := { grafted.sch with work := [{ work5 with graft := some (7, 1) }] } }) (sesCmd [(48, 7), (50, 1)])).start (sesCmd [(48, 7), (50, 1)]), dev, sesCmd [(48, 7), (50, 1)], graft7, by decide +kernel, rfl, by decide +kernel, by decide +kernel, by decide +kernel, by decide +kernel, by decide +kernel, by decide +kernel⟩

theorem witness_GraftCommandsRun_3 : ∃ s : State, ∃ u : State, ∃ t : State, ∃ d : Desc, ∃ g : Graft,
    (s.mayRun d = true) ∧ (u = s.start d) ∧ (u.graft? ((dBed d).getD 0) (dArg d 48 2) = some g) ∧ (u.moveOf (.graft ((dBed d).getD 0) g.id g.version) = none) ∧ (g.stow = none) ∧ (g.tier ≠ dArg d 50 1) ∧ (dArg d 50 1 = 1 ∨ dArg d 50 1 = 2) ∧ (u.bindings ((dBed d).getD 0) g.id g.version = 0) ∧ (u.startStow g (dArg d 50 1) (some d) = .ok t) :=
  ⟨inFlight (grafted) (sesCmd [(48, 7), (50, 1)]), (inFlight (grafted) (sesCmd [(48, 7), (50, 1)])).start (sesCmd [(48, 7), (50, 1)]), okD (((inFlight (grafted) (sesCmd [(48, 7), (50, 1)])).start (sesCmd [(48, 7), (50, 1)])).startStow graft7 1 (some (sesCmd [(48, 7), (50, 1)]))) dev, sesCmd [(48, 7), (50, 1)], graft7, by decide +kernel, rfl, by decide +kernel, by decide +kernel, by decide +kernel, by decide +kernel, by decide +kernel, by decide +kernel, (ok_of (by decide +kernel))⟩

theorem witness_GraftCommandsRun_4 : ∃ s : State, ∃ u : State, ∃ d : Desc, ∃ sid : W64, ∃ e : Entry,
    (s.mayRun d = true) ∧ (u = s.start d) ∧ (u.targetSid d = some sid) ∧ (u.heldEntry d sid = .ok e) ∧ (∃ new, new = (if dArg d 48 2 = 0xFFFF then none else some (dArg d 48 2 % 4096)) ∧ (u.slotOf sid = none)) :=
  ⟨inFlight (ses [owned .paused]) (sesCmd [(48, 7)]), (inFlight (ses [owned .paused]) (sesCmd [(48, 7)])).start (sesCmd [(48, 7)]), sesCmd [(48, 7)], 5, owned .paused, by decide +kernel, rfl, by decide +kernel, (ok_is (by decide +kernel)), _, rfl, by decide +kernel⟩

theorem witness_GraftCommandsRun_5 : ∃ s : State, ∃ u : State, ∃ d : Desc, ∃ sid : W64, ∃ e : Entry, ∃ t,
    (s.mayRun d = true) ∧ (u = s.start d) ∧ (u.targetSid d = some sid) ∧ (u.heldEntry d sid = .ok e) ∧ (∃ new, new = (if dArg d 48 2 = 0xFFFF then none else some (dArg d 48 2 % 4096)) ∧ (u.slotOf sid = some t) ∧ (t.chGraft = none)) :=
  ⟨inFlight (busy work5) (sesCmd [(48, 0xFFFF)]), (inFlight (busy work5) (sesCmd [(48, 0xFFFF)])).start (sesCmd [(48, 0xFFFF)]), sesCmd [(48, 0xFFFF)], 5, { owned .live with profile := 1 }, slot0, by decide +kernel, rfl, by decide +kernel, (ok_is (by decide +kernel)), _, rfl, by decide +kernel, by decide +kernel⟩

theorem witness_GraftCommandsRun_6 : ∃ s : State, ∃ u : State, ∃ d : Desc,
    (s.mayRun d = true) ∧ (u = s.start d) ∧ (u.keep.ready = true) ∧ (dArg d 48 1 ≤ 15) :=
  ⟨inFlight (dev) (vfCmd [(48, 15)]), (inFlight (dev) (vfCmd [(48, 15)])).start (vfCmd [(48, 15)]), vfCmd [(48, 15)], by decide +kernel, rfl, by decide +kernel, by decide +kernel⟩

theorem witness_GraftCommandsRun_7 : ∃ s : State, ∃ u : State, ∃ d : Desc,
    (s.mayRun d = true) ∧ (u = s.start d) ∧ (u.keep.ready = true) ∧ (u.bedConfigured (dArg d 50 1) = true) :=
  ⟨inFlight (dev) (pfCmd []), (inFlight (dev) (pfCmd [])).start (pfCmd []), pfCmd [], by decide +kernel, rfl, by decide +kernel, by decide +kernel⟩

theorem witness_GraftCommandsRun_8 : ∃ s : State, ∃ u : State, ∃ d : Desc, ∃ g : Graft,
    (s.mayRun d = true) ∧ (u = s.start d) ∧ (u.graft? ((dBed d).getD 0) (dArg d 48 2) = some g) :=
  ⟨inFlight (grafted) (sesCmd [(48, 7)]), (inFlight (grafted) (sesCmd [(48, 7)])).start (sesCmd [(48, 7)]), sesCmd [(48, 7)], graft7, by decide +kernel, rfl, by decide +kernel⟩

theorem witness_GraftCommandsRun_9 : ∃ s : State, ∃ bed : Fin 16, ∃ id : W16, ∃ g : Graft,
    (s.active = true) ∧ (s.arriving bed id.toNat = some g) :=
  ⟨{ dev with grafts := [{ graft7 with tier := 1, moving := true }], tiers := { dev.tiers with moves := [{ ix := 0, what := .graft 0 7 1, cls := 1, bed := 0, region := 0, fromTier := 1, toTier := 0, pieces := 1, doneP := 1 }] } }, 0, 7, { graft7 with tier := 1, moving := true }, by decide +kernel, by decide +kernel⟩

theorem witness_PageCommandsRun_0 : ∃ s : State, ∃ u : State, ∃ t : State, ∃ d : Desc, ∃ n : Nat,
    (s.mayRun d = true) ∧ (u = s.start d) ∧ (dArg d 48 1 = 0xFF) ∧ (State.mapGranules ((dBed d).getD 0) none (u.granuleVas ((dBed d).getD 0) d.addr0.toNat (dLen0 d)) 0 u = .ok (n, t)) :=
  ⟨inFlight (dev) ({ vfCmd [(48, 0xFF)] with len0 := 16384 }), (inFlight (dev) ({ vfCmd [(48, 0xFF)] with len0 := 16384 })).start ({ vfCmd [(48, 0xFF)] with len0 := 16384 }), mapped.2, { vfCmd [(48, 0xFF)] with len0 := 16384 }, mapped.1, by decide +kernel, rfl, by decide +kernel, (ok_of (d := (0, dev)) (by decide +kernel))⟩

theorem witness_PageCommandsRun_1 : ∃ s : State, ∃ u : State, ∃ d : Desc,
    (s.mayRun d = true) ∧ (u = s.start d) :=
  ⟨inFlight (dev) (vfCmd []), (inFlight (dev) (vfCmd [])).start (vfCmd []), vfCmd [], by decide +kernel, rfl⟩

theorem witness_PageCommandsRun_2 : ∃ s : State, ∃ u : State, ∃ d : Desc, ∃ q : Seq,
    (s.mayRun d = true) ∧ (u = s.start d) ∧ (u.seqFor d = .ok q) ∧ (dArg d 48 1 = 0) :=
  ⟨inFlight (paged seq5) (sesCmd []), (inFlight (paged seq5) (sesCmd [])).start (sesCmd []), sesCmd [], seq5, by decide +kernel, rfl, (ok_is (by decide +kernel)), by decide +kernel⟩

theorem witness_PageCommandsRun_3 : ∃ s : State, ∃ u : State, ∃ d : Desc, ∃ q : Seq,
    (s.mayRun d = true) ∧ (u = s.start d) ∧ (u.seqFor d = .ok q) ∧ (dArg d 48 1 = 1) ∧ (((u.owner? q.sid).any fun e => e.position != 0) = false) :=
  ⟨inFlight (paged seq5) (sesCmd [(48, 1)]), (inFlight (paged seq5) (sesCmd [(48, 1)])).start (sesCmd [(48, 1)]), sesCmd [(48, 1)], seq5, by decide +kernel, rfl, (ok_is (by decide +kernel)), by decide +kernel, by decide +kernel⟩

theorem witness_PageCommandsRun_4 : ∃ s : State, ∃ u : State, ∃ d : Desc, ∃ q : Seq,
    (s.mayRun d = true) ∧ (u = s.start d) ∧ (u.seqFor d = .ok q) ∧ (q.leaf? (dArg d 48 2) (dArg d 52 4) = none) :=
  ⟨inFlight (paged seq5) (sesCmd []), (inFlight (paged seq5) (sesCmd [])).start (sesCmd []), sesCmd [], seq5, by decide +kernel, rfl, (ok_is (by decide +kernel)), by decide +kernel⟩

theorem witness_PageCommandsRun_5 : ∃ s : State, ∃ u : State, ∃ d : Desc, ∃ q : Seq, ∃ l,
    (s.mayRun d = true) ∧ (u = s.start d) ∧ (u.seqFor d = .ok q) ∧ (q.leaf? (dArg d 48 2) (dArg d 52 4) = some l) :=
  ⟨inFlight (paged { seq5 with leaves := [{ layer := 0, page := 0, frame := 0 }] }) (sesCmd []), (inFlight (paged { seq5 with leaves := [{ layer := 0, page := 0, frame := 0 }] }) (sesCmd [])).start (sesCmd []), sesCmd [], { seq5 with leaves := [{ layer := 0, page := 0, frame := 0 }] }, { layer := 0, page := 0, frame := 0 }, by decide +kernel, rfl, (ok_is (by decide +kernel)), by decide +kernel⟩

theorem witness_PageCommandsRun_6 : ∃ s : State, ∃ t : State, ∃ bed : Fin 16, ∃ v : W32, ∃ l : List Nat,
    (s.active = true) ∧ (s.fget F.KV_PFX_CTRL_ENABLE bed = 0) ∧ (F.KV_PFX_CTRL_ENABLE.get v = 1) ∧ (∃ sized, sized = ((s.fset F.KV_PFX_CTRL_LOG2_BUCKETS (F.KV_PFX_CTRL_LOG2_BUCKETS.get v) bed).dropPfxTable bed) ∧ (sized.takeObject bed (sized.pfxBuckets bed * 512) (sized.bedOrder bed) = some (l, t))) :=
  ⟨dev, pfxTaken.2, 0, 0x80, pfxTaken.1, by decide +kernel, by decide +kernel, by decide +kernel, _, rfl, by decide +kernel⟩

theorem witness_PageCommandsRun_7 : ∃ s : State, ∃ sid : W64, ∃ q : Seq, ∃ e : Entry, ∃ m : Move, ∃ c : KvCopy, ∃ p : Profile, ∃ dst : Nat,
    (s.active = true) ∧ (s.seq? sid = some q) ∧ (s.owner? sid = some e) ∧ (s.moveOf (.session sid) = some m) ∧ ((s.sch.work.any fun w => w.sid == sid) = false) ∧ (q.copy = some c) ∧ (m.pieces ≤ m.doneP) ∧ (s.profile? e.bed e.profile = some p) ∧ (m.dst = some dst) ∧ ((q.leaves.filter fun l => l.dirty) = []) :=
  ⟨copied, 5, { seq5 with copy := some { passes := 1 } }, owned .paused, { ix := 0, what := .session 5, cls := 4, bed := 0, region := 0, fromTier := 0, toTier := 1, dst := some 2, pieces := 1, doneP := 1 }, { passes := 1 }, plainProfile, 2, by decide +kernel, by decide +kernel, by decide +kernel, by decide +kernel, by decide +kernel, by decide +kernel, by decide +kernel, by decide +kernel, by decide +kernel, by decide +kernel⟩

theorem witness_TextIntakeRuns_0 : ∃ s : State, ∃ u : State, ∃ d : Desc, ∃ sid : W64, ∃ e : Entry,
    (s.mayRun d = true) ∧ (u = s.start d) ∧ (u.targetSid d = some sid) ∧ (u.heldEntry d sid = .ok e) ∧ (e.state = .live) :=
  ⟨inFlight (talking) (sesCmd []), (inFlight (talking) (sesCmd [])).start (sesCmd []), sesCmd [], 5, live5, by decide +kernel, rfl, by decide +kernel, (ok_is (by decide +kernel)), by decide +kernel⟩

theorem witness_TextIntakeRuns_3 : ∃ s : State, ∃ u : State, ∃ d : Desc, ∃ kind : Nat, ∃ id : Nat, ∃ t : Table,
    (s.mayRun d = true) ∧ (u = s.start d) ∧ (u.keep.ready = true) ∧ (u.table? ((dBed d).getD 0) kind id = some t) ∧ (u.tableNamed ((dBed d).getD 0) kind id = false) ∧ (∃ gone, gone = (s.apart fun _ => u.submit
      { journal := [u.tableEntry d ((dBed d).getD 0) kind 1 id t.version (digest128 t.bytes) 0 false]
        eff := .cmd d [] (kind) }) ∧ (1 ≤ kind) ∧ (kind ≤ 3) ∧ (dArg d 48 1 = kind) ∧ (dArg d 50 2 = id)) :=
  ⟨inFlight (withHost []) (sesCmd [(48, 1)]), (inFlight (withHost []) (sesCmd [(48, 1)])).start (sesCmd [(48, 1)]), sesCmd [(48, 1)], 1, 0, vocab, by decide +kernel, rfl, by decide +kernel, by decide +kernel, by decide +kernel, _, rfl, by decide +kernel, by decide +kernel, by decide +kernel, by decide +kernel⟩

theorem witness_TextIntakeRuns_4 : ∃ s : State, ∃ u : State, ∃ d : Desc, ∃ kind : Nat, ∃ id : Nat, ∃ t : Table,
    (s.mayRun d = true) ∧ (u = s.start d) ∧ (u.keep.ready = true) ∧ (u.table? ((dBed d).getD 0) kind id = some t) ∧ (u.tableNamed ((dBed d).getD 0) kind id = false) ∧ (∃ gone, gone = (s.apart fun _ => u.submit
      { journal := [u.tableEntry d ((dBed d).getD 0) kind 1 id t.version (digest128 t.bytes) 0 false]
        eff := .cmd d [] (kind) }) ∧ (kind = 4) ∧ (dArg d 48 2 = id)) :=
  ⟨inFlight ({ dev with intake := { dev.intake with tables := [{ vocab with kind := 4, id := 6 }] } }) (sesCmd [(48, 6)]), (inFlight ({ dev with intake := { dev.intake with tables := [{ vocab with kind := 4, id := 6 }] } }) (sesCmd [(48, 6)])).start (sesCmd [(48, 6)]), sesCmd [(48, 6)], 4, 6, { vocab with kind := 4, id := 6 }, by decide +kernel, rfl, by decide +kernel, by decide +kernel, by decide +kernel, _, rfl, by decide +kernel, by decide +kernel⟩

theorem witness_TextIntakeRuns_5 : ∃ s : State, ∃ u : State, ∃ d : Desc, ∃ p : Profile, ∃ env : TokEnv, ∃ t : TokSt,
    (s.mayRun d = true) ∧ (u = s.start d) ∧ (u.profile? ((dBed d).getD 0) (dArg d 48 2) = some p) ∧ (u.tokEnv p (u.tablesNow p) = some env) ∧ (t = (({} : TokSt).text env (u.buf0 d)).flush env) :=
  ⟨inFlight (talking) (sesCmd [(48, 1)]), (inFlight (talking) (sesCmd [(48, 1)])).start (sesCmd [(48, 1)]), sesCmd [(48, 1)], profile1, { vocab := vocab, merges := none, norm := none, pieceMax := 1, spaceMap := 0 }, _, by decide +kernel, rfl, by decide +kernel, by decide +kernel, rfl⟩

theorem witness_TextIntakeRuns_6 : ∃ s : State, ∃ q : Fin 4, ∃ sid : W64, ∃ e : Entry, ∃ sq : Seq, ∃ x : Submit, ∃ p : Profile, ∃ bs : List Byte, ∃ last : Bool,
    (s.active = true) ∧ (s.owner? sid = some e) ∧ (s.seq? sid = some sq) ∧ ((s.intake.submits.find? fun y => y.sid == sid) = some x) ∧ (s.profile? e.bed e.profile = some p) ∧ (x.text = some (bs, last)) ∧ (dieOf sq.region = q.val) ∧ (x.begun = true) ∧ (s.engineTurn q e.bed x = true) :=
  ⟨{ talking with intake := { talking.intake with submits := [input5] } }, 0, 5, live5, seq5, input5, profile1, [], true, by decide +kernel, by decide +kernel, by decide +kernel, by decide +kernel, by decide +kernel, by decide +kernel, by decide +kernel, by decide +kernel, by decide +kernel⟩

theorem witness_FurrowCommandsRun_0 : ∃ s : State, ∃ u : State, ∃ d : Desc,
    (s.mayRun d = true) ∧ (u = s.start d) ∧ (u.furrow? (dArg d 48 2) = none) ∧ (4 ≤ dArg d 50 1) ∧ (dArg d 50 1 ≤ 16) :=
  ⟨inFlight (dev) (vfCmd [(50, 16)]), (inFlight (dev) (vfCmd [(50, 16)])).start (vfCmd [(50, 16)]), vfCmd [(50, 16)], by decide +kernel, rfl, by decide +kernel, by decide +kernel, by decide +kernel⟩

theorem witness_FurrowCommandsRun_1 : ∃ s : State, ∃ u : State, ∃ d : Desc, ∃ f : Furrow,
    (s.mayRun d = true) ∧ (u = s.start d) ∧ (u.furrow? (dArg d 48 2) = some f) ∧ (f.bed = (dBed d).getD 0) ∧ ((u.ses.entries.any fun e => e.isOwner && e.bed == (dBed d).getD 0 && e.furrow == some f.num) = false) :=
  ⟨inFlight ({ dev with smp := { dev.smp with furrows := [furrow0] } }) (vfCmd []), (inFlight ({ dev with smp := { dev.smp with furrows := [furrow0] } }) (vfCmd [])).start (vfCmd []), vfCmd [], furrow0, by decide +kernel, rfl, by decide +kernel, by decide +kernel, by decide +kernel⟩

theorem witness_FurrowCommandsRun_2 : ∃ s : State, ∃ u : State, ∃ d : Desc, ∃ sid : W64, ∃ e : Entry, ∃ old : Nat, ∃ ctl : Controls,
    (s.mayRun d = true) ∧ (u = s.start d) ∧ (u.targetSid d = some sid) ∧ (u.heldEntry d sid = .ok e) ∧ (dArg d 48 1 ≠ 5) ∧ (setField (u.lastSet e).ctl (dArg d 48 1) (dArg d 56 8) = some (old, ctl)) :=
  ⟨inFlight (talking) (sesCmd [(48, 6)]), (inFlight (talking) (sesCmd [(48, 6)])).start (sesCmd [(48, 6)]), sesCmd [(48, 6)], 5, live5, 0, {}, by decide +kernel, rfl, by decide +kernel, (ok_is (by decide +kernel)), by decide +kernel, by decide +kernel⟩

theorem witness_FurrowCommandsRun_3 : ∃ s : State, ∃ u : State, ∃ d : Desc, ∃ sid : W64, ∃ e : Entry,
    (s.mayRun d = true) ∧ (u = s.start d) ∧ (u.targetSid d = some sid) ∧ (u.heldEntry d sid = .ok e) :=
  ⟨inFlight (talking) (sesCmd []), (inFlight (talking) (sesCmd [])).start (sesCmd []), sesCmd [], 5, live5, by decide +kernel, rfl, by decide +kernel, (ok_is (by decide +kernel))⟩

theorem witness_FurrowCommandsRun_4 : ∃ s : State, ∃ bed : Fin 16, ∃ v : W32, ∃ f : Furrow,
    (s.active = true) ∧ (s.furrow? (bits v.toNat 15 0) = some f) ∧ (f.bed = bed.val) ∧ ((bits v.toNat 31 16 % furSize f + furSize f - f.head) % furSize f ≤ f.used) :=
  ⟨{ dev with smp := { dev.smp with furrows := [furrow0] } }, 0, 0x20000, furrow0, by decide +kernel, by decide +kernel, by decide +kernel, by decide +kernel⟩

theorem witness_FurrowCommandsRun_5 : ∃ s : State, ∃ u : State, ∃ sid : W64, ∃ f : Furrow, ∃ f' : Furrow, ∃ c : OutCtx, ∃ c' : OutCtx, ∃ e : Entry,
    (s.active = true) ∧ (s.furrowOf sid = some f) ∧ (s.ctx? sid = some c) ∧ (s.flt.fatalBeds.contains f.bed = false) ∧ (u = State.drain (c.backlog.length + c.paused.length) s sid) ∧ (u.furrowOf sid = some f') ∧ (u.ctx? sid = some c') ∧ (u.owner? sid = some e) ∧ (c'.backlog ≠ []) ∧ (u.work? sid = none) :=
  ⟨{ quiet backlogged with smp := { furrows := [fullFurrow], ctxs := [backlogged] } }, State.drain 1 { quiet backlogged with smp := { furrows := [fullFurrow], ctxs := [backlogged] } } 5, 5, fullFurrow, fullFurrow, backlogged, backlogged, live5, by decide +kernel, by decide +kernel, by decide +kernel, by decide +kernel, rfl, by decide +kernel, by decide +kernel, by decide +kernel, by decide +kernel, by decide +kernel⟩

theorem witness_FurrowCommandsRun_6 : ∃ s : State, ∃ u : State, ∃ sid : W64, ∃ f : Furrow, ∃ f' : Furrow, ∃ c : OutCtx, ∃ c' : OutCtx, ∃ e : Entry, ∃ v : State,
    (s.active = true) ∧ (s.furrowOf sid = some f) ∧ (s.ctx? sid = some c) ∧ (s.flt.fatalBeds.contains f.bed = false) ∧ (u = State.drain (c.backlog.length + c.paused.length) s sid) ∧ (u.furrowOf sid = some f') ∧ (u.ctx? sid = some c') ∧ (u.owner? sid = some e) ∧ (c'.backlog = []) ∧ (c'.paused = []) ∧ (c'.drained ≠ 0) ∧ (f'.used < furSize f') ∧ (v = (u.event sid 0x18 e.position 0 (leBytes 4 c'.drained)).updCtx sid (fun c => { c with drained := 0 })) ∧ (v.work? sid = none) :=
  ⟨drainedDev, State.drain 0 drainedDev 5, 5, furrow0, furrow0, { bed := 0, sid := 5, drained := 1 }, { bed := 0, sid := 5, drained := 1 }, live5, _, by decide +kernel, by decide +kernel, by decide +kernel, by decide +kernel, rfl, by decide +kernel, by decide +kernel, by decide +kernel, by decide +kernel, by decide +kernel, by decide +kernel, by decide +kernel, rfl, by decide +kernel⟩

theorem witness_FurrowCommandsRun_7 : ∃ s : State, ∃ n : W16, ∃ f : Furrow,
    (s.active = true) ∧ (s.furrow? n.toNat = some f) ∧ (f.delay ≠ 0) ∧ (f.pending ≠ 0) ∧ (ftReached s.now (f.oldest + BitVec.ofNat 64 (f.delay * 65536)) = true) :=
  ⟨{ late with smp := { late.smp with furrows := [furrow0] } }, 0, furrow0, by decide +kernel, by decide +kernel, by decide +kernel, by decide +kernel, by decide +kernel⟩

theorem witness_TierCommandsRun_0 : ∃ s : State, ∃ u : State, ∃ d : Desc,
    (s.mayRun d = true) ∧ (u = s.start d) ∧ (u.bedConfigured (dArg d 50 1) = true) ∧ (u.keep.ready = true) :=
  ⟨inFlight (dev) (pfCmd []), (inFlight (dev) (pfCmd [])).start (pfCmd []), pfCmd [], by decide +kernel, rfl, by decide +kernel, by decide +kernel⟩

theorem witness_TierCommandsRun_1 : ∃ s : State, ∃ u : State, ∃ d : Desc, ∃ sid : W64, ∃ e : Entry, ∃ c : OutCtx,
    (s.mayRun d = true) ∧ (u = s.start d) ∧ (u.targetSid d = some sid) ∧ (u.heldEntry d sid = .ok e) ∧ (u.ctx? sid = some c) :=
  ⟨inFlight (talking) (sesCmd []), (inFlight (talking) (sesCmd [])).start (sesCmd []), sesCmd [], 5, live5, { bed := 0, sid := 5 }, by decide +kernel, rfl, by decide +kernel, (ok_is (by decide +kernel)), by decide +kernel⟩

theorem witness_TierCommandsRun_2 : ∃ s : State, ∃ u : State, ∃ d : Desc, ∃ t : TensorSet,
    (s.mayRun d = true) ∧ (u = s.start d) ∧ (u.setOf (BitVec.ofNat 64 (dArg d 56 8)) = some t) ∧ ((∀ b, dBed d = some b → t.bed = b)) :=
  ⟨inFlight (tiered) (vfCmd [(56, 9 + 3 * 16777216)]), (inFlight (tiered) (vfCmd [(56, 9 + 3 * 16777216)])).start (vfCmd [(56, 9 + 3 * 16777216)]), vfCmd [(56, 9 + 3 * 16777216)], set9, by decide +kernel, rfl, by decide +kernel, (fun b h => Option.some.inj h)⟩

theorem witness_TierCommandsRun_3 : ∃ s : State, ∃ u : State, ∃ d : Desc, ∃ ix : Nat,
    (s.mayRun d = true) ∧ (u = s.start d) ∧ (u.keep.ready = true) ∧ (u.ownerOk (dArg d 49 1) = true) ∧ (u.extentOk (dArg d 48 1) (dArg d 56 8) (dArg d 52 4 * hdmUnit) = true) ∧ (u.freeExtent (dArg d 48 1) = some ix) :=
  ⟨inFlight (decodedDev) (pfCmd [(48, 1), (52, 4)]), (inFlight (decodedDev) (pfCmd [(48, 1), (52, 4)])).start (pfCmd [(48, 1), (52, 4)]), pfCmd [(48, 1), (52, 4)], 0, by decide +kernel, rfl, by decide +kernel, by decide +kernel, by decide +kernel, by decide +kernel⟩

theorem witness_TierCommandsRun_4 : ∃ s : State, ∃ u : State, ∃ d : Desc, ∃ e : Extent,
    (s.mayRun d = true) ∧ (u = s.start d) ∧ (u.keep.ready = true) ∧ (u.extent? (dArg d 48 1) (dArg d 49 1) = some e) ∧ (e.state = .active) :=
  ⟨inFlight (tiered) (pfCmd [(48, 1), (49, 63)]), (inFlight (tiered) (pfCmd [(48, 1), (49, 63)])).start (pfCmd [(48, 1), (49, 63)]), pfCmd [(48, 1), (49, 63)], extent1, by decide +kernel, rfl, by decide +kernel, by decide +kernel, by decide +kernel⟩

theorem witness_TierCommandsRun_5 : ∃ s : State, ∃ u : State, ∃ d : Desc, ∃ e : Extent,
    (s.mayRun d = true) ∧ (u = s.start d) ∧ (u.keep.ready = true) ∧ ((u.extentGone e).2.keep.ready = true) ∧ (u.lostExtents d = [e]) :=
  ⟨inFlight (tiered) (pfCmd [(48, 1), (49, 0xFF)]), (inFlight (tiered) (pfCmd [(48, 1), (49, 0xFF)])).start (pfCmd [(48, 1), (49, 0xFF)]), pfCmd [(48, 1), (49, 0xFF)], extent1, by decide +kernel, rfl, by decide +kernel, by decide +kernel, by decide +kernel⟩

theorem witness_TierEventsRun_0 : ∃ s : State, ∃ port : Fin 4, ∃ ix : Nat, ∃ e : Extent,
    (s.active = true) ∧ (s.extent? port ix = some e) ∧ (e.state = .draining) ∧ ((s.tiers.sets.any fun t => setIn e t) = false) :=
  ⟨tiered dev [{ extent1 with state := .draining }] [] [], 1, 63, { extent1 with state := .draining }, by decide +kernel, by decide +kernel, by decide +kernel, by decide +kernel⟩

theorem witness_TierEventsRun_1 : ∃ s : State, ∃ ix : Nat, ∃ m : Move, ∃ sid : W64, ∃ node : Nat,
    (s.active = true) ∧ (s.move? ix = some m) ∧ (m.what = .handoff sid node) ∧ (0 < m.admitted) ∧ (m.waiting = false) ∧ (m.doneP < m.pieces) ∧ (m.failed = false) ∧ (s.pulling sid m.doneP = false) :=
  ⟨tiered dev [] [{ move4 with what := .handoff 5 3, doneP := 1, admitted := 1 }], 4, { move4 with what := .handoff 5 3, doneP := 1, admitted := 1 }, 5, 3, by decide +kernel, by decide +kernel, by decide +kernel, by decide +kernel, by decide +kernel, by decide +kernel, by decide +kernel, by decide +kernel⟩

theorem witness_TierEventsRun_2 : ∃ s : State, ∃ ix : Nat, ∃ m : Move, ∃ sid : W64, ∃ e : Entry,
    (s.active = true) ∧ (s.move? ix = some m) ∧ (m.failed = false) ∧ (m.pieces ≤ m.doneP) ∧ (m.what = .session sid) ∧ (s.owner? sid = some e) ∧ (m.toTier = 0) :=
  ⟨tiered talking [] [move4], 4, move4, 5, live5, by decide +kernel, by decide +kernel, by decide +kernel, by decide +kernel, by decide +kernel, by decide +kernel, by decide +kernel⟩

theorem witness_TierEventsRun_3 : ∃ s : State, ∃ ix : Nat, ∃ t : TensorSet,
    (s.active = true) ∧ (s.setIx? ix = some t) ∧ (t.state = .backing) ∧ (t.expiry ≠ 0) ∧ (ftReached s.now (ftExtend40 t.expiry) = true) :=
  ⟨tiered late, 9, set9, by decide +kernel, by decide +kernel, by decide +kernel, by decide +kernel, by decide +kernel⟩

theorem witness_TierEventsRun_4 : ∃ s : State, ∃ port : Fin 4, ∃ ix : Nat, ∃ t : TensorSet,
    (s.active = true) ∧ (s.setIx? ix = some t) ∧ (t.tier = 1) ∧ ((t.runs.any fun r => r.1 == port.val) = true) :=
  ⟨tiered, 1, 9, set9, by decide +kernel, by decide +kernel, by decide +kernel, by decide +kernel⟩

theorem witness_TierEventsRun_5 : ∃ s : State, ∃ port : Fin 4, ∃ ix : Nat, ∃ t : TensorSet,
    (s.active = true) ∧ (s.setIx? ix = some t) ∧ (t.tier = 1) ∧ ((t.runs.any fun r => r.1 == port.val) = true) ∧ (s.fget F.CXL_STATUS_LINK_UP port ≠ 0) :=
  ⟨tiered (dev.fset F.CXL_STATUS_LINK_UP 1 1), 1, 9, set9, by decide +kernel, by decide +kernel, by decide +kernel, by decide +kernel, by decide +kernel⟩

theorem witness_TierEventsRun_6 : ∃ s : State, ∃ r : Fin 16, ∃ _ : Nat, ∃ _ : List (Nat × Nat),
    (s.active = true) ∧ (s.fget F.RGN_CLK_STATUS_STOPPED r ≠ 1) ∧ ((s.stack r).rake + 1 ≠ stripeCount) :=
  ⟨dev, 15, 0, [], by decide +kernel, by decide +kernel, by decide +kernel⟩

theorem witness_TierEventsRun_7 : ∃ s : State, ∃ r : Fin 16, ∃ _ : Nat, ∃ _ : List (Nat × Nat),
    (s.active = true) ∧ ((s.stack r).spare = .copying) ∧ (s.fget F.RGN_CLK_STATUS_STOPPED r ≠ 1) ∧ ((s.stack r).ptr + 1 = stripeCount) :=
  ⟨sparing 499999999, 0, 0, [], by decide +kernel, by decide +kernel, by decide +kernel, by decide +kernel⟩

theorem witness_TierEventsRun_8 : ∃ s : State, ∃ r : Fin 16, ∃ _ : Nat, ∃ _ : List (Nat × Nat), ∃ _ : Fin 16,
    (s.active = true) ∧ ((s.stack r).spare ≠ .none) :=
  ⟨sparing 7, 0, 0, [], 15, by decide +kernel, by decide +kernel⟩

theorem witness_TierEventsRun_9 : ∃ s : State, ∃ r : Fin 16, ∃ _ : Nat, ∃ _ : List (Nat × Nat), ∃ _ : Fin 16,
    (s.active = true) ∧ ((s.stack r).spare = .none) :=
  ⟨dev, 0, 0, [], 3, by decide +kernel, by decide +kernel⟩

theorem witness_ExpanderLinkRuns_0 : ∃ s : State, ∃ port : Fin 4,
    (s.active = true) ∧ (s.fget F.CXL_STATUS_LINK_UP port ≠ 0) :=
  ⟨dev.fset F.CXL_STATUS_LINK_UP 1 3, 3, by decide +kernel, by decide +kernel⟩

theorem witness_ExpanderLinkRuns_1 : ∃ s : State, ∃ _ : Fin 4,
    (s.active = true) :=
  ⟨dev, 0, by decide +kernel⟩

theorem witness_ExpanderLinkRuns_2 : ∃ s : State, ∃ _ : Fin 4, ∃ _ : Bool,
    (s.active = true) ∧ (s.keep.ready = true) :=
  ⟨dev, 3, true, by decide +kernel, by decide +kernel⟩

theorem witness_ExpanderLinkRuns_3 : ∃ s : State, ∃ port : Fin 4, ∃ k : Fin 8, ∃ on : Bool,
    (s.active = true) ∧ (s.keep.ready = true) ∧ (s.hdmOn port k = !on) ∧ ((if on then s.hdmFits port k else s.hdmIdle port k) = true) :=
  ⟨dev.fset F.CXL_HDM_SIZE_SIZE 4 1 7, 1, 7, true, by decide +kernel, by decide +kernel, by decide +kernel, by decide +kernel⟩

theorem witness_ExpanderLinkRuns_4 : ∃ s : State, ∃ port : Fin 4, ∃ v : W32, ∃ u : State,
    (s.active = true) ∧ (s.fget F.CXL_IO_CTRL_BUSY port ≠ 1) ∧ (F.CXL_IO_CTRL_GO.get v ≠ 0) ∧ (u = (s.fset F.CXL_IO_CTRL_OP (F.CXL_IO_CTRL_OP.get v) port).fset F.CXL_IO_CTRL_BE (F.CXL_IO_CTRL_BE.get v) port) :=
  ⟨dev, 1, 0x100, _, by decide +kernel, by decide +kernel, by decide +kernel, rfl⟩

theorem witness_ExpanderLinkRuns_5 : ∃ s : State, ∃ port : Fin 4, ∃ result : Fin 4, ∃ _ : W32, ∃ a : CxlIo, ∃ u : State,
    (s.active = true) ∧ ((s.tiers.io.find? fun a => a.port == port.val) = some a) ∧ (u = (({ s with tiers := { s.tiers with io := s.tiers.io.filter fun x => x.port != port.val } } : State).fset
        F.CXL_IO_CTRL_BUSY 0 port).fset F.CXL_IO_CTRL_RESULT result port) ∧ (result.val = 0) ∧ (a.op % 2 = 0) :=
  ⟨{ dev with tiers := { dev.tiers with io := [{ port := 2, op := 0, addr := 0, data := 0, be := 15 }] } }, 2, 0, 7, { port := 2, op := 0, addr := 0, data := 0, be := 15 }, _, by decide +kernel, by decide +kernel, rfl, by decide +kernel, by decide +kernel⟩

theorem witness_ExpanderLinkRuns_6 : ∃ s : State, ∃ port : Fin 4, ∃ result : Fin 4, ∃ _ : W32, ∃ a : CxlIo, ∃ u : State,
    (s.active = true) ∧ ((s.tiers.io.find? fun a => a.port == port.val) = some a) ∧ (u = (({ s with tiers := { s.tiers with io := s.tiers.io.filter fun x => x.port != port.val } } : State).fset
        F.CXL_IO_CTRL_BUSY 0 port).fset F.CXL_IO_CTRL_RESULT result port) ∧ (result.val ≠ 0) :=
  ⟨{ dev with tiers := { dev.tiers with io := [{ port := 2, op := 1, addr := 0, data := 0, be := 15 }] } }, 2, 3, 7, { port := 2, op := 1, addr := 0, data := 0, be := 15 }, _, by decide +kernel, by decide +kernel, rfl, by decide +kernel⟩

theorem witness_FlashRuns_0 : ∃ s : State, ∃ u : State, ∃ d : Desc, ∃ mine : Release → Bool, ∃ rs : List (Nat × Nat × Nat),
    (s.mayRun d = true) ∧ (u = s.start d) ∧ ((∀ b, dBed d = some b → ∀ r, mine r = (r.bed == some b))) ∧ ((dBed d = none → ∀ r, mine r = true)) ∧ (rs = List.flatten ((List.range 8).map fun i =>
        ((u.flashCtl i).releases.filter mine).map fun r => (i, r.ix, r.erased))) ∧ (rs = []) :=
  ⟨inFlight (dev) (vfCmd []), (inFlight (dev) (vfCmd [])).start (vfCmd []), vfCmd [], fun r => r.bed == some 0, [], by decide +kernel, rfl, (fun b h r => by cases h; rfl), (fun h => nomatch h), rfl, rfl⟩

theorem witness_FlashRuns_1 : ∃ s : State, ∃ u : State, ∃ d : Desc, ∃ mine : Release → Bool, ∃ rs : List (Nat × Nat × Nat),
    (s.mayRun d = true) ∧ (u = s.start d) ∧ ((∀ b, dBed d = some b → ∀ r, mine r = (r.bed == some b))) ∧ ((dBed d = none → ∀ r, mine r = true)) ∧ (rs = List.flatten ((List.range 8).map fun i =>
        ((u.flashCtl i).releases.filter mine).map fun r => (i, r.ix, r.erased))) ∧ (rs ≠ []) :=
  ⟨inFlight (flashed { releases := [{ bed := some 0, left := [7], ix := 2, started := 0 }] }) (pfCmd []), (inFlight (flashed { releases := [{ bed := some 0, left := [7], ix := 2, started := 0 }] }) (pfCmd [])).start (pfCmd []), pfCmd [], fun _ => true, [(0, 2, 0)], by decide +kernel, rfl, (fun b h => nomatch h), (fun _ _ => rfl), rfl, by decide +kernel⟩

theorem witness_FlashRuns_2 : ∃ s : State, ∃ u : State, ∃ d : Desc, ∃ r : KeepRec,
    (s.mayRun d = true) ∧ (u = s.start d) ∧ ((dArg d 48 2 < 0x10 ∨ 0x1F < dArg d 48 2)) ∧ (u.keepCur (dArg d 48 2) (BitVec.ofNat 64 (dArg d 56 8)) = some r) :=
  ⟨inFlight ({ dev with keep := { ready := true, records := [{ typ := 0x20, key := 6, seq := 1, bank := false, page := 0, payload := [1] }] } }) (pfCmd [(48, 0x20), (56, 6)]), (inFlight ({ dev with keep := { ready := true, records := [{ typ := 0x20, key := 6, seq := 1, bank := false, page := 0, payload := [1] }] } }) (pfCmd [(48, 0x20), (56, 6)])).start (pfCmd [(48, 0x20), (56, 6)]), pfCmd [(48, 0x20), (56, 6)], { typ := 0x20, key := 6, seq := 1, bank := false, page := 0, payload := [1] }, by decide +kernel, rfl, by decide +kernel, by decide +kernel⟩

theorem witness_FlashRuns_3 : ∃ s : State, ∃ c : Fin 8, ∃ a : AppendRec, ∃ rest : List AppendRec, ∃ fit : List AppendRec,
    (s.active = true) ∧ ((s.flashCtl c).append = a :: rest) ∧ (fit = appendFit 16384 (a :: rest)) ∧ (ftReached s.now (ftAdd a.at_ 1) = true) :=
  ⟨flashed { append := [{ msg := ownMsg, at_ := 0 }] } late, 0, { msg := ownMsg, at_ := 0 }, [], [{ msg := ownMsg, at_ := 0 }], by decide +kernel, by decide +kernel, rfl, by decide +kernel⟩

theorem witness_FlashRuns_5 : ∃ s : State, ∃ c : Fin 8, ∃ x : FlashCopy, ∃ a : State, ∃ m : State, ∃ t : State, ∃ w : W64,
    (s.active = true) ∧ ((s.flashCtl c).copy = some x) ∧ (s.flt.flashOff.contains c.val = false) ∧ (a = (s.updFlash c fun f => { f with copy := none }).copyPages c x) ∧ (w = (a.flashCtl c).wseq - 1) ∧ (m = ((a.keepSave (intentRecord c x 1 w)).mapMoved x).eraseOld x) ∧ (t = (m.keepSave (m.mapSegment c (x.lb / 8 / 1024))).keepSave (intentRecord c x 2 w)) :=
  ⟨flashed { map := [block0], copy := some copy0 }, 0, copy0, _, _, _, _, by decide +kernel, by decide +kernel, by decide +kernel, rfl, rfl, rfl, rfl⟩

theorem witness_FlashRuns_6 : ∃ s : State, ∃ c : Fin 8, ∃ corrected : Nat, ∃ page : Nat, ∃ r : PageRun, ∃ u : State,
    (s.active = true) ∧ (s.flt.flashOff.contains c.val = false) ∧ (((s.programmed c).find? fun r => decide ((s.flashCtl c).rake < r.at_ + r.count)) = some r) ∧ (page = max (s.flashCtl c).rake r.at_) ∧ (u = ((s.updFlash c fun f => { f with rake := page + 1 }).fset F.FL_RAKE_POS_PERCENT
        (((((s.programmed c).filter fun y => y.at_ < r.at_).map fun y => y.count).sum + (page - r.at_) + 1) * 100 /
          max 1 ((s.programmed c).map fun y => y.count).sum) c).flashRead c r.phys 1) ∧ (corrected ≤ min 120 (u.fget F.FL_REFRESH_BITS_VALUE c)) :=
  ⟨flashed { prog := [{ phys := 0, page := 0, count := 10, kind := 1 }], map := [block0] }, 0, 0, 0, { phys := 0, page := 0, count := 10, kind := 1 }, _, by decide +kernel, by decide +kernel, by decide +kernel, rfl, rfl, by decide +kernel⟩

theorem witness_FlashRuns_7 : ∃ s : State, ∃ c : Fin 8, ∃ phys : Nat, ∃ u : State,
    (s.active = true) ∧ ((s.flashCtl c).retired.contains phys = false) ∧ (phys < stackBlocks) ∧ (s.vacate c phys = some u) :=
  ⟨dev, 7, 79487, _, by decide +kernel, by decide +kernel, by decide +kernel, (some_of (d := dev) (by decide +kernel))⟩

theorem witness_FlashRuns_8 : ∃ s : State, ∃ c : Fin 8, ∃ phys : Nat,
    (s.active = true) ∧ ((s.flashCtl c).stale.contains phys = true) ∧ ((s.flashCtl c).appendBlock? phys = none) :=
  ⟨flashed { stale := [3000] }, 0, 3000, by decide +kernel, by decide +kernel, by decide +kernel⟩

theorem witness_FlashRuns_9 : ∃ s : State, ∃ u : State, ∃ v : State,
    (s.active = true) ∧ (s.seq = 1) ∧ (u = ({ s.loadFlash with keep := { s.loadFlash.keep with ready := true }, ck := { s.loadFlash.ck with
                              stored := s.loadFlash.ck.stored.filter s.loadFlash.ckRecorded } } : State)) ∧ (v = u.loadHomeMap.loadSec.showJournal) :=
  ⟨dev.fset F.SEC_STATE_SEQ 1 0, _, _, by decide +kernel, by decide +kernel, rfl, rfl⟩

theorem witness_SearchCommandsRun_0 : ∃ s : State, ∃ u : State, ∃ w : State, ∃ d : Desc, ∃ t : List Byte, ∃ near : List Nat, ∃ area : Option Nat, ∃ v,
    (s.mayRun d = true) ∧ (u = s.start d) ∧ (u.keep.ready = true) ∧ (t = u.buf0 d) ∧ (u.vsVerdict ((dBed d).getD 0) t = .accept) ∧ (u.vsTake ((dBed d).getD 0) t.length (u.vsIndex? ((dBed d).getD 0) (vtId t)).isNone = some (near, area, w)) ∧ (u.vsCurrent ((dBed d).getD 0) (vtId t) = some v) :=
  ⟨vsAgain, vsAgain.start vsLoadCmd, ((vsTaken vsAgain).getD ([], none, dev)).2.2, vsLoadCmd, (vsAgain.start vsLoadCmd).buf0 vsLoadCmd, ((vsTaken vsAgain).getD ([], none, dev)).1, ((vsTaken vsAgain).getD ([], none, dev)).2.1, version2, by decide +kernel, rfl, by decide +kernel, rfl, by decide +kernel, (some3_of (x := vsTaken vsAgain) (by decide +kernel)), by decide +kernel⟩

theorem witness_SearchCommandsRun_1 : ∃ s : State, ∃ u : State, ∃ w : State, ∃ d : Desc, ∃ t : List Byte, ∃ near : List Nat, ∃ area : Option Nat,
    (s.mayRun d = true) ∧ (u = s.start d) ∧ (u.keep.ready = true) ∧ (t = u.buf0 d) ∧ (u.vsVerdict ((dBed d).getD 0) t = .accept) ∧ (u.vsTake ((dBed d).getD 0) t.length (u.vsIndex? ((dBed d).getD 0) (vtId t)).isNone = some (near, area, w)) ∧ (u.vsCurrent ((dBed d).getD 0) (vtId t) = none) :=
  ⟨vsFirst, vsFirst.start vsLoadCmd, ((vsTaken vsFirst).getD ([], none, dev)).2.2, vsLoadCmd, (vsFirst.start vsLoadCmd).buf0 vsLoadCmd, ((vsTaken vsFirst).getD ([], none, dev)).1, ((vsTaken vsFirst).getD ([], none, dev)).2.1, by decide +kernel, rfl, by decide +kernel, rfl, by decide +kernel, (some3_of (x := vsTaken vsFirst) (by decide +kernel)), by decide +kernel⟩

theorem witness_SearchCommandsRun_2 : ∃ s : State, ∃ u : State, ∃ d : Desc, ∃ v : VsVersion,
    (s.mayRun d = true) ∧ (u = s.start d) ∧ (u.keep.ready = true) ∧ (u.vsCurrent ((dBed d).getD 0) (dArg d 48 2) = some v) :=
  ⟨inFlight (searching) (sesCmd [(48, 2)]), (inFlight (searching) (sesCmd [(48, 2)])).start (sesCmd [(48, 2)]), sesCmd [(48, 2)], version2, by decide +kernel, rfl, by decide +kernel, by decide +kernel⟩

theorem witness_SearchCommandsRun_3 : ∃ s : State, ∃ u : State, ∃ d : Desc, ∃ r : List Byte, ∃ v : VsVersion, ∃ x : VsIndex, ∃ w : Nat, ∃ sent : List (Nat × W16) × State,
    (s.mayRun d = true) ∧ (u = s.start d) ∧ (r = u.buf0N d 64) ∧ (u.vsCurrent ((dBed d).getD 0) (vqIndex r) = some v) ∧ (u.vsIndex? ((dBed d).getD 0) (vqIndex r) = some x) ∧ (vqDim r = vtDim v.table) ∧ (vqLimits r = true) ∧ (u.freeWalker (u.queryDie d ((dBed d).getD 0)) = some w) ∧ (sent = (u.touchAddr d d.addr0 (vqBytes r)).sendShards (vtShard v.table) ((dBed d).getD 0) (u.buf0N d (vqBytes r))
      (vqRemotes r)) :=
  ⟨inFlight ({ searching with mem := { dev.mem with host := cells 0x1000 [(0, 2, 2), (2, 2, 1024), (8, 4, 1048576), (40, 2, 32), (42, 1, 8)] } }) (bufCmd 64 []), (inFlight ({ searching with mem := { dev.mem with host := cells 0x1000 [(0, 2, 2), (2, 2, 1024), (8, 4, 1048576), (40, 2, 32), (42, 1, 8)] } }) (bufCmd 64 [])).start (bufCmd 64 []), bufCmd 64 [], _, version2, index2, 0, _, by decide +kernel, rfl, rfl, by decide +kernel, by decide +kernel, by decide +kernel, by decide +kernel, by decide +kernel, rfl⟩

theorem witness_SearchCommandsRun_4 : ∃ s : State, ∃ u : State, ∃ d : Desc, ∃ v : VsVersion, ∃ x : VsIndex,
    (s.mayRun d = true) ∧ (u = s.start d) ∧ (u.vsCurrent ((dBed d).getD 0) (dArg d 48 2) = some v) ∧ (u.vsIndex? ((dBed d).getD 0) (dArg d 48 2) = some x) ∧ ((vsKeys x).length + ((vsKeyList (u.buf0 d)).eraseDups.filter fun k => !(vsKeys x).contains k).length ≤ 65536) :=
  ⟨inFlight (searching) ({ sesCmd [(48, 2)] with len0 := 8 }), (inFlight (searching) ({ sesCmd [(48, 2)] with len0 := 8 })).start ({ sesCmd [(48, 2)] with len0 := 8 }), { sesCmd [(48, 2)] with len0 := 8 }, version2, index2, by decide +kernel, rfl, by decide +kernel, by decide +kernel, by decide +kernel⟩

theorem witness_SearchCommandsRun_5 : ∃ s : State, ∃ u : State, ∃ d : Desc, ∃ v : VsVersion, ∃ x : VsIndex,
    (s.mayRun d = true) ∧ (u = s.start d) ∧ (u.vsCurrent ((dBed d).getD 0) (dArg d 48 2) = some v) ∧ (u.vsIndex? ((dBed d).getD 0) (dArg d 48 2) = some x) ∧ (u.keep.ready = true) :=
  ⟨inFlight (searching) (sesCmd [(48, 2)]), (inFlight (searching) (sesCmd [(48, 2)])).start (sesCmd [(48, 2)]), sesCmd [(48, 2)], version2, index2, by decide +kernel, rfl, by decide +kernel, by decide +kernel, by decide +kernel⟩

theorem witness_SearchCommandsRun_6 : ∃ s : State, ∃ u : State, ∃ d : Desc, ∃ bed : Nat, ∃ v : VsVersion, ∃ x : VsIndex,
    (s.mayRun d = true) ∧ (u = s.start d) ∧ ((dBed d = some bed ∨ (dBed d = none ∧ bed = dArg d 50 1))) ∧ (u.bedConfigured bed = true) ∧ (u.vsCurrent bed (dArg d 48 2) = some v) ∧ (u.vsIndex? bed (dArg d 48 2) = some x) :=
  ⟨inFlight (searching) (pfCmd [(48, 2)]), (inFlight (searching) (pfCmd [(48, 2)])).start (pfCmd [(48, 2)]), pfCmd [(48, 2)], 0, version2, index2, by decide +kernel, rfl, by decide +kernel, by decide +kernel, by decide +kernel, by decide +kernel⟩

theorem witness_SearchMessagesRun_0 : ∃ s : State, ∃ ix : Nat, ∃ q : VsQuery, ∃ v : VsVersion, ∃ x : VsIndex, ∃ own : VsResult, ∃ u : State,
    (s.active = true) ∧ (s.query? ix = some q) ∧ (q.walk = none) ∧ ((s.vs.versions.find? fun v => v.bed == q.bed && v.id == q.id && v.num == q.num) = some v) ∧ (s.vsIndex? q.bed q.id = some x) ∧ (q.asker = none) ∧ (own = vsWalkAll
      { t := v.table, q := vqConvert v.table q.vec, r := q.rec64, gone := (s.vsGone x q.dseq).1
        bad := fun o n => s.holdBad v.near o n }) ∧ (u = (((s.vsGone x q.dseq).2.bump64 .DS_GW_VISITS_LO .DS_GW_VISITS_HI q.die own.visits).count (16 + q.die) 0x23 0
        (some q.bed) own.visits).bump64 .VS_VISITS_LO .VS_VISITS_HI q.bed own.visits) :=
  ⟨searching [query1], 1, query1, version2, index2, _, _, by decide +kernel, by decide +kernel, by decide +kernel, by decide +kernel, by decide +kernel, by decide +kernel, rfl, rfl⟩

theorem witness_SearchMessagesRun_1 : ∃ s : State, ∃ m : VsMsg, ∃ v : VsVersion,
    (s.active = true) ∧ (s.sharedVersion m.shard m.sender = some v) ∧ (vqDim (m.payload.take 64) ≠ vtDim v.table) :=
  ⟨searching, { vsMsg with payload := [] }, version2, by decide +kernel, by decide +kernel, by decide +kernel⟩

theorem witness_SearchMessagesRun_2 : ∃ s : State, ∃ m : VsMsg, ∃ v : VsVersion, ∃ w : Nat, ∃ x : VsIndex,
    (s.active = true) ∧ (s.sharedVersion m.shard m.sender = some v) ∧ (vqDim (m.payload.take 64) = vtDim v.table) ∧ (s.freeWalker (s.quietDie v.bed) = some w) ∧ (s.vsIndex? v.bed v.id = some x) :=
  ⟨searching, vsMsg, version2, 0, index2, by decide +kernel, by decide +kernel, by decide +kernel, by decide +kernel, by decide +kernel⟩

theorem witness_SearchMessagesRun_3 : ∃ s : State, ∃ m : VsMsg, ∃ q : VsQuery, ∃ k : Nat,
    (s.active = true) ∧ ((s.vs.queries.find? fun q => !q.timedOut && (vsPlace q m).isSome) = some q) ∧ (vsPlace q m = some k) ∧ (ftLater s.now (ftAdd q.started (vqTimeout q.rec64)) = false) :=
  ⟨searching [waiting1], vsMsg, waiting1, 0, by decide +kernel, by decide +kernel, by decide +kernel, by decide +kernel⟩

theorem witness_SearchMessagesRun_4 : ∃ s : State, ∃ ix : Nat, ∃ q : VsQuery,
    (s.active = true) ∧ (s.query? ix = some q) ∧ (ftReached s.now (ftAdd q.started (vqTimeout q.rec64)) = true) :=
  ⟨searching [waiting1] late, 1, waiting1, by decide +kernel, by decide +kernel, by decide +kernel⟩

theorem witness_LinkTrainingRuns_1 : ∃ s : State, ∃ u : State, ∃ d : Desc, ∃ k : KeySlot,
    (s.mayRun d = true) ∧ (u = s.start d) ∧ (u.keep.ready = true) ∧ (u.myKey d = some k) :=
  ⟨inFlight ({ dev with plw := { dev.plw with slots := [key5] } }) (vfCmd [(48, 5)]), (inFlight ({ dev with plw := { dev.plw with slots := [key5] } }) (vfCmd [(48, 5)])).start (vfCmd [(48, 5)]), vfCmd [(48, 5)], key5, by decide +kernel, rfl, by decide +kernel, by decide +kernel⟩

theorem witness_LinkTrainingRuns_2 : ∃ s : State, ∃ u : State, ∃ p : Fin 8, ∃ on : Bool,
    (s.active = true) ∧ (u = s.fset F.PLW_CTRL_ENABLE (if on then 1 else 0) p) :=
  ⟨dev, _, 7, true, by decide +kernel, rfl⟩

theorem witness_LinkTrainingRuns_3 : ∃ s : State, ∃ p : Fin 8, ∃ lanes : Byte, ∃ use : Nat, ∃ both : Nat,
    (s.active = true) ∧ (use = (lanes.toNat &&& s.fget F.PLW_CTRL_LANE_MASK p) % 256) ∧ (both = (lanes.toNat &&& s.fget F.PLW_CTRL_LANE_MASK p &&& (s.port p).agreed) % 256) ∧ (ftLater s.now (ftAdd (s.port p).since 4) = false) ∧ (s.portState p = Pst.optical) ∧ (use ≠ 0) :=
  ⟨linked Pst.optical, 7, 0x3C, 0x3C, 0, by decide +kernel, rfl, rfl, by decide +kernel, by decide +kernel, by decide +kernel⟩

theorem witness_LinkTrainingRuns_4 : ∃ s : State, ∃ p : Fin 8, ∃ lanes : Byte, ∃ use : Nat, ∃ both : Nat,
    (s.active = true) ∧ (use = (lanes.toNat &&& s.fget F.PLW_CTRL_LANE_MASK p) % 256) ∧ (both = (lanes.toNat &&& s.fget F.PLW_CTRL_LANE_MASK p &&& (s.port p).agreed) % 256) ∧ (ftLater s.now (ftAdd (s.port p).since 4) = false) ∧ (s.portState p = Pst.retrain) ∧ (both ≠ 0) :=
  ⟨linked Pst.retrain { agreed := 0xF0 }, 7, 0x81, 0x81, 0x80, by decide +kernel, rfl, rfl, by decide +kernel, by decide +kernel, by decide +kernel⟩

theorem witness_LinkTrainingRuns_5 : ∃ s : State, ∃ u : State, ∃ p : Fin 8, ∃ t : Train, ∃ _ : Nat,
    (s.active = true) ∧ (t.good = true) ∧ (u = ((s.fset F.PLW_STATE_ROLE t.role p).fset F.PLW_PARTNER_PORT t.port p).fset F.PLW_PARTNER_NODE t.node p) ∧ (u.portState p ≠ Pst.negotiate) :=
  ⟨linked Pst.active, _, 7, train1 false 3, 0, by decide +kernel, by decide +kernel, rfl, by decide +kernel⟩

theorem witness_LinkTrainingRuns_6 : ∃ s : State, ∃ u : State, ∃ p : Fin 8, ∃ t : Train, ∃ _ : Nat,
    (s.active = true) ∧ (t.good = true) ∧ (u = ((s.fset F.PLW_STATE_ROLE t.role p).fset F.PLW_PARTNER_PORT t.port p).fset F.PLW_PARTNER_NODE t.node p) ∧ (u.portState p = Pst.negotiate) ∧ (u.commonVersion p t = none) :=
  ⟨linked Pst.negotiate, _, 7, train1 false 0, 0, by decide +kernel, by decide +kernel, rfl, by decide +kernel, by decide +kernel⟩

theorem witness_LinkTrainingRuns_7 : ∃ s : State, ∃ u : State, ∃ p : Fin 8, ∃ t : Train, ∃ v : Nat,
    (s.active = true) ∧ (t.good = true) ∧ (u = ((s.fset F.PLW_STATE_ROLE t.role p).fset F.PLW_PARTNER_PORT t.port p).fset F.PLW_PARTNER_NODE t.node p) ∧ (u.portState p = Pst.negotiate) ∧ (u.commonVersion p t = some v) ∧ (t.ack = true) ∧ ((u.port p).lanes &&& t.lanes ≠ 0) :=
  ⟨linked Pst.negotiate { lanes := 0x0F }, _, 7, train1 true 1, 0x12, by decide +kernel, by decide +kernel, rfl, by decide +kernel, by decide +kernel, by decide +kernel, by decide +kernel⟩

theorem witness_LinkTrainingRuns_8 : ∃ s : State, ∃ p : Fin 8,
    (s.active = true) ∧ (ftReached s.now (ftAdd (s.port p).since 4) = true) ∧ (s.portState p = Pst.negotiate) :=
  ⟨linked Pst.negotiate {} late, 7, by decide +kernel, by decide +kernel, by decide +kernel⟩

theorem witness_LinkTrainingRuns_9 : ∃ s : State, ∃ p : Fin 8,
    (s.active = true) ∧ (ftReached s.now (ftAdd (s.port p).since 4) = true) ∧ (s.portState p = Pst.optical ∨ s.portState p = Pst.retrain) :=
  ⟨linked Pst.retrain {} late, 7, by decide +kernel, by decide +kernel, by decide +kernel⟩

theorem witness_LinkTrainingRuns_10 : ∃ s : State, ∃ p : Fin 8,
    (s.active = true) ∧ (s.portState p = Pst.down) ∧ (s.fget F.PLW_CTRL_ENABLE p = 1) ∧ (ftReached s.now (ftAdd (s.port p).since 480) = true) :=
  ⟨(linked Pst.down {} late).fset F.PLW_CTRL_ENABLE 1 7, 7, by decide +kernel, by decide +kernel, by decide +kernel, by decide +kernel⟩

theorem witness_LinkTrainingRuns_11 : ∃ s : State, ∃ p : Fin 8, ∃ _ : Byte,
    (s.active = true) ∧ (s.portState p = Pst.active) :=
  ⟨linked Pst.active, 7, 0x0F, by decide +kernel, by decide +kernel⟩

theorem witness_LinkFramesRun_0 : ∃ s : State, ∃ u : State, ∃ p : Fin 8, ∃ f : Frame,
    (s.active = true) ∧ (s.portState p = Pst.active) ∧ (f.fecBad = false) ∧ (u = s.bump64 .PLW_FEC_CORR_LO .PLW_FEC_CORR_HI p f.fecCorr) ∧ (f.good = true) ∧ (f.lseq = (u.port p).rxSeq) :=
  ⟨linked Pst.active, _, 7, frame1 true, by decide +kernel, by decide +kernel, by decide +kernel, rfl, by decide +kernel, by decide +kernel⟩

theorem witness_LinkFramesRun_1 : ∃ s : State, ∃ u : State, ∃ p : Fin 8, ∃ f : Frame,
    (s.active = true) ∧ (s.portState p = Pst.active) ∧ (f.fecBad = false) ∧ (u = s.bump64 .PLW_FEC_CORR_LO .PLW_FEC_CORR_HI p f.fecCorr) ∧ (f.good = false ∨ f.lseq ≠ (u.port p).rxSeq) :=
  ⟨linked Pst.active, _, 7, frame1 false, by decide +kernel, by decide +kernel, by decide +kernel, rfl, by decide +kernel⟩

theorem witness_LinkFramesRun_2 : ∃ s : State, ∃ p : Fin 8,
    (s.active = true) ∧ (s.portState p = Pst.active) :=
  ⟨linked Pst.active, 7, by decide +kernel, by decide +kernel⟩

theorem witness_LinkFramesRun_3 : ∃ s : State, ∃ p : Fin 8, ∃ c : CtlBlock,
    (s.active = true) ∧ (s.portState p = Pst.active) ∧ (c.good = true) ∧ (c.nak = false) ∧ ((s.port p).replay = []) ∧ ((s.port p).replayAt = none) :=
  ⟨linked Pst.active, 7, { nak := false, seq := 0, returned := List.replicate 8 0 }, by decide +kernel, by decide +kernel, by decide +kernel, by decide +kernel, by decide +kernel, by decide +kernel⟩

theorem witness_LinkFramesRun_4 : ∃ s : State, ∃ p : Fin 8, ∃ l : Nat,
    (s.active = true) ∧ (s.portState p = Pst.active) ∧ ((s.port p).replayAt = some l) :=
  ⟨linked Pst.active { replayAt := some 6 }, 7, 6, by decide +kernel, by decide +kernel, by decide +kernel⟩

theorem witness_LinkFramesRun_5 : ∃ s : State, ∃ p : Fin 8, ∃ v : Nat, ∃ m : EgMsg, ∃ rest : List EgMsg, ∃ u : State,
    (s.active = true) ∧ (s.portState p = Pst.active) ∧ ((s.port p).replayAt = none) ∧ (u = s.fillBuckets p) ∧ (((vcOrder (u.port p).turn).find? fun v => u.vcEligible p v) = some v) ∧ ((u.port p).queues.getD v [] = m :: rest) :=
  ⟨linked Pst.active { queues := [[], [egMsg]], credits := List.replicate 8 100 }, 7, 1, egMsg, [], _, by decide +kernel, by decide +kernel, by decide +kernel, rfl, by decide +kernel, by decide +kernel⟩

theorem witness_LinkFramesRun_6 : ∃ s : State, ∃ u : State, ∃ m : OutMsg, ∃ asks : State → OutMsg → State,
    (s.active = true) ∧ ((∀ v x k, v.sendKey x = some k → asks v x = v.askMark k)) ∧ ((∀ v x, v.sendKey x = none → asks v x = v)) ∧ (u = s.toSend.foldl asks s) ∧ (u.nextMsg [] u.toSend = some m) :=
  ⟨{ linked Pst.active with toSend := [{ dest := 3, bed := some 0, msg := .vsReq vsMsg }] }, _, { dest := 3, bed := some 0, msg := .vsReq vsMsg }, asksMark, by decide +kernel, (fun v x k h => by simp only [asksMark, h]), (fun v x h => by simp only [asksMark, h]), rfl, by decide +kernel⟩

theorem witness_LinkFramesRun_7 : ∃ s : State, ∃ p : Fin 8, ∃ c : RxCtx,
    (s.active = true) ∧ (((s.port p).ctxs.find? fun c => ftReached s.now (ftAdd c.last 48)) = some c) ∧ (c.drop = false) :=
  ⟨linked Pst.active { ctxs := [rxCtx] } late, 7, rxCtx, by decide +kernel, by decide +kernel, by decide +kernel⟩

theorem witness_LinkFramesRun_8 : ∃ s : State, ∃ p : Fin 8,
    (s.active = true) ∧ (s.rdN .PLW_SAMPLE_PERIOD p ≠ 0) ∧ (ftReached (s.dieFt (p / 2)) (ftAdd (s.port p).sampled (s.rdN .PLW_SAMPLE_PERIOD p)) = true) :=
  ⟨{ dev.wrN .PLW_SAMPLE_PERIOD 16 7 with time := { dev.time with dies := List.replicate 4 { count := 0x0040000000000000 } } }, 7, by decide +kernel, by decide +kernel, by decide +kernel⟩

theorem witness_LinkFramesRun_9 : ∃ s : State, ∃ u : State, ∃ v : State, ∃ m : ImgMsg, ∃ e : Entry, ∃ want : Nat,
    (s.active = true) ∧ (u = s.touchOwn m.sid) ∧ (u.owner? m.sid = some e) ∧ (e.own = .awaiting) ∧ (e.epoch = m.epoch) ∧ (m.object ≤ 1) ∧ (v = (u.openRx m).2) ∧ (want = (if m.object = 0 then (u.openRx m).1.image else (u.openRx m).1.trx)) ∧ (m.offset < want) :=
  ⟨{ ses [owned .paused .awaiting] with plw := { dev.plw with rx := [{ sid := 5, epoch := 1, image := 4096 }] } }, _, _, img 0 64 8192, owned .paused .awaiting, 4096, by decide +kernel, rfl, by decide +kernel, by decide +kernel, by decide +kernel, by decide +kernel, rfl, rfl, by decide +kernel⟩

theorem witness_LinkFramesRun_10 : ∃ s : State, ∃ u : State, ∃ v : State, ∃ m : ImgMsg, ∃ e : Entry, ∃ want : Nat, ∃ w : State, ∃ x : ImgRx,
    (s.active = true) ∧ (u = s.touchOwn m.sid) ∧ (u.owner? m.sid = some e) ∧ (e.own = .awaiting) ∧ (e.epoch = m.epoch) ∧ (m.object ≤ 1) ∧ (v = (u.openRx m).2) ∧ (want = (if m.object = 0 then (u.openRx m).1.image else (u.openRx m).1.trx)) ∧ (m.offset = want) ∧ (m.object = 0) ∧ ((want + m.len) / 16777216 = want / 16777216) ∧ (want + m.len < m.total) ∧ (w = v.updRx m.sid (fun t =>
        { t with image := want + m.len, imageTotal := some m.total, ctx := m.ctx <|> t.ctx, pages := t.pages ++ m.pages })) ∧ ((w.plw.rx.find? fun x => x.sid == m.sid) = some x) ∧ (x.trxTotal = none) :=
  ⟨ses [owned .paused .awaiting], _, _, img 0 64 8192, owned .paused .awaiting, 0, _, { sid := 5, epoch := 1, image := 64, imageTotal := some 8192 }, by decide +kernel, rfl, by decide +kernel, by decide +kernel, by decide +kernel, by decide +kernel, rfl, rfl, by decide +kernel, by decide +kernel, by decide +kernel, by decide +kernel, rfl, by decide +kernel, by decide +kernel⟩

theorem witness_LinkFramesRun_11 : ∃ s : State, ∃ u : State, ∃ m : ImgMsg, ∃ t : ImgTx, ∃ pos : Nat × Nat, ∃ cur : Nat × Nat,
    (s.active = true) ∧ (u = s.touchOwn m.sid) ∧ ((u.plw.tx.find? fun t => t.sid == m.sid && t.epoch == m.epoch) = some t) ∧ (pos = (if (if m.object = 0 then t.image else t.trx) ≤ m.offset then (m.object + 1, 0) else (m.object, m.offset))) ∧ (imgLin t t.ack + t.ack.1 < imgLin t pos + pos.1) ∧ (cur = (if imgLin t t.cur + t.cur.1 < imgLin t pos + pos.1 then pos else t.cur)) ∧ (∃ moved, moved = (u.updTx m.sid fun t => { t with ack := pos, cur := cur, advanced := u.now, resent := u.now }) ∧ (pos.1 < 2)) :=
  ⟨sendingImg imgTx, _, img 64 0 4096, imgTx, (0, 64), (0, 64), by decide +kernel, rfl, by decide +kernel, (by decide +kernel), by decide +kernel, (by decide +kernel), _, rfl, by decide +kernel⟩

theorem witness_LinkFramesRun_12 : ∃ s : State, ∃ u : State, ∃ m : ImgMsg, ∃ t : ImgTx, ∃ pos : Nat × Nat, ∃ cur : Nat × Nat,
    (s.active = true) ∧ (u = s.touchOwn m.sid) ∧ ((u.plw.tx.find? fun t => t.sid == m.sid && t.epoch == m.epoch) = some t) ∧ (pos = (if (if m.object = 0 then t.image else t.trx) ≤ m.offset then (m.object + 1, 0) else (m.object, m.offset))) ∧ (imgLin t t.ack + t.ack.1 < imgLin t pos + pos.1) ∧ (cur = (if imgLin t t.cur + t.cur.1 < imgLin t pos + pos.1 then pos else t.cur)) ∧ (∃ moved, moved = (u.updTx m.sid fun t => { t with ack := pos, cur := cur, advanced := u.now, resent := u.now }) ∧ (2 ≤ pos.1)) :=
  ⟨sendingImg { imgTx with ack := (1, 0), cur := (1, 64) }, _, { img 64 0 64 with object := 1 }, { imgTx with ack := (1, 0), cur := (1, 64) }, (2, 0), (2, 0), by decide +kernel, rfl, by decide +kernel, (by decide +kernel), by decide +kernel, (by decide +kernel), _, rfl, by decide +kernel⟩

theorem witness_LinkFramesRun_13 : ∃ s : State, ∃ sid : W64, ∃ t : ImgTx,
    (s.active = true) ∧ ((s.plw.tx.find? fun t => t.sid == sid) = some t) ∧ (ftReached s.now (ftAdd t.resent 48) = true) :=
  ⟨sendingImg imgTx late, 5, imgTx, by decide +kernel, by decide +kernel, by decide +kernel⟩

theorem witness_LinkFramesRun_14 : ∃ s : State, ∃ sid : W64, ∃ t : ImgTx,
    (s.active = true) ∧ ((s.plw.tx.find? fun t => t.sid == sid) = some t) ∧ (ftReached s.now (ftAdd t.advanced 480) = true) :=
  ⟨sendingImg imgTx late, 5, imgTx, by decide +kernel, by decide +kernel, by decide +kernel⟩

theorem witness_LinkFramesRun_15 : ∃ s : State, ∃ dest : Nat, ∃ ckpt : W64, ∃ bed : Nat, ∃ t : CkTx,
    (s.active = true) ∧ (s.ck.txs.find? (isTx dest ckpt bed) = some t) ∧ (ftReached s.now (ftAdd t.resent 48) = true) :=
  ⟨{ late with ck := { late.ck with txs := [ckTx1] } }, 3, 6, 0, ckTx1, by decide +kernel, by decide +kernel, by decide +kernel⟩

theorem witness_LinkFramesRun_16 : ∃ s : State, ∃ dest : Nat, ∃ ckpt : W64, ∃ bed : Nat, ∃ t : CkTx,
    (s.active = true) ∧ (s.ck.txs.find? (isTx dest ckpt bed) = some t) ∧ (ftReached s.now (ftAdd t.advanced 480) = true) :=
  ⟨{ late with ck := { late.ck with txs := [ckTx1] } }, 3, 6, 0, ckTx1, by decide +kernel, by decide +kernel, by decide +kernel⟩

theorem witness_ExportCommandsRun_0 : ∃ s : State, ∃ u : State, ∃ d : Desc, ∃ bed : Nat, ∃ start : Nat, ∃ ix : Nat, ∃ region : Nat, ∃ e : Export,
    (s.mayRun d = true) ∧ (u = s.start d) ∧ (bed = (dBed d).getD 0) ∧ (start = d.addr0.toNat % 2 ^ 48) ∧ ((∀ e ∈ u.exp.exports, e.bed = bed → spanMeets (start, dLen0 d) (e.start, e.len) = false)) ∧ (u.exp.exports.length < 1024) ∧ (dArg d 49 1 ≤ 6) ∧ (dArg d 48 1 % 4 ≠ 2) ∧ (((List.range 256).find? fun i => (u.exp.exports.filter fun e => e.bed == bed).all fun e => e.ix != i) = some ix) ∧ ((∀ pa, u.bufPa bed start = some pa → region = paRegion pa)) ∧ ((u.bufPa bed start = none → region = (u.regionsOf bed).headD 0)) ∧ (e = { bed := bed, ix := ix, gen := u.nextGen bed ix, start := start, len := dLen0 d, mode := dArg d 48 1 % 4, importers := importersOf d, region := region }) :=
  ⟨inFlight (dev) ({ vfCmd [(48, 1), (49, 6)] with len0 := 4096 }), (inFlight (dev) ({ vfCmd [(48, 1), (49, 6)] with len0 := 4096 })).start ({ vfCmd [(48, 1), (49, 6)] with len0 := 4096 }), { vfCmd [(48, 1), (49, 6)] with len0 := 4096 }, 0, 0, 0, 0, { bed := 0, ix := 0, gen := 0, start := 0, len := 4096, mode := 1, importers := [0, 0, 0, 0, 0, 0], region := 0 }, by decide +kernel, rfl, rfl, rfl, by decide +kernel, by decide +kernel, by decide +kernel, by decide +kernel, by decide +kernel, (fun pa h => nomatch h), (fun _ => by decide +kernel), (by decide +kernel)⟩

theorem witness_ExportCommandsRun_1 : ∃ s : State, ∃ u : State, ∃ d : Desc, ∃ bed : Nat, ∃ e : Export,
    (s.mayRun d = true) ∧ (u = s.start d) ∧ (bed = (dBed d).getD 0) ∧ (u.cmdExport bed (dArg d 48 4) = some e) ∧ (e.revoke = none) ∧ (dArg d 52 1 % 2 = 0) :=
  ⟨inFlight (exporting) (vfCmd [(48, 1)]), (inFlight (exporting) (vfCmd [(48, 1)])).start (vfCmd [(48, 1)]), vfCmd [(48, 1)], 0, export1, by decide +kernel, rfl, rfl, by decide +kernel, by decide +kernel, by decide +kernel⟩

theorem witness_ExportCommandsRun_2 : ∃ s : State, ∃ u : State, ∃ d : Desc, ∃ bed : Nat, ∃ e : Export,
    (s.mayRun d = true) ∧ (u = s.start d) ∧ (bed = (dBed d).getD 0) ∧ (u.cmdExport bed (dArg d 48 4) = some e) ∧ (dArg d 48 4 ≠ 0xFFFFFFFF) :=
  ⟨inFlight (exporting) (vfCmd [(48, 1), (52, 3)]), (inFlight (exporting) (vfCmd [(48, 1), (52, 3)])).start (vfCmd [(48, 1), (52, 3)]), vfCmd [(48, 1), (52, 3)], 0, export1, by decide +kernel, rfl, rfl, by decide +kernel, by decide +kernel⟩

theorem witness_ExportCommandsRun_3 : ∃ s : State, ∃ u : State, ∃ d : Desc, ∃ bed : Nat, ∃ e : Export,
    (s.mayRun d = true) ∧ (u = s.start d) ∧ (bed = (dBed d).getD 0) ∧ (u.cmdExport bed (dArg d 48 4) = some e) ∧ (dBed d = some bed) ∧ (u.bedConfigured bed = true) :=
  ⟨inFlight (exporting) (vfCmd [(48, 1)]), (inFlight (exporting) (vfCmd [(48, 1)])).start (vfCmd [(48, 1)]), vfCmd [(48, 1)], 0, export1, by decide +kernel, rfl, rfl, by decide +kernel, by decide +kernel, by decide +kernel⟩

theorem witness_ExportCommandsRun_4 : ∃ s : State, ∃ u : State, ∃ d : Desc, ∃ bed : Nat, ∃ va : Nat, ∃ e : Export,
    (s.mayRun d = true) ∧ (u = s.start d) ∧ (bed = (dBed d).getD 0) ∧ (va = d.addr0.toNat % 2 ^ 48) ∧ (u.exportOf bed (BitVec.ofNat 32 (dArg d 56 4)) = .ok e) ∧ (e.start ≤ va) ∧ (va + dLen0 d ≤ e.start + e.len) :=
  ⟨inFlight (exporting) ({ vfCmd [(56, 1)] with len0 := 4096 }), (inFlight (exporting) ({ vfCmd [(56, 1)] with len0 := 4096 })).start ({ vfCmd [(56, 1)] with len0 := 4096 }), { vfCmd [(56, 1)] with len0 := 4096 }, 0, 0, export1, by decide +kernel, rfl, rfl, rfl, (ok_is (by decide +kernel)), by decide +kernel, by decide +kernel⟩

theorem witness_ExportCommandsRun_5 : ∃ s : State, ∃ u : State, ∃ d : Desc, ∃ bed : Nat, ∃ n : PubName,
    (s.mayRun d = true) ∧ (u = s.start d) ∧ (bed = (dBed d).getD 0) ∧ (u.keep.ready = true) ∧ (u.pubName? bed (BitVec.ofNat 32 (dArg d 48 4)) = some n) :=
  ⟨inFlight (exporting) (vfCmd [(48, 7)]), (inFlight (exporting) (vfCmd [(48, 7)])).start (vfCmd [(48, 7)]), vfCmd [(48, 7)], 0, { bed := 0, name := 7, ix := 1, offset := 0, length := 64, version := 1, digest := 0 }, by decide +kernel, rfl, rfl, by decide +kernel, by decide +kernel⟩

theorem witness_ExportCommandsRun_6 : ∃ s : State, ∃ u : State, ∃ d : Desc, ∃ bed : Nat,
    (s.mayRun d = true) ∧ (u = s.start d) ∧ (bed = (dBed d).getD 0) ∧ (dArg d 49 1 % 2 = 0) :=
  ⟨inFlight (dev) (vfCmd [(48, 3)]), (inFlight (dev) (vfCmd [(48, 3)])).start (vfCmd [(48, 3)]), vfCmd [(48, 3)], 0, by decide +kernel, rfl, rfl, by decide +kernel⟩

theorem witness_NearMemoryRuns_0 : ∃ s : State, ∃ u : State, ∃ d : Desc, ∃ bed : Nat, ∃ a : Nat, ∃ b : Nat,
    (s.mayRun d = true) ∧ (u = s.start d) ∧ (bed = (dBed d).getD 0) ∧ (a = d.addr0.toNat % 2 ^ 48) ∧ (b = d.addr1.toNat % 2 ^ 48) :=
  ⟨inFlight (dev) (vfCmd []), (inFlight (dev) (vfCmd [])).start (vfCmd []), vfCmd [], 0, _, _, by decide +kernel, rfl, rfl, rfl, rfl⟩

theorem witness_NearMemoryRuns_1 : ∃ s : State, ∃ u : State, ∃ d : Desc, ∃ bed : Nat, ∃ a : Nat, ∃ b : Nat,
    (s.mayRun d = true) ∧ (u = s.start d) ∧ (bed = (dBed d).getD 0) ∧ (a = d.addr0.toNat % 2 ^ 48) ∧ (b = d.addr1.toNat % 2 ^ 48) ∧ (dArg d 48 1 % 4 = 0) :=
  ⟨inFlight (dev) (vfCmd [(48, 4)]), (inFlight (dev) (vfCmd [(48, 4)])).start (vfCmd [(48, 4)]), vfCmd [(48, 4)], 0, _, _, by decide +kernel, rfl, rfl, rfl, rfl, by decide +kernel⟩

theorem witness_ExportMessagesRun_0 : ∃ s : State, ∃ m : MrMsg, ∃ key : Option W32, ∃ e : Export,
    (s.active = true) ∧ (s.exportOf m.bed m.target = .ok e) ∧ (∃ enters, enters = (fun (typ : MrType) => s.apart fun s =>
      ((s.bump64 .EXP_REQS_LO .EXP_REQS_HI e.bed).updExport e.bed e.ix fun e =>
        { e with queue := e.queue ++ [{ typ := typ, m := m }] }).settleExport e.bed e.ix) ∧ (∃ passes, passes = (fun (typ : MrType) => requestCode e typ m (key.map fun k => k.toNat) none = none) ∧ (passes .read))) :=
  ⟨exporting, mrMsg, none, export1, by decide +kernel, (ok_is (by decide +kernel)), _, rfl, _, rfl, by decide +kernel⟩

theorem witness_ExportMessagesRun_1 : ∃ s : State, ∃ m : MrMsg, ∃ key : Option W32, ∃ e : Export,
    (s.active = true) ∧ (s.exportOf m.bed m.target = .ok e) ∧ (∃ enters, enters = (fun (typ : MrType) => s.apart fun s =>
      ((s.bump64 .EXP_REQS_LO .EXP_REQS_HI e.bed).updExport e.bed e.ix fun e =>
        { e with queue := e.queue ++ [{ typ := typ, m := m }] }).settleExport e.bed e.ix) ∧ (∃ passes, passes = (fun (typ : MrType) => requestCode e typ m (key.map fun k => k.toNat) none = none) ∧ (passes .write))) :=
  ⟨exporting, { mrMsg with data := List.replicate 64 1 }, some 0, export1, by decide +kernel, (ok_is (by decide +kernel)), _, rfl, _, rfl, by decide +kernel⟩

theorem witness_ExportMessagesRun_2 : ∃ s : State, ∃ m : MrMsg, ∃ key : Option W32, ∃ e : Export,
    (s.active = true) ∧ (s.exportOf m.bed m.target = .ok e) ∧ (∃ enters, enters = (fun (typ : MrType) => s.apart fun s =>
      ((s.bump64 .EXP_REQS_LO .EXP_REQS_HI e.bed).updExport e.bed e.ix fun e =>
        { e with queue := e.queue ++ [{ typ := typ, m := m }] }).settleExport e.bed e.ix) ∧ (∃ passes, passes = (fun (typ : MrType) => requestCode e typ m (key.map fun k => k.toNat) none = none) ∧ (passes .acquire))) :=
  ⟨exporting, mrMsg, none, export1, by decide +kernel, (ok_is (by decide +kernel)), _, rfl, _, rfl, by decide +kernel⟩

theorem witness_ExportMessagesRun_3 : ∃ s : State, ∃ m : MrMsg, ∃ key : Option W32, ∃ e : Export,
    (s.active = true) ∧ (s.exportOf m.bed m.target = .ok e) ∧ (∃ enters, enters = (fun (typ : MrType) => s.apart fun s =>
      ((s.bump64 .EXP_REQS_LO .EXP_REQS_HI e.bed).updExport e.bed e.ix fun e =>
        { e with queue := e.queue ++ [{ typ := typ, m := m }] }).settleExport e.bed e.ix) ∧ (∃ passes, passes = (fun (typ : MrType) => requestCode e typ m (key.map fun k => k.toNat) none = none) ∧ (passes .writeback))) :=
  ⟨exporting, { mrMsg with data := List.replicate 64 1 }, none, export1, by decide +kernel, (ok_is (by decide +kernel)), _, rfl, _, rfl, by decide +kernel⟩

theorem witness_ExportMessagesRun_4 : ∃ s : State, ∃ m : MrMsg, ∃ key : Option W32, ∃ e : Export,
    (s.active = true) ∧ (s.exportOf m.bed m.target = .ok e) ∧ (∃ enters, enters = (fun (typ : MrType) => s.apart fun s =>
      ((s.bump64 .EXP_REQS_LO .EXP_REQS_HI e.bed).updExport e.bed e.ix fun e =>
        { e with queue := e.queue ++ [{ typ := typ, m := m }] }).settleExport e.bed e.ix) ∧ (∃ passes, passes = (fun (typ : MrType) => requestCode e typ m (key.map fun k => k.toNat) none = none) ∧ (passes .op))) :=
  ⟨exporting, { mrMsg with length := 4 }, none, export1, by decide +kernel, (ok_is (by decide +kernel)), _, rfl, _, rfl, by decide +kernel⟩

theorem witness_ExportMessagesRun_5 : ∃ s : State, ∃ m : MrMsg, ∃ key : Option W32, ∃ e : Export,
    (s.active = true) ∧ (s.publishExport m = .ok e) ∧ (requestCode e .publish m (key.map fun k => k.toNat) none = none) :=
  ⟨exporting, { mrMsg with target := 9 }, none, export1, by decide +kernel, (ok_is (by decide +kernel)), by decide +kernel⟩

theorem witness_ExportMessagesRun_6 : ∃ s : State, ∃ m : MrMsg, ∃ key : Option W32, ∃ n : PubName, ∃ e : Export,
    (s.active = true) ∧ (s.pubName? m.bed m.target = some n) ∧ (s.export? m.bed n.ix = some e) ∧ (requestCode e .pubRead m (key.map fun k => k.toNat) (some (n.offset, n.length, n.version)) = none) :=
  ⟨exporting, { mrMsg with target := 7 }, none, { bed := 0, name := 7, ix := 1, offset := 0, length := 64, version := 1, digest := 0 }, export1, by decide +kernel, by decide +kernel, by decide +kernel, by decide +kernel⟩

theorem witness_ExportMessagesRun_7 : ∃ s : State, ∃ m : MrMsg, ∃ e : Export, ∃ r : Recall,
    (s.active = true) ∧ (s.exportOf m.bed m.target = .ok e) ∧ ((e.recalls.find? fun r => r.id == m.reqId && r.node == m.sender) = some r) ∧ (m.noLine = false) ∧ (m.clean = true) :=
  ⟨exporting recalled, { mrMsg with clean := true }, recalled, recall1, by decide +kernel, (ok_is (by decide +kernel)), by decide +kernel, by decide +kernel, by decide +kernel⟩

theorem witness_ExportMessagesRun_8 : ∃ s : State, ∃ m : MrMsg, ∃ c : RemoteCopy, ∃ o : W32 × CopyPiece × W64,
    (s.active = true) ∧ ((s.exp.copies.find? fun c => copyNode c.d == m.sender && c.out.any fun o => o.1 == m.reqId) = some c) ∧ ((c.out.find? fun o => o.1 == m.reqId) = some o) ∧ (m.code ≠ Mr.ok) ∧ (m.code ≠ Mr.poisoned) ∧ (m.code ≠ Mr.revoked) :=
  ⟨copying 1, { mrMsg with code := 2 }, remote 1, copyPiece, by decide +kernel, by decide +kernel, by decide +kernel, by decide +kernel, by decide +kernel, by decide +kernel⟩

theorem witness_ExportMessagesRun_9 : ∃ s : State, ∃ m : MrMsg, ∃ c : RemoteCopy, ∃ o : W32 × CopyPiece × W64,
    (s.active = true) ∧ ((s.exp.copies.find? fun c => copyNode c.d == m.sender && c.out.any fun o => o.1 == m.reqId) = some c) ∧ ((c.out.find? fun o => o.1 == m.reqId) = some o) ∧ (m.code = Mr.ok) ∧ (m.poison = false) ∧ (copyOut c.d = true) :=
  ⟨copying 2, mrMsg, remote 2, copyPiece, by decide +kernel, by decide +kernel, by decide +kernel, by decide +kernel, by decide +kernel, by decide +kernel⟩

theorem witness_ExportMessagesRun_10 : ∃ s : State, ∃ bed : Fin 16, ∃ id : W32, ∃ e : Export, ∃ r : Recall,
    (s.active = true) ∧ ((s.exp.exports.find? fun e => e.bed == bed.val && e.recalls.any fun r => r.id == id) = some e) ∧ ((e.recalls.find? fun r => r.id == id) = some r) ∧ (ftReached s.now (ftAdd r.since (s.recallTimeoutFt bed)) = true) :=
  ⟨exporting recalled late, 0, 8, recalled, recall1, by decide +kernel, by decide +kernel, by decide +kernel, by decide +kernel⟩

theorem witness_ExportMessagesRun_11 : ∃ s : State, ∃ id : W32, ∃ c : RemoteCopy, ∃ o : W32 × CopyPiece × W64,
    (s.active = true) ∧ ((s.exp.copies.find? fun c => c.out.any fun o => o.1 == id) = some c) ∧ ((c.out.find? fun o => o.1 == id) = some o) ∧ (ftReached s.now (ftAdd o.2.2 (s.recallTimeoutFt c.bed)) = true) :=
  ⟨copying 1 late, 8, remote 1, copyPiece, by decide +kernel, by decide +kernel, by decide +kernel, by decide +kernel⟩

theorem witness_ExportMessagesRun_12 : ∃ s : State, ∃ u : State, ∃ bed : Fin 16, ∃ m : Nat × Nat × List Nat, ∃ g : Granule, ∃ x : Nat × State,
    (s.active = true) ∧ ((s.exp.migrate.find? fun m => m.1 == bed.val) = some m) ∧ (u = { s with exp := { s.exp with migrate := s.exp.migrate.erase m } }) ∧ (u.granuleAt bed m.2.1 = some g) ∧ (u.takeAlong bed .granules (u.granule bed) (m.2.2.filter fun r => r != paRegion g.pa) = some x) :=
  ⟨migrating, settled, 0, (0, 0, [0, 1]), granule0, movedTo, by decide +kernel, by decide +kernel, rfl, by decide +kernel, (some_of (by decide +kernel))⟩

theorem witness_CheckpointCommandsRun_0 : ∃ s : State, ∃ u : State, ∃ d : Desc, ∃ bed : Nat,
    (s.mayRun d = true) ∧ (u = s.start d) ∧ (bed = (dBed d).getD 0) ∧ (u.ckPart? bed = none) ∧ (u.ckRound? bed = none) ∧ (dArg d 57 1 % 2 = 1) :=
  ⟨inFlight (dev) (vfCmd [(57, 1)]), (inFlight (dev) (vfCmd [(57, 1)])).start (vfCmd [(57, 1)]), vfCmd [(57, 1)], 0, by decide +kernel, rfl, rfl, by decide +kernel, by decide +kernel, by decide +kernel⟩

theorem witness_CheckpointCommandsRun_1 : ∃ s : State, ∃ u : State, ∃ d : Desc, ∃ bed : Nat, ∃ p : Profile,
    (s.mayRun d = true) ∧ (u = s.start d) ∧ (bed = (dBed d).getD 0) ∧ (u.ckPart? bed = none) ∧ (u.ckRound? bed = none) ∧ (dArg d 57 1 % 2 ≠ 1) ∧ (u.profile? bed (dArg d 54 2) = some p) ∧ (dArg d 52 2 % 512 ≠ u.node) :=
  ⟨inFlight (atBoundary) (vfCmd [(52, 3), (54, 1)]), (inFlight (atBoundary) (vfCmd [(52, 3), (54, 1)])).start (vfCmd [(52, 3), (54, 1)]), vfCmd [(52, 3), (54, 1)], 0, profile1, by decide +kernel, rfl, rfl, by decide +kernel, by decide +kernel, by decide +kernel, by decide +kernel, by decide +kernel⟩

theorem witness_CheckpointCommandsRun_2 : ∃ s : State, ∃ u : State, ∃ d : Desc, ∃ a : CkArm,
    (s.mayRun d = true) ∧ (u = s.start d) ∧ (u.ckArm? ((dBed d).getD 0) = some a) ∧ (u.coordinates a = true) :=
  ⟨inFlight (ckDev { arms := [arm0] }) (vfCmd []), (inFlight (ckDev { arms := [arm0] }) (vfCmd [])).start (vfCmd []), vfCmd [], arm0, by decide +kernel, rfl, by decide +kernel, by decide +kernel⟩

theorem witness_CheckpointCommandsRun_3 : ∃ s : State, ∃ u : State, ∃ d : Desc, ∃ a : CkArm, ∃ p : Profile,
    (s.mayRun d = true) ∧ (u = s.start d) ∧ (u.ckArm? ((dBed d).getD 0) = some a) ∧ (u.profile? ((dBed d).getD 0) a.profile = some p) ∧ (u.keep.ready = true) ∧ (dArg d 48 1 ≤ 15) :=
  ⟨inFlight (ckDev { arms := [arm0] } atBoundary) (vfCmd [(48, 15)]), (inFlight (ckDev { arms := [arm0] } atBoundary) (vfCmd [(48, 15)])).start (vfCmd [(48, 15)]), vfCmd [(48, 15)], arm0, profile1, by decide +kernel, rfl, by decide +kernel, by decide +kernel, by decide +kernel, by decide +kernel⟩

theorem witness_CheckpointCommandsRun_4 : ∃ s : State, ∃ u : State, ∃ d : Desc,
    (s.mayRun d = true) ∧ (u = s.start d) ∧ ((u.ck.staged.any fun x => x.bed == (dBed d).getD 0) = false) ∧ ((u.ck.restores.any fun x => x.bed == (dBed d).getD 0) = false) ∧ (manifestOk (u.buf0 d) = true) ∧ (stepsOk (u.buf0 d) = true) :=
  ⟨inFlight (withHost manifest1) (bufCmd 224 []), (inFlight (withHost manifest1) (bufCmd 224 [])).start (bufCmd 224 []), bufCmd 224 [], by decide +kernel, rfl, by decide +kernel, by decide +kernel, by decide +kernel, by decide +kernel⟩

theorem witness_CheckpointCommandsRun_5 : ∃ s : State, ∃ u : State, ∃ d : Desc, ∃ x : CkStaged,
    (s.mayRun d = true) ∧ (u = s.start d) ∧ (u.staged? ((dBed d).getD 0) = some x) ∧ (x.commit = none) :=
  ⟨inFlight (ckDev { staged := [staged0] }) (vfCmd []), (inFlight (ckDev { staged := [staged0] }) (vfCmd [])).start (vfCmd []), vfCmd [], staged0, by decide +kernel, rfl, by decide +kernel, by decide +kernel⟩

theorem witness_CheckpointCommandsRun_6 : ∃ s : State, ∃ u : State, ∃ d : Desc, ∃ bed : Nat, ∃ ckpt : W64,
    (s.mayRun d = true) ∧ (u = s.start d) ∧ (bed = (dBed d).getD 0) ∧ (ckpt = BitVec.ofNat 64 (dArg d 56 8)) ∧ (u.ckPart? bed = none) ∧ (u.ckRound? bed = none) ∧ (u.storedOf bed ckpt ≠ []) ∧ (((u.storedOf bed ckpt).filter fun x => x.place == 0) = []) :=
  ⟨inFlight (ckDev { stored := [stored0 false] }) (vfCmd [(56, 6)]), (inFlight (ckDev { stored := [stored0 false] }) (vfCmd [(56, 6)])).start (vfCmd [(56, 6)]), vfCmd [(56, 6)], 0, 6, by decide +kernel, rfl, rfl, (by decide +kernel), by decide +kernel, by decide +kernel, by decide +kernel, by decide +kernel⟩

theorem witness_CheckpointCommandsRun_7 : ∃ s : State, ∃ u : State, ∃ d : Desc, ∃ x : CkStored,
    (s.mayRun d = true) ∧ (u = s.start d) ∧ ((u.ck.stored.filter fun x => x.bed == (dBed d).getD 0 && x.manifest &&
      (BitVec.ofNat 64 (dArg d 56 8) == 0 || x.ckpt == BitVec.ofNat 64 (dArg d 56 8))).getLast? = some x) :=
  ⟨inFlight (ckDev { stored := [stored0 true] }) (vfCmd []), (inFlight (ckDev { stored := [stored0 true] }) (vfCmd [])).start (vfCmd []), vfCmd [], stored0 true, by decide +kernel, rfl, by decide +kernel⟩

theorem witness_CheckpointMessagesRun_0 : ∃ s : State, ∃ m : CkMsg, ∃ a : CkArm,
    (s.active = true) ∧ (s.ckArm? m.bed = some a) ∧ (s.coordinates a = true) ∧ (a.job = m.job) ∧ (a.orch = m.sender) ∧ (a.orch ≠ 0xFFFF) :=
  ⟨ckDev { arms := [arm0] }, ckMsg, arm0, by decide +kernel, by decide +kernel, by decide +kernel, by decide +kernel, by decide +kernel, by decide +kernel⟩

theorem witness_CheckpointMessagesRun_1 : ∃ s : State, ∃ u : State, ∃ m : CkMsg, ∃ a : CkArm,
    (s.active = true) ∧ (s.ckPart? m.bed = none) ∧ (s.ckArm? m.bed = some a) ∧ (a.job = m.job) ∧ (ftLater (m.cut - BitVec.ofNat 64 (4 * ftUnit)) s.now = true) ∧ (u = { s with ck := { s.ck with parts := s.ck.parts ++
      [{ bed := m.bed, ckpt := m.ckpt, job := m.job, cut := m.cut, deadline := m.deadline, evict := m.evict, coord := m.sender }] } }) :=
  ⟨ckDev { arms := [arm0] }, _, { ckMsg with cut := 0x1000000000 }, arm0, by decide +kernel, by decide +kernel, by decide +kernel, by decide +kernel, by decide +kernel, rfl⟩

theorem witness_CheckpointMessagesRun_2 : ∃ s : State, ∃ m : CkMsg, ∃ r : CkRound,
    (s.active = true) ∧ ((s.ck.rounds.find? fun r => r.ckpt == m.ckpt) = some r) ∧ (m.code = 0) :=
  ⟨ckDev { rounds := [round0] }, ckMsg, round0, by decide +kernel, by decide +kernel, by decide +kernel⟩

theorem witness_CheckpointMessagesRun_3 : ∃ s : State, ∃ m : CkMsg, ∃ r : CkRound,
    (s.active = true) ∧ ((s.ck.rounds.find? fun r => r.ckpt == m.ckpt) = some r) ∧ (m.code ≠ 0) :=
  ⟨ckDev { rounds := [round0] }, { ckMsg with code := 1 }, round0, by decide +kernel, by decide +kernel, by decide +kernel⟩

theorem witness_CheckpointMessagesRun_4 : ∃ s : State, ∃ m : CkMsg, ∃ r : CkRound,
    (s.active = true) ∧ ((s.ck.rounds.find? fun r => r.ckpt == m.ckpt) = some r) ∧ (r.manifest = none) ∧ (m.code ≠ 0) ∧ ((s.ck.rounds.find? fun r => r.ckpt == m.ckpt && r.manifest.isNone) = some r) :=
  ⟨ckDev { rounds := [round0] }, { ckMsg with code := 1 }, round0, by decide +kernel, by decide +kernel, by decide +kernel, by decide +kernel, by decide +kernel⟩

theorem witness_CheckpointMessagesRun_5 : ∃ s : State, ∃ u : State, ∃ m : CkMsg, ∃ r : CkRound, ∃ r' : CkRound, ∃ a : CkArm,
    (s.active = true) ∧ (m.code = 0) ∧ ((s.ck.rounds.find? fun r => r.ckpt == m.ckpt && r.manifest.isNone) = some r) ∧ (s.ckArm? r.bed = some a) ∧ (r' = { r with dones := m.payload :: r.dones.filter fun b =>
      (bytesAt b 0 2, bytesAt b 2 1) != (bytesAt m.payload 0 2, bytesAt m.payload 2 1) }) ∧ (u = (s.updRound r.bed fun _ => r')) ∧ ((a.parts.all fun x => r'.dones.any fun b => (bytesAt b 0 2, bytesAt b 2 1) == x) = true) :=
  ⟨ckDev { arms := [arm0], rounds := [round0] }, _, { ckMsg with payload := doneEntry }, round0, _, arm0, by decide +kernel, by decide +kernel, by decide +kernel, by decide +kernel, rfl, rfl, by decide +kernel⟩

theorem witness_CheckpointMessagesRun_6 : ∃ s : State, ∃ m : CkMsg, ∃ p : CkPart,
    (s.active = true) ∧ (s.ckPart? m.bed = some p) ∧ (p.ckpt = m.ckpt) ∧ (m.code ≠ CkCode.refused) :=
  ⟨ckDev { parts := [part0] }, ckMsg, part0, by decide +kernel, by decide +kernel, by decide +kernel, by decide +kernel⟩

theorem witness_CheckpointMessagesRun_7 : ∃ s : State, ∃ m : CkMsg, ∃ p : CkPart,
    (s.active = true) ∧ (s.ckPart? m.bed = some p) ∧ (p.ckpt = m.ckpt) ∧ (m.evict = false) :=
  ⟨ckDev { parts := [part0] }, ckMsg, part0, by decide +kernel, by decide +kernel, by decide +kernel, by decide +kernel⟩

theorem witness_CheckpointMessagesRun_8 : ∃ s : State, ∃ m : CkMsg,
    (s.active = true) ∧ (s.shard? m.bed m.ckpt = none) :=
  ⟨dev, ckMsg, by decide +kernel, by decide +kernel⟩

theorem witness_CheckpointMessagesRun_9 : ∃ s : State, ∃ m : CkMsg,
    (s.active = true) ∧ (s.shard? m.bed m.ckpt ≠ none) :=
  ⟨ckDev { stored := [stored0 false] }, ckMsg, by decide +kernel, by decide +kernel⟩

theorem witness_CheckpointMessagesRun_10 : ∃ s : State, ∃ m : CkMsg, ∃ r : CkRestore,
    (s.active = true) ∧ (s.restoreFor m = some r) ∧ (m.offset < r.rx.length) :=
  ⟨ckDev { restores := [{ restore0 with rx := [1] }] }, ckMsg, { restore0 with rx := [1] }, by decide +kernel, by decide +kernel, by decide +kernel⟩

theorem witness_CheckpointMessagesRun_11 : ∃ s : State, ∃ m : CkMsg, ∃ r : CkRestore,
    (s.active = true) ∧ (s.restoreFor m = some r) ∧ (m.offset = r.rx.length) ∧ ((r.rx.length + m.payload.length) / 16777216 = r.rx.length / 16777216) :=
  ⟨ckDev { restores := [restore0] }, { ckMsg with payload := [1, 2] }, restore0, by decide +kernel, by decide +kernel, by decide +kernel, by decide +kernel⟩

theorem witness_CheckpointMessagesRun_12 : ∃ s : State, ∃ m : CkMsg, ∃ r : CkRestore,
    (s.active = true) ∧ (s.restoreFor m = some r) ∧ (m.offset = r.rx.length) :=
  ⟨ckDev { restores := [restore0] }, ckMsg, restore0, by decide +kernel, by decide +kernel, by decide +kernel⟩

theorem witness_CheckpointMessagesRun_13 : ∃ s : State, ∃ m : CkMsg, ∃ t : CkTx, ∃ x : CkStored,
    (s.active = true) ∧ (s.ck.txs.find? (isTx m.sender m.ckpt m.bed) = some t) ∧ (s.shard? m.bed m.ckpt = some x) ∧ (t.ended = true) ∧ (x.bytes.length ≤ m.offset) :=
  ⟨ckDev { stored := [stored0 false], txs := [{ ckTx1 with ended := true }] }, { ckMsg with offset := 3 }, { ckTx1 with ended := true }, stored0 false, by decide +kernel, by decide +kernel, by decide +kernel, by decide +kernel, by decide +kernel⟩

theorem witness_CheckpointMessagesRun_14 : ∃ s : State, ∃ m : CkMsg, ∃ t : CkTx, ∃ x : CkStored,
    (s.active = true) ∧ (s.ck.txs.find? (isTx m.sender m.ckpt m.bed) = some t) ∧ (s.shard? m.bed m.ckpt = some x) ∧ (t.ended = false) ∧ (t.ack < m.offset) :=
  ⟨ckDev { stored := [stored0 false], txs := [ckTx1] }, { ckMsg with offset := 1 }, ckTx1, stored0 false, by decide +kernel, by decide +kernel, by decide +kernel, by decide +kernel, by decide +kernel⟩

theorem witness_CheckpointTimersRun_0 : ∃ s : State, ∃ bed : Fin 16, ∃ p : CkPart,
    (s.active = true) ∧ (s.ckPart? bed = some p) ∧ (p.phase = 1) ∧ (ftReached s.now p.cut = true) ∧ ((s.cutPart p).ckRound? bed = none) :=
  ⟨ckDev { parts := [part0] } late, 0, part0, by decide +kernel, by decide +kernel, by decide +kernel, by decide +kernel, by decide +kernel⟩

theorem witness_CheckpointTimersRun_1 : ∃ s : State, ∃ bed : Fin 16, ∃ p : CkPart, ∃ a : CkArm,
    (s.active = true) ∧ (s.ckPart? bed = some p) ∧ (s.ckArm? bed = some a) ∧ (p.phase = 2) ∧ (p.storing = false) ∧ ((p.sessions.all fun x => x.captured && (x.resolved || ftReached s.now (ftAdd p.cut 480))) = true) :=
  ⟨ckDev { arms := [arm0], parts := [{ part0 with phase := 2 }] }, 0, { part0 with phase := 2 }, arm0, by decide +kernel, by decide +kernel, by decide +kernel, by decide +kernel, by decide +kernel, by decide +kernel⟩

theorem witness_CheckpointTimersRun_2 : ∃ s : State, ∃ bed : Fin 16, ∃ p : CkPart,
    (s.active = true) ∧ (s.ckPart? bed = some p) ∧ (ftReached s.now (ftAdd p.deadline 480) = true) :=
  ⟨ckDev { parts := [part0] } late, 0, part0, by decide +kernel, by decide +kernel, by decide +kernel⟩

theorem witness_CheckpointTimersRun_3 : ∃ s : State, ∃ bed : Fin 16, ∃ r : CkRound,
    (s.active = true) ∧ (s.ckRound? bed = some r) ∧ (r.manifest = none) ∧ (ftReached s.now r.deadline = true) :=
  ⟨ckDev { rounds := [round0] } late, 0, round0, by decide +kernel, by decide +kernel, by decide +kernel, by decide +kernel⟩

theorem witness_CheckpointTimersRun_4 : ∃ s : State, ∃ bed : Fin 16, ∃ x : CkStaged,
    (s.active = true) ∧ (s.staged? bed = some x) ∧ (x.commit = none) ∧ (ftReached s.now (ftAdd x.since (if s.rdN .CK_STAGE_TTL bed = 0 then 48000 else s.rdN .CK_STAGE_TTL bed)) = true) :=
  ⟨ckDev { staged := [staged0] } late, 0, staged0, by decide +kernel, by decide +kernel, by decide +kernel, by decide +kernel⟩

theorem witness_CheckpointTimersRun_5 : ∃ s : State, ∃ u : State, ∃ sid : W64, ∃ x : CkStSes, ∃ e : Entry, ∃ q : Seq, ∃ n : Nat, ∃ p : Profile,
    (s.active = true) ∧ ((s.ck.pulls.find? fun x => x.sid == sid) = some x) ∧ (s.owner? sid = some e) ∧ (s.seq? sid = some q) ∧ (q.pull = some n) ∧ (s.profile? e.bed x.profile = some p) ∧ (n + 1 < p.layers) ∧ (s.placePages sid p true (imagePages p x.position x.image n) = some u) :=
  ⟨pullingDev, pullingDev, 5, stSes5, owned .paused, { seq5 with pull := some 0 }, 0, profile2, by decide +kernel, by decide +kernel, by decide +kernel, by decide +kernel, by decide +kernel, by decide +kernel, by decide +kernel, by decide +kernel⟩

theorem witness_SecurityCommandsRun_0 : ∃ s : State, ∃ u : State, ∃ d : Desc,
    (s.mayRun d = true) ∧ (u = s.start d) ∧ (u.keep.ready = true) ∧ (u.sec.owner = none) :=
  ⟨inFlight (dev) (pfCmd []), (inFlight (dev) (pfCmd [])).start (pfCmd []), pfCmd [], by decide +kernel, rfl, by decide +kernel, by decide +kernel⟩

theorem witness_SecurityCommandsRun_2 : ∃ s : State, ∃ u : State, ∃ d : Desc,
    (s.mayRun d = true) ∧ (u = s.start d) ∧ (u.keep.ready = true) ∧ (u.inTransition = false) ∧ (u.bedConfigured (dArg d 48 1) = true) :=
  ⟨inFlight (dev) (pfCmd []), (inFlight (dev) (pfCmd [])).start (pfCmd []), pfCmd [], by decide +kernel, rfl, by decide +kernel, by decide +kernel, by decide +kernel⟩

theorem witness_SecurityCommandsRun_4 : ∃ s : State, ∃ u : State, ∃ d : Desc,
    (s.mayRun d = true) ∧ (u = s.start d) :=
  ⟨inFlight (dev) (pfCmd []), (inFlight (dev) (pfCmd [])).start (pfCmd []), pfCmd [], by decide +kernel, rfl⟩

theorem witness_SecurityCommandsRun_5 : ∃ s : State, ∃ u : State, ∃ d : Desc,
    (s.mayRun d = true) ∧ (u = s.start d) :=
  ⟨inFlight (dev) (pfCmd []), (inFlight (dev) (pfCmd [])).start (pfCmd []), pfCmd [], by decide +kernel, rfl⟩

theorem witness_SecurityCommandsRun_6 : ∃ s : State, ∃ u : State, ∃ d : Desc, ∃ m : Measure,
    (s.mayRun d = true) ∧ (u = s.start d) ∧ (mayMeasure d (dArg d 48 1) = true) ∧ (u.measure (dArg d 48 1) = some m) :=
  ⟨inFlight (dev) (vfCmd [(48, 2)]), (inFlight (dev) (vfCmd [(48, 2)])).start (vfCmd [(48, 2)]), vfCmd [(48, 2)], { version := 0, current := List.replicate 32 0, pending := List.replicate 32 0, moving := false }, by decide +kernel, rfl, by decide +kernel, by decide +kernel⟩

theorem witness_SecurityEventsRun_0 : ∃ s : State, ∃ n : List Byte × W64,
    (s.active = true) ∧ (s.sec.nonce = some n) ∧ (ftReached s.now (ftAdd n.2 nonceFt) = true) :=
  ⟨secured (fun x => { x with nonce := some ([], 0) }) late, ([], 0), by decide +kernel, by decide +kernel, by decide +kernel⟩

theorem witness_SecurityEventsRun_1 : ∃ s : State,
    (s.active = true) ∧ (s.seq = 0) :=
  ⟨dev.fset F.SEC_STATE_SEQ 0 0, by decide +kernel, by decide +kernel⟩

theorem witness_SecurityEventsRun_2 : ∃ s : State,
    (s.active = true) :=
  ⟨dev, by decide +kernel⟩

theorem witness_SecurityEventsRun_3 : ∃ s : State, ∃ ix : Nat, ∃ x : IdeStream,
    (s.active = true) ∧ ((s.sec.ide.find? fun x => x.ix == ix) = some x) :=
  ⟨secured fun x => { x with ide := [{ ix := 4, bound := [1] }] }, 4, { ix := 4, bound := [1] }, by decide +kernel, by decide +kernel⟩

theorem witness_SecurityEventsRun_4 : ∃ s : State, ∃ start : W32, ∃ gap : List Byte, ∃ f : W32,
    (s.active = true) ∧ (gap = [if (s.journalStart start).2.1 then 1 else 0]) ∧ ((s.journalStart start).1 = some f) :=
  ⟨{ dev with keep := { ready := true, jHeld := 1, jNewest := 1 } }, 0, _, 1, by decide +kernel, rfl, by decide +kernel⟩

theorem witness_SecurityEventsRun_5 : ∃ s : State, ∃ start : W32, ∃ gap : List Byte,
    (s.active = true) ∧ (gap = [if (s.journalStart start).2.1 then 1 else 0]) ∧ ((s.journalStart start).1 = none) :=
  ⟨dev, 0, _, by decide +kernel, rfl, by decide +kernel⟩

theorem witness_SecurityEventsRun_7 : ∃ s : State, ∃ _ : List Byte,
    (s.active = true) ∧ (s.sec.policy / 2 % 2 ≠ 1) :=
  ⟨dev, [], by decide +kernel, by decide +kernel⟩

theorem witness_SecurityEventsRun_8 : ∃ s : State, ∃ bed : Fin 16, ∃ stream : Nat,
    (s.active = true) ∧ (s.tdi bed = 0) ∧ (stream ≠ 0) ∧ ((s.sec.ide.any fun x => x.ix == stream && x.secure) = true) :=
  ⟨secured fun x => { x with ide := [{ ix := 4 }] }, 15, 4, by decide +kernel, by decide +kernel, by decide +kernel, by decide +kernel⟩

theorem witness_SecurityEventsRun_9 : ∃ s : State, ∃ bed : Fin 16,
    (s.active = true) ∧ (s.tdi bed = 1) :=
  ⟨dev.fset F.SEC_BED_STATE_TDI 1 15, 15, by decide +kernel, by decide +kernel⟩

theorem witness_SecurityEventsRun_10 : ∃ s : State, ∃ _ : Fin 16,
    (s.active = true) :=
  ⟨dev, 0, by decide +kernel⟩

theorem witness_SecurityEventsRun_11 : ∃ s : State, ∃ bed : Fin 16,
    (s.active = true) ∧ (s.tdi bed = 1 ∨ s.tdi bed = 2) :=
  ⟨dev.fset F.SEC_BED_STATE_TDI 2 15, 15, by decide +kernel, by decide +kernel⟩

theorem witness_SecurityEventsRun_12 : ∃ s : State, ∃ oob : Bool, ∃ r : SpdmReq,
    (s.pow.supply = .on) ∧ ((oob = true → spdmOob r = true)) ∧ ((spdmSigned r = true → s.seq ≠ 0 ∧ s.seq ≠ 6)) :=
  ⟨dev, true, .version, by decide +kernel, (fun _ => rfl), (fun h => nomatch h)⟩

theorem witness_SecurityEventsRun_13 : ∃ s : State, ∃ start : W32, ∃ gap : List Byte, ∃ f : W32,
    (s.pow.supply = .on) ∧ (gap = [if (s.faultStart start).2.1 then 1 else 0]) ∧ ((s.faultStart start).1 = some f) :=
  ⟨faulted, 9, _, 9, by decide +kernel, rfl, by decide +kernel⟩

theorem witness_SecurityEventsRun_14 : ∃ s : State, ∃ start : W32, ∃ gap : List Byte,
    (s.pow.supply = .on) ∧ (gap = [if (s.faultStart start).2.1 then 1 else 0]) ∧ ((s.faultStart start).1 = none) :=
  ⟨dev, 9, _, by decide +kernel, rfl, by decide +kernel⟩

theorem witness_SecurityEventsRun_15 : ∃ s : State,
    (s.pow.supply = .on) :=
  ⟨dev, by decide +kernel⟩

theorem witness_FaultControlRuns_0 : ∃ s : State, ∃ u : State, ∃ d : Desc, ∃ f : W32, ∃ rs : List FaultRec, ∃ x : W32 × State,
    (s.mayRun d = true) ∧ (u = s.start d) ∧ ((u.faultStart (BitVec.ofNat 32 (dArg d 48 4))).1 = some f) ∧ (rs = ((u.faultsFrom f).filter fun r => (dBed d).all fun b => r.bed == b).take (dLen0 d / 64)) ∧ (x = u.readNext (rs.getLast?.map fun r => r.seq)) :=
  ⟨inFlight (faulted) (pfCmd [(48, 9)]), (inFlight (faulted) (pfCmd [(48, 9)])).start (pfCmd [(48, 9)]), pfCmd [(48, 9)], 9, _, _, by decide +kernel, rfl, by decide +kernel, rfl, rfl⟩

theorem witness_FaultControlRuns_1 : ∃ s : State, ∃ u : State, ∃ d : Desc,
    (s.mayRun d = true) ∧ (u = s.start d) ∧ ((u.faultStart (BitVec.ofNat 32 (dArg d 48 4))).1 = none) :=
  ⟨inFlight (dev) (pfCmd []), (inFlight (dev) (pfCmd [])).start (pfCmd []), pfCmd [], by decide +kernel, rfl, by decide +kernel⟩

theorem witness_FaultControlRuns_2 : ∃ s : State, ∃ u : State, ∃ d : Desc,
    (s.mayRun d = true) ∧ (u = s.start d) ∧ (u.flt.units.contains (dArg d 48 2) = true) :=
  ⟨inFlight ({ dev with flt := { dev.flt with units := [1023] } }) (pfCmd [(48, 1023)]), (inFlight ({ dev with flt := { dev.flt with units := [1023] } }) (pfCmd [(48, 1023)])).start (pfCmd [(48, 1023)]), pfCmd [(48, 1023)], by decide +kernel, rfl, by decide +kernel⟩

theorem witness_FaultControlRuns_3 : ∃ s : State, ∃ u : State, ∃ d : Desc,
    (s.mayRun d = true) ∧ (u = s.start d) ∧ (u.flt.regions.contains (dArg d 48 1) = true) ∧ (u.flt.dies.contains (dieOf (dArg d 48 1)) = false) :=
  ⟨inFlight ({ dev with flt := { dev.flt with regions := [15] } }) (pfCmd [(48, 15)]), (inFlight ({ dev with flt := { dev.flt with regions := [15] } }) (pfCmd [(48, 15)])).start (pfCmd [(48, 15)]), pfCmd [(48, 15)], by decide +kernel, rfl, by decide +kernel, by decide +kernel⟩

theorem witness_FaultControlRuns_4 : ∃ s : State, ∃ _ : Nat, ∃ _ : Bool,
    (s.active = true) :=
  ⟨dev, 0, true, by decide +kernel⟩

theorem witness_FaultControlRuns_5 : ∃ s : State, ∃ _ : Nat, ∃ _ : List Nat,
    (s.active = true) :=
  ⟨dev, 0, [], by decide +kernel⟩

theorem witness_FaultControlRuns_6 : ∃ s : State, ∃ f : Detect, ∃ cls : Nat,
    (s.active = true) ∧ (faultClass f.source = some cls) ∧ (f.source ≠ 0x41) ∧ (f.tagFail = false) :=
  ⟨dev, { source := 0x46 }, 4, by decide +kernel, by decide +kernel, by decide +kernel, by decide +kernel⟩

theorem witness_FaultControlRuns_7 : ∃ s : State, ∃ _ : Fin 1024, ∃ _ : W64,
    (s.active = true) :=
  ⟨dev, 1023, 5, by decide +kernel⟩

theorem witness_FaultControlRuns_8 : ∃ s : State, ∃ v : W32,
    (s.active = true) ∧ (F.FLT_FIRST_ARM_ARM.get v = 1) :=
  ⟨dev, 1, by decide +kernel, by decide +kernel⟩

theorem witness_FaultControlRuns_9 : ∃ s : State, ∃ _ : Fin 16, ∃ v : W32,
    (s.active = true) ∧ (F.FLT_BED_FIRST_ARM_ARM.get v = 1) :=
  ⟨dev, 15, 1, by decide +kernel, by decide +kernel⟩

theorem witness_FaultControlRuns_10 : ∃ s : State, ∃ v : W32, ∃ u : State,
    (s.active = true) ∧ (u = (s.fset F.FLT_INJECT_SOURCE (F.FLT_INJECT_SOURCE.get v) 0).fset F.FLT_INJECT_LOCATION
        (F.FLT_INJECT_LOCATION.get v) 0) ∧ (F.FLT_INJECT_GO.get v ≠ 1) :=
  ⟨dev, 0, _, by decide +kernel, rfl, by decide +kernel⟩

theorem witness_FaultControlRuns_11 : ∃ s : State, ∃ v : W32, ∃ u : State,
    (s.active = true) ∧ (u = (s.fset F.FLT_INJECT_SOURCE (F.FLT_INJECT_SOURCE.get v) 0).fset F.FLT_INJECT_LOCATION
        (F.FLT_INJECT_LOCATION.get v) 0) ∧ (F.FLT_INJECT_GO.get v = 1) ∧ (u.fget F.FLT_CTRL_INJECT_ENABLE 0 = 1) :=
  ⟨dev.fset F.FLT_CTRL_INJECT_ENABLE 1 0, 0x80000000, _, by decide +kernel, rfl, by decide +kernel, by decide +kernel⟩

theorem witness_ObservationRuns_0 : ∃ s : State, ∃ _ : Fin 48,
    (s.active = true) :=
  ⟨dev, 47, by decide +kernel⟩

theorem witness_ObservationRuns_1 : ∃ s : State,
    (s.active = true) :=
  ⟨dev, by decide +kernel⟩

theorem witness_ObservationRuns_2 : ∃ s : State, ∃ _ : W16,
    (s.active = true) ∧ (s.keep.ready = true) :=
  ⟨dev, 0xFFFF, by decide +kernel, by decide +kernel⟩

theorem witness_ObservationRuns_3 : ∃ s : State, ∃ b : Fin 5, ∃ r : TraceRec, ∃ rest : List TraceRec,
    (s.active = true) ∧ (s.obs.staging.getD b [] = r :: rest) :=
  ⟨{ dev with obs := { dev.obs with staging := [[], [], [], [], [traceRec]] } }, 4, traceRec, [], by decide +kernel, by decide +kernel⟩

theorem witness_ObservationRuns_4 : ∃ s : State, ∃ fn : Fin 17, ∃ v : W32, ∃ u : State,
    (s.active = true) ∧ (u = s.wrN .TRC_HEAD v.toNat fn) ∧ (u.traceOver fn = true) :=
  ⟨dev.fset F.TRC_CTRL_MODE 1 16, 16, 0, _, by decide +kernel, rfl, by decide +kernel⟩

theorem witness_ObservationRuns_5 : ∃ s : State, ∃ fn : Fin 17, ∃ v : W32, ∃ u : State,
    (s.active = true) ∧ (u = s.wrN .TRC_HEAD v.toNat fn) ∧ (u.traceOver fn = false) :=
  ⟨dev, 16, 0, _, by decide +kernel, rfl, by decide +kernel⟩

theorem witness_ObservationRuns_6 : ∃ s : State, ∃ u : State, ∃ d : Desc,
    (s.mayRun d = true) ∧ (u = s.start d) :=
  ⟨inFlight (dev) (pfCmd []), (inFlight (dev) (pfCmd [])).start (pfCmd []), pfCmd [], by decide +kernel, rfl⟩

theorem witness_ObservationRuns_7 : ∃ s : State, ∃ u : State, ∃ d : Desc,
    (s.mayRun d = true) ∧ (u = s.start d) :=
  ⟨inFlight (dev) (pfCmd []), (inFlight (dev) (pfCmd [])).start (pfCmd []), pfCmd [], by decide +kernel, rfl⟩

theorem witness_PowerAndResetRun_0 : ∃ s : State,
    (s.pow.supply = .off) :=
  ⟨supplyAt .off, by decide +kernel⟩

theorem witness_PowerAndResetRun_1 : ∃ s : State, ∃ _ : Nat,
    (s.pow.supply = .ramp) :=
  ⟨supplyAt .ramp, 0, by decide +kernel⟩

theorem witness_PowerAndResetRun_2 : ∃ s : State,
    (s.pow.supply = .on) :=
  ⟨dev, by decide +kernel⟩

theorem witness_PowerAndResetRun_3 : ∃ s : State,
    (s.pow.supply = .on) ∧ (s.flt.safe = false) :=
  ⟨dev, by decide +kernel, by decide +kernel⟩

theorem witness_PowerAndResetRun_4 : ∃ s : State,
    (s.powered = true) :=
  ⟨dev, by decide +kernel⟩

theorem witness_PowerAndResetRun_5 : ∃ s : State, ∃ cls : Fin 4, ∃ sensor : Byte,
    (s.powered = true) :=
  ⟨dev, 3, 0xFF, by decide +kernel⟩

theorem witness_PowerAndResetRun_6 : ∃ s : State,
    (s.active = true) ∧ (s.seq < 4) ∧ (s.fget F.HUB_BOOT_MEM_READY 0 ≠ 1) :=
  ⟨dev.fset F.SEC_STATE_SEQ 3 0, by decide +kernel, by decide +kernel, by decide +kernel⟩

theorem witness_PowerAndResetRun_7 : ∃ s : State, ∃ u : State, ∃ v : State,
    (s.active = true) ∧ (s.seq = 2) ∧ (s.fget F.HUB_BOOT_STACKS_TRAINED 0 = 0xFFFF) ∧ (s.fget F.HUB_BOOT_KEEP_READY 0 = 1) ∧ (s.fget F.HUB_BOOT_MEM_READY 0 = 0) ∧ (u = (List.range 16).foldl (fun s r => s.loadSpare r) s) ∧ (v = { u with mem := { u.mem with near := [], poison := [] }, sec := { u.sec with devNear := true } }) :=
  ⟨((dev.fset F.SEC_STATE_SEQ 2 0).fset F.HUB_BOOT_STACKS_TRAINED 0xFFFF 0).fset F.HUB_BOOT_KEEP_READY 1 0, _, _, by decide +kernel, by decide +kernel, by decide +kernel, by decide +kernel, by decide +kernel, rfl, rfl⟩

theorem witness_PowerAndResetRun_8 : ∃ s : State, ∃ v : W32,
    (s.active = true) ∧ (F.HUB_RESET_CTRL_DEVICE.get v = 1) ∧ (F.HUB_RESET_CTRL_KEY.get v = 0xA5) :=
  ⟨dev, 0xA5000001, by decide +kernel, by decide +kernel, by decide +kernel⟩

theorem witness_PowerAndResetRun_9 : ∃ s : State, ∃ _ : W16,
    (s.active = true) ∧ (4 ≤ s.seq) :=
  ⟨dev, 0xFFFF, by decide +kernel, by decide +kernel⟩

theorem witness_PowerAndResetRun_10 : ∃ s : State, ∃ port : Fin 4, ∃ _ : Nat, ∃ _ : Nat,
    (s.active = true) ∧ (s.fget F.CXL_CTRL_ENABLE port ≠ 0) ∧ (s.flt.ports.contains (8 + port.val) = false) :=
  ⟨dev.fset F.CXL_CTRL_ENABLE 1 3, 3, 16, 5, by decide +kernel, by decide +kernel, by decide +kernel⟩

theorem witness_StepRunsTheFront_1 : ∃ s : State,
    (s.pending = []) :=
  ⟨dev, by decide +kernel⟩

theorem witness_MissingRegistersReadZero_0 : ∃ s : State, ∃ a : Access32,
    (s.powered = true) ∧ (s.locate a = .nothing) ∧ (s.admits a = true) :=
  ⟨dev, hole, by decide +kernel, by decide +kernel, by decide +kernel⟩

theorem witness_MissingRegistersReadZero_1 : ∃ s : State, ∃ a : Access32, ∃ _ : W32,
    (s.powered = true) ∧ (s.locate a = .nothing) ∧ (s.admits a = true) :=
  ⟨dev, hole, 0, by decide +kernel, by decide +kernel, by decide +kernel⟩

theorem witness_MissingRegistersReadZero_2 : ∃ s : State, ∃ a : Access32, ∃ _ : W32, ∃ _ : W32,
    (s.powered = true) ∧ (s.locate a = .nothing) :=
  ⟨dev, hole, 7, 0, by decide +kernel, by decide +kernel⟩

theorem witness_ReadClearLosesNothing_0 : ∃ s : State, ∃ a : Access32, ∃ _ : W32, ∃ r : Reg,
    (s.active = true) ∧ (s.admits a = true) ∧ (s.locate a = .reg r) ∧ (r.name.rcMask ≠ 0) :=
  ⟨dev, { fn := 0, bar := .bar0, off := 0x80010 }, 1, ⟨.PLW_COALESCE, 0, 0⟩, by decide +kernel, by decide +kernel, by decide +kernel, by decide +kernel⟩

theorem witness_SessionDigestIndices_0 : ∃ _ : State, ∃ sid : W64, ∃ h : Nat → Nat,
    ((∀ i, h i = ((sha256 (leBytes 8 sid.toNat)).getD i 0).toNat)) :=
  ⟨dev, 5, fun i => ((sha256 (leBytes 8 5)).getD i 0).toNat, (fun _ => rfl)⟩

theorem witness_SessionDigestIndices_1 : ∃ s : State, ∃ sid : W64, ∃ h : Nat → Nat, ∃ m : HomeMap,
    ((∀ i, h i = ((sha256 (leBytes 8 sid.toNat)).getD i 0).toNat)) ∧ (s.ses.map = some m) :=
  ⟨ses [], 5, fun i => ((sha256 (leBytes 8 5)).getD i 0).toNat, homesAt 0, (fun _ => rfl), by decide +kernel⟩

theorem witness_SessionDigestIndices_2 : ∃ s : State, ∃ sid : W64, ∃ h : Nat → Nat,
    ((∀ i, h i = ((sha256 (leBytes 8 sid.toNat)).getD i 0).toNat)) ∧ (s.ses.map = none) :=
  ⟨dev, 5, fun i => ((sha256 (leBytes 8 5)).getD i 0).toNat, (fun _ => rfl), by decide +kernel⟩

theorem witness_TensorSetHandles_0 : ∃ t : TensorSet,
    (t.ix < 2 ^ 18) ∧ (t.tier < 4) ∧ (t.bed < 16) :=
  ⟨{ set9 with ix := 262143, tier := 3, bed := 15 }, by decide +kernel, by decide +kernel, by decide +kernel⟩

theorem witness_TensorSetHandles_1 : ∃ s : State, ∃ u : State, ∃ d : Desc,
    (s.mayRun d = true) ∧ (u = s.start d) ∧ ((∀ t ∈ u.tiers.sets, t.ix = bits (dArg d 56 8) 17 0 →
      t.state = .free ∨ t.gen % 2 ^ 24 ≠ bits (dArg d 56 8) 47 24 ∨ t.bed ≠ bits (dArg d 56 8) 23 20)) :=
  ⟨inFlight (tiered) (vfCmd [(56, 9 + 4 * 16777216)]), (inFlight (tiered) (vfCmd [(56, 9 + 4 * 16777216)])).start (vfCmd [(56, 9 + 4 * 16777216)]), vfCmd [(56, 9 + 4 * 16777216)], by decide +kernel, rfl, by decide +kernel⟩

theorem witness_FrameTimeOrder_0 : ∃ a : W64, ∃ b : W64, ∃ x : Nat,
    (x = (b.toNat + 2 ^ 64 - a.toNat) % 2 ^ 64) :=
  ⟨5, 4, 18446744073709551615, (by decide)⟩

theorem witness_DescriptorImagesDecode_1 : ∃ c : Instr, ∃ d : Desc, ∃ op : Nat,
    (c.desc? = some (d, op)) ∧ (c.wf = true) :=
  ⟨.nop { src := .mailbox 16 15, opcode := 0x0020 }, { src := .mailbox 16 15, opcode := 0x0020 }, 0x0020, by decide +kernel, by decide +kernel⟩

theorem witness_DescriptorImagesDecode_2 : ∃ d : Desc, ∃ c : Instr,
    (commandOf d = some c) :=
  ⟨{ src := .mailbox 16 15, opcode := 0x0020 }, .nop { src := .mailbox 16 15, opcode := 0x0020 }, by decide +kernel⟩

theorem witness_DescriptorGates_0 : ∃ c : Instr, ∃ s : State, ∃ d : Desc, ∃ op : Nat,
    (c.desc? = some (d, op)) ∧ (s.active = true) ∧ (s.blocked d = true) :=
  ⟨.nop (ringNop 2 true), { dev with host := { dev.host with inflight := [{ desc := ringNop 1 false }, { desc := ringNop 2 true }] } }, ringNop 2 true, 0x0020, by decide +kernel, by decide +kernel, by decide +kernel⟩

theorem witness_DescriptorGates_1 : ∃ c : Instr, ∃ s : State, ∃ d : Desc, ∃ op : Nat,
    (c.desc? = some (d, op)) ∧ (s.active = true) ∧ (s.blocked d = false) ∧ (((dBed d).any fun b => s.flt.fatalBeds.contains b) = true) :=
  ⟨.nop (vfCmd []), inFlight stoppedBed (vfCmd []), vfCmd [], 0x0020, by decide +kernel, by decide +kernel, by decide +kernel, by decide +kernel⟩

theorem witness_DescriptorGates_2 : ∃ c : Instr, ∃ s : State, ∃ d : Desc, ∃ op : Nat,
    (c.desc? = some (d, op)) ∧ (s.active = true) ∧ (s.blocked d = false) ∧ (((dBed d).any fun b => s.flt.fatalBeds.contains b) = false) ∧ (s.mustRecall d ≠ []) :=
  ⟨.memFill { vfCmd [] with len0 := 64 }, inFlight (exporting recalled) { vfCmd [] with len0 := 64 }, { vfCmd [] with len0 := 64 }, 0x0B03, by decide +kernel, by decide +kernel, by decide +kernel, by decide +kernel, by decide +kernel⟩

theorem witness_DescriptorGates_3 : ∃ c : Instr, ∃ s : State, ∃ d : Desc, ∃ op : Nat,
    (c.desc? = some (d, op)) ∧ (s.active = true) ∧ (s.blocked d = false) ∧ (((dBed d).any fun b => s.flt.fatalBeds.contains b) = false) ∧ (s.mustRecall d = []) ∧ (s.inputPoison d = true) :=
  ⟨.smpStopSet stopCmd, inFlight poisonedDev stopCmd, stopCmd, 0x0603, by decide +kernel, by decide +kernel, by decide +kernel, by decide +kernel, by decide +kernel, by decide +kernel⟩

theorem witness_NopFromMailbox_0 : ∃ s : State, ∃ d : Desc, ∃ fn : Fin 17, ∃ m : Fin 16,
    ((Instr.nop d).wf = true) ∧ (s.mayRun d = true) ∧ (d.src = .mailbox fn m) :=
  ⟨inFlight dev nopCmd, nopCmd, 1, 0, by decide +kernel, by decide +kernel, by decide +kernel⟩

theorem witness_MemFillFrame_0 : ∃ s : State, ∃ d : Desc, ∃ fn : Fin 17, ∃ m : Fin 16, ∃ bed : Nat, ∃ va : Nat,
    (s.mayRun d = true) ∧ (d.src = .mailbox fn m) ∧ (dBed d = some bed) ∧ (va = d.addr0.toNat % 2 ^ 48) :=
  ⟨inFlight dev { vfCmd [] with len0 := 64 }, { vfCmd [] with len0 := 64 }, 1, 0, 0, 0, by decide +kernel, by decide +kernel, by decide +kernel, (by decide +kernel)⟩

theorem witness_StatusEventFrame_0 : ∃ s : State, ∃ c : Instr,
    (s.active = true) ∧ ((c = .vinLow ∨ c = .vinHigh ∨ (∃ (cls : Fin 4) (x : Byte), c = .thermalWarning cls x) ∨
      ∃ port : Fin 4, c = .cxlDeviceEvent port)) :=
  ⟨dev, .thermalWarning 3 7, by decide +kernel, (.inr (.inr (.inl ⟨3, 7, rfl⟩)))⟩

theorem witness_PowerOffHolds_0 : ∃ c : Instr, ∃ s : State,
    (s.pow.supply ≠ .on) ∧ ((s.pow.supply = .ramp ∨ c ≠ .powerOn)) ∧ ((s.pow.supply = .off ∨ ∀ strap, c ≠ .powerOnResetRelease strap)) ∧ (c ≠ .powerLoss) :=
  ⟨.nop (vfCmd []), supplyAt .off, by decide +kernel, (.inr (by decide)), (.inl rfl), by decide +kernel⟩

theorem witness_DeviceResetHolds_0 : ∃ c : Instr, ∃ s : State,
    (s.pow.supply = .on) ∧ (s.pow.devReset = true) ∧ (s.flt.safe = false) ∧ ((∀ dt, c ≠ .timeWord dt)) ∧ ((∀ oob r, c ≠ .spdmRequest oob r)) ∧ ((∀ start, c ≠ .faultRead start)) ∧ (c ≠ .healthRead) ∧ (c ≠ .vinOvervoltage) ∧ (c ≠ .thermalShutdown) ∧ (c ≠ .deviceReset) ∧ (c ≠ .powerLoss) :=
  ⟨.nop (vfCmd []), { dev with pow := { dev.pow with devReset := true } }, by decide +kernel, by decide +kernel, by decide +kernel, (fun _ h => nomatch h), (fun _ _ h => nomatch h), (fun _ h => nomatch h), by decide +kernel, by decide +kernel, by decide +kernel, by decide +kernel, by decide +kernel⟩

theorem witness_SafeStateHolds_0 : ∃ s : State, ∃ t : State,
    (s.flt.safe = true) ∧ ((∀ strap rest, s.pending ≠ .powerOnResetRelease strap :: rest)) ∧ (step s = .next t) :=
  ⟨{ safeDev with pending := [.memFill (vfCmd [])] }, _, by decide +kernel, (fun _ _ h => nomatch h), (rfl)⟩

theorem witness_SafeStateEntered_0 : ∃ s : State,
    (s.pow.supply = .on) ∧ (s.flt.safe = false) :=
  ⟨dev, by decide +kernel, by decide +kernel⟩

/-! ## Witnesses over long tables, and those that rest on an open value -/

theorem bytesAt_readBytes (m : List Host.Cell) (a n lo k : Nat) (h : lo + k ≤ n) :
    bytesAt (Mem.readBytes m a n) lo k = leNat (Mem.readBytes m (a + lo) k) := by
  unfold bytesAt Mem.readBytes
  congr 1
  apply List.ext_getElem
  · simp; omega
  · intro i h1 h2; simp [Nat.add_assoc]

theorem length_readBytes (m : List Host.Cell) (a n : Nat) : (Mem.readBytes m a n).length = n := by
  simp [Mem.readBytes]

theorem buf0_host (s : State) (d : Desc) (a : Nat) (h : d.addr0.toNat = 2 ^ 62 + a) (ha : a < 2 ^ 62) :
    s.buf0 d = Mem.readBytes s.mem.host a (dLen0 d) := by
  have h1 : (2 ^ 62 + a) / 2 ^ 62 = 1 := by omega
  have h2 : (2 ^ 62 + a) % 2 ^ 62 = a := by omega
  simp only [State.buf0, State.readAddr, h, h1, h2]

/-- A merge table (ID 3, 2^10 buckets) and a grammar (ID 6, one state) over the vocabulary. -/
def mergeFields : List (Nat × Nat × Nat) :=
  [(0, 4, 0x4752454D), (4, 1, 1), (5, 1, 10), (6, 2, 3), (8, 4, 1), (12, 4, 16448)]
def grammarFields : List (Nat × Nat × Nat) :=
  [(0, 4, 0x4C504C54), (4, 1, 1), (5, 1, 1), (6, 2, 6), (8, 4, 1), (12, 4, 16464), (20, 4, 1), (36, 1, 10)]
def tableDev (fields : List (Nat × Nat × Nat)) : State :=
  { withHost [] with mem := { dev.mem with host := cells 0x1000 fields } }

theorem witness_TextIntakeRuns_1 : ∃ (s u : State) (d : Desc), s.mayRun d = true ∧ u = s.start d ∧ u.keep.ready = true ∧
    u.loadVerdict ((dBed d).getD 0) (tableKind (u.buf0 d)) (u.buf0 d) = .accept ∧ tableKind (u.buf0 d) = 2 := by
  refine ⟨inFlight (tableDev mergeFields) (bufCmd 16448 []), _, bufCmd 16448 [], by decide +kernel, rfl, by decide +kernel, ?_⟩
  have e := buf0_host ((inFlight (tableDev mergeFields) (bufCmd 16448 [])).start (bufCmd 16448 [])) (bufCmd 16448 []) 0x1000
    (by decide +kernel) (by decide)
  have k : dLen0 (bufCmd 16448 []) = 16448 := by decide +kernel
  rw [e, k]
  simp (discharger := decide) only [tableKind, State.loadVerdict, State.tableOk, State.mergeOk, headOk, tableId, bytesAt_readBytes,
    length_readBytes]
  decide +kernel

theorem witness_TextIntakeRuns_2 : ∃ (s u : State) (d : Desc), s.mayRun d = true ∧ u = s.start d ∧ u.keep.ready = true ∧
    u.loadVerdict ((dBed d).getD 0) (tableKind (u.buf0 d)) (u.buf0 d) = .accept ∧ tableKind (u.buf0 d) = 4 := by
  refine ⟨inFlight (tableDev grammarFields) (bufCmd 16464 []), _, bufCmd 16464 [], by decide +kernel, rfl, by decide +kernel, ?_⟩
  have e := buf0_host ((inFlight (tableDev grammarFields) (bufCmd 16464 [])).start (bufCmd 16464 [])) (bufCmd 16464 []) 0x1000
    (by decide +kernel) (by decide)
  have k : dLen0 (bufCmd 16464 []) = 16464 := by decide +kernel
  rw [e, k]
  simp (discharger := decide) only [tableKind, State.loadVerdict, State.tableOk, State.talpolOk, headOk, tableId, bytesAt_readBytes,
    length_readBytes]
  decide +kernel

theorem read_above (m : List Host.Cell) (lim a : Nat) (h : m.all (fun c => decide (c.1 < lim)) = true) (ha : lim ≤ a) :
    Mem.read m a = 0 := by
  induction m with
  | nil => rfl
  | cons c r ih =>
    simp only [List.all_cons, Bool.and_eq_true, decide_eq_true_eq] at h
    have : c.1 ≠ a := by omega
    show (if c.1 = a then c.2 else Mem.read r a) = 0
    rw [if_neg this]; exact ih h.2

/-- A home map of version 2 that gives every bucket to node 0, and the device that holds it in host memory. -/
def mapFields : List (Nat × Nat × Nat) :=
  [(0, 4, 0x504D4853), (4, 1, 1), (8, 4, 2), (12, 4, 10), (16, 4, 100), (20, 4, 10), (24, 4, 5)]
def mapCmd : Desc := { pfCmd [] with opcode := 0x0208, addr0 := 0x4000000000001000, len0 := 8256 }
def mapDev : State := inFlight { ses [] with mem := { dev.mem with host := cells 0x1000 mapFields } } mapCmd

theorem witness_SessionPlacementRuns_5 : ∃ (s u : State) (d : Desc) (m : HomeMap), s.mayRun d = true ∧ u = s.start d ∧
    parseMap (u.buf0 d) = some m ∧
    u.heldVersion.toNat < m.version.toNat ∧ u.keep.ready = true := by
  have e := buf0_host (mapDev.start mapCmd) mapCmd 0x1000 (by decide +kernel) (by decide)
  have k : dLen0 mapCmd = 8256 := by decide +kernel
  rw [k] at e
  have z : ((List.range 4096).map fun k => bytesAt ((mapDev.start mapCmd).buf0 mapCmd) (64 + 2 * k) 2).all
      (fun n => decide (n < 512)) = true := by
    rw [List.all_eq_true]
    intro n hn
    obtain ⟨k, hk, rfl⟩ := List.mem_map.mp hn
    have := List.mem_range.mp hk
    rw [e, bytesAt_readBytes _ _ _ _ _ (by omega)]
    have r : ∀ a, 0x1040 ≤ a → Mem.read (mapDev.start mapCmd).mem.host a = 0 :=
      fun a h => read_above _ _ _ (by decide +kernel) h
    simp only [Mem.readBytes, List.range_succ, List.range_zero, List.nil_append, List.map_cons, List.map_nil,
      List.cons_append, leNat, Nat.add_zero]
    rw [r _ (by omega), r _ (by omega)]
    decide
  have p : (parseMap ((mapDev.start mapCmd).buf0 mapCmd)).isSome = true ∧
      ∀ m, parseMap ((mapDev.start mapCmd).buf0 mapCmd) = some m → m.version = 2 := by
    unfold parseMap
    simp only [z]
    rw [e]
    simp (discharger := decide) only [bytesAt_readBytes, length_readBytes]
    constructor
    · rw [if_pos (by decide +kernel)]; rfl
    · intro m h
      rw [if_pos (by decide +kernel)] at h
      cases h
      decide +kernel
  obtain ⟨m, hm⟩ := Option.isSome_iff_exists.mp p.1
  refine ⟨mapDev, _, mapCmd, m, by decide +kernel, rfl, hm, ?_, by decide +kernel⟩
  rw [p.2 m hm]
  decide +kernel

theorem leastWorn_isSome (f : Flash) (pool p : Nat) (hp : p < 79488) (h : f.freeIn pool p = true) :
    (f.leastWorn pool).isSome = true := by
  have fold : ∀ (l : List Nat) (acc : Option Nat), (acc.isSome = true ∨ l ≠ []) →
      (l.foldl (fun best p => match best with
        | none => some p
        | some b => if f.erasesOf p < f.erasesOf b then some p else some b) acc).isSome = true := by
    intro l
    induction l with
    | nil => intro acc ha; exact ha.resolve_right fun h => h rfl
    | cons x r ih =>
      intro acc _
      refine ih _ (.inl ?_)
      cases acc with
      | none => rfl
      | some b => dsimp only; split <;> rfl
  refine fold _ none (.inr ?_)
  have m : p ∈ f.freeList pool := List.mem_filter.mpr ⟨List.mem_range.mpr hp, h⟩
  intro e
  rw [e] at m
  cases m

/-- A stack whose block 8 has a full log block, so that a merge is forced. -/
def fullLog : LBlock := { block0 with log := some 1, logMap := List.replicate 512 0 }

theorem witness_FlashRuns_4 : ∃ (s : State) (c : Fin 8) (b : LBlock) (op : CopyOp) (dst : Nat) (f : Flash), s.active = true ∧
    f = (s.compostMode c).flashCtl c ∧ f.copy = none ∧ (s.compostMode c).flt.flashOff.contains c.val = false ∧
    (s.compostMode c).nextCopy c = some (b, op) ∧ (if op = .wear then f.mostWorn else f.leastWorn 0) = some dst := by
  have h := leastWorn_isSome (((flashed { map := [fullLog] }).compostMode 0).flashCtl 0) 0 6144 (by decide) (by decide +kernel)
  obtain ⟨dst, hd⟩ := Option.isSome_iff_exists.mp h
  exact ⟨flashed { map := [fullLog] }, 0, fullLog, .merge, dst, _, by decide +kernel, rfl, by decide +kernel, by decide +kernel,
    by decide +kernel, hd⟩

/-! A signature, a wrapped key and a bundle are checked by open functions of Config (log entries 37, 45): the witness is the
condition on them. -/

theorem witness_LinkTrainingRuns_0
    (h : Config.kwUnwrap [1] (List.replicate 48 0) = some ([5, 0, 0, 0, 0, 0, 0, 0] ++ List.replicate 32 9)) :
    ∃ (s u : State) (d : Desc) (key : List Byte), s.mayRun d = true ∧ u = s.start d ∧ u.keep.ready = true ∧ dKey d ≠ 0 ∧
      u.keyUnwraps d = some key ∧ u.keySlot? (dKey d) = none ∧ u.freeKeySlot ≠ none ∧ u.keyMarks.length < 1048576 := by
  let d : Desc := { vfCmd [(48, 5)] with addr0 := 0x4000000000001000, len0 := 48 }
  let s : State := inFlight (secured fun x => { x with kwk := [(0, [1])] }) d
  have b : (s.start d).buf0N d 48 = List.replicate 48 0 := by decide +kernel
  refine ⟨s, _, d, List.replicate 32 9, by decide +kernel, rfl, by decide +kernel, by decide +kernel, ?_, by decide +kernel,
    by decide +kernel, by decide +kernel⟩
  have e : (s.start d).sec.kwk.find? (fun x => x.1 == (dBed d).getD 0xFF) = some (0, [1]) := by decide +kernel
  have l : (dLen0 d != 48) = false := by decide +kernel
  simp only [State.keyUnwraps, l, e, b, h]
  decide +kernel

/-- A PF command whose buffer in host memory holds bytes. -/
def bundleCmd : Desc := { pfCmd [] with addr0 := 0x4000000000001000, len0 := 896 }
def bundleDev (bs : List Byte) : State :=
  { dev with
    mem := { dev.mem with host := Mem.writeBytes [] 0x1000 bs }
    host := { dev.host with inflight := [{ desc := bundleCmd }] } }

theorem bundleDev_regs (bs : List Byte) : ((bundleDev bs).start bundleCmd).regs = dev.regs := by
  have t : (bundleDev []).traceRings 0 (dBed bundleCmd) = [] := by decide +kernel
  have tr : (bundleDev bs).traceRings 0 (dBed bundleCmd) = [] := t
  unfold State.start State.traceCmd State.trace
  rw [tr]
  simp only [ite_self]
  rfl

theorem witness_SecurityCommandsRun_1 (bs : List Byte)
    (h : ((bundleDev bs).start bundleCmd).checkBundle (((bundleDev bs).start bundleCmd).buf0 bundleCmd) = .accept) :
    ∃ (s u : State) (d : Desc), s.mayRun d = true ∧ u = s.start d ∧ u.keep.ready = true ∧ u.inTransition = false ∧
      u.checkBundle (u.buf0 d) = .accept := by
  have e : (bundleDev bs).mayRun bundleCmd = (bundleDev []).mayRun bundleCmd := rfl
  have k : ((bundleDev bs).start bundleCmd).keep = ((bundleDev []).start bundleCmd).keep :=
    ((bundleDev bs).start_fields bundleCmd).2.1.trans ((bundleDev []).start_fields bundleCmd).2.1.symm
  refine ⟨bundleDev bs, _, bundleCmd, e.trans (by decide +kernel), rfl, (congrArg Keep.ready k).trans (by decide +kernel), ?_, h⟩
  have r : ((bundleDev bs).start bundleCmd).regs = ((bundleDev []).start bundleCmd).regs :=
    (bundleDev_regs bs).trans (bundleDev_regs []).symm
  have t : ((bundleDev []).start bundleCmd).inTransition = false := by decide +kernel
  simp only [State.inTransition, State.seq, State.fget, State.rd, r] at t ⊢
  exact t

/-- An enrolled device with a zeroisation nonce. -/
def enrolled : State := secured fun x => { x with owner := some [7], nonce := some ([8], 0), policy := 2 }

theorem witness_SecurityCommandsRun_3
    (h : Config.pssVerify [7] (leBytes 8 Config.serial.toNat ++ [8]) (List.replicate 384 0) = true) :
    ∃ (s u : State) (d : Desc), s.mayRun d = true ∧ u = s.start d ∧ u.keep.ready = true ∧ u.inTransition = false ∧
      u.tokenOk (u.buf0N d 384) = true := by
  let d : Desc := { pfCmd [] with addr0 := 0x4000000000001000, len0 := 384 }
  let s : State := inFlight enrolled d
  have b : (s.start d).buf0N d 384 = List.replicate 384 0 := by decide +kernel
  refine ⟨s, _, d, by decide +kernel, rfl, by decide +kernel, by decide +kernel, ?_⟩
  have e : (s.start d).sec.owner = some [7] ∧ (s.start d).sec.nonce = some ([8], 0) ∧
    ftReached (s.start d).now (ftAdd 0 nonceFt) = false := by decide +kernel
  simp only [State.tokenOk, e, b, h, Bool.not_false, Bool.and_self]

theorem witness_SecurityEventsRun_6
    (h : Config.pssVerify [7] (leBytes 8 Config.serial.toNat ++ [8]) [] = true) :
    ∃ (s : State) (token : List Byte), s.active = true ∧ s.sec.policy / 2 % 2 = 1 ∧ s.inTransition = false ∧
      s.keep.ready = true ∧ s.tokenOk token = true := by
  refine ⟨enrolled, [], by decide +kernel, by decide +kernel, by decide +kernel, by decide +kernel, ?_⟩
  have e : enrolled.sec.owner = some [7] ∧ enrolled.sec.nonce = some ([8], 0) ∧
    ftReached enrolled.now (ftAdd 0 nonceFt) = false := by decide +kernel
  simp only [State.tokenOk, e, h, Bool.not_false, Bool.and_self]

end Sys2Proof.Tests
end

section
/-! Register accesses of the host: those that reach no register (R11), and the reads that clear (R14). -/

namespace Sys2Proof.Machine

/-! ## Accesses that reach no register (R11) -/

/-- What a powered device does in an effect that leaves the queue. -/
theorem State.awake_eq {s t : State} {f : State → State} (hp : s.powered = true) (h : f s = t)
    (hq : t.pending = s.pending) : s.awake f = t := by
  rw [State.awake, if_pos hp]
  exact State.apart_eq h hq

theorem State.regRead_of_nothing {s : State} {a : Access32} (ha : s.admits a = true) (hl : s.locate a = .nothing) :
    s.regRead a = s.answerRead 0 := by
  simp [State.regRead, ha, hl]

theorem State.rcRead_of_nothing {s : State} {a : Access32} (hw : W32) (ha : s.admits a = true) (hl : s.locate a = .nothing) :
    s.rcRead a hw = s.answerRead 0 := by
  simp [State.rcRead, hl, State.regRead_of_nothing ha hl]

/-- A write reaches nothing where no register stands, whatever turns writes away besides. -/
theorem State.writeTo_of_nothing {s : State} {a : Access32} (hl : s.locate a = .nothing) : s.writeTo a = .nothing := by
  simp [State.writeTo, hl]

/-- Every write of a register access leaves the device as it is where it reaches nothing. -/
theorem State.writes_of_writeTo_nothing {s : State} {a : Access32} (v hw : W32) (h : s.writeTo a = .nothing) :
    s.pairLowerWrite a v = s ∧ s.pairUpperWrite a v = s ∧ s.registerWrite a v = s ∧ s.w1cWrite a v hw = s ∧
      s.intEnableWrite a v = s := by
  simp [State.pairLowerWrite, State.pairUpperWrite, State.registerWrite, State.w1cWrite, State.intEnableWrite, h]

/-- Settles O42: an access that reaches no register reads zero, and its writes are discarded. -/
theorem missingRegistersReadZero : Obligations.MissingRegistersReadZero := by
  intro s a hp hl
  refine ⟨fun ha => ⟨?_, fun hw => ?_⟩, fun v hw => ?_⟩
  · exact congrArg Host.Outcome.next (State.awake_eq hp (State.regRead_of_nothing ha hl) rfl)
  · exact congrArg Host.Outcome.next (State.awake_eq hp (State.rcRead_of_nothing hw ha hl) rfl)
  · obtain ⟨hlower, hupper, hplain, hw1c, henable⟩ := State.writes_of_writeTo_nothing v hw (State.writeTo_of_nothing hl)
    exact ⟨congrArg Host.Outcome.next (State.awake_eq hp hlower rfl), congrArg Host.Outcome.next (State.awake_eq hp hupper rfl),
      congrArg Host.Outcome.next (State.awake_eq hp hplain rfl), congrArg Host.Outcome.next (State.awake_eq hp hw1c rfl),
      congrArg Host.Outcome.next (State.awake_eq hp henable rfl)⟩

/-! ## The masks of a register -/

/-- A bit is in the mask of some fields when one of them holds it. -/
theorem RN.maskOf_getLsbD (n : RN) (p : FieldInfo → Bool) (k : Nat) :
    (n.maskOf p).getLsbD k = n.fields.any fun i => p i && i.mask.getLsbD k := by
  have acc : ∀ (l : List FieldInfo) (m : W32),
      (l.foldl (fun m i => if p i then m ||| i.mask else m) m).getLsbD k =
        (m.getLsbD k || l.any fun i => p i && i.mask.getLsbD k) := by
    intro l
    induction l with
    | nil => simp
    | cons i l ih => intro m; cases hp : p i <;> simp [ih, hp, Bool.or_assoc]
  simp [RN.maskOf, acc]

/-- Fewer fields have fewer bits. -/
theorem RN.maskOf_and_maskOf_of_imp (n : RN) {p q : FieldInfo → Bool} (h : ∀ i, p i = true → q i = true) :
    n.maskOf q &&& n.maskOf p = n.maskOf p := by
  apply BitVec.eq_of_getLsbD_eq
  intro k _
  rw [BitVec.getLsbD_and, Bool.and_eq_right_iff_imp, RN.maskOf_getLsbD, RN.maskOf_getLsbD, List.any_eq_true, List.any_eq_true]
  rintro ⟨i, hi, hk⟩
  rw [Bool.and_eq_true] at hk
  exact ⟨i, hi, by simp [h i hk.1, hk.2]⟩

/-- A read shows read-clear fields: they are not write-only (R13). -/
theorem RN.readMask_and_rcMask (n : RN) : n.readMask &&& n.rcMask = n.rcMask :=
  n.maskOf_and_maskOf_of_imp fun i h => by rw [beq_iff_eq.mp h]; rfl

/-- A value merged in under a mask stands under the mask. -/
theorem and_mask_of_merged (x v m : W32) : ((x &&& ~~~m) ||| (v &&& m)) &&& m = v &&& m := by
  ext k
  cases hk : m[k] <;> simp [hk]

/-- A value merged in under a mask leaves what is not under the mask. -/
theorem and_not_mask_of_merged (x v m : W32) : ((x &&& ~~~m) ||| (v &&& m)) &&& ~~~m = x &&& ~~~m := by
  ext k
  cases hk : m[k] <;> simp [hk]

/-! ## The read-clear registers (R13, R14) -/

/-- The read-clear registers that show what they store: the coalescing counters (R82) and the queue's largest delay. -/
def RN.readClearHeld : List RN :=
  [.FT_EVENT_COALESCE, .IF_INT_COALESCE, .JRN_COALESCE, .SES_COALESCE, .SCH_COALESCE, .RGN_ATT_COALESCE, .LX_COALESCE,
   .KV_COALESCE, .IN_COALESCE, .SMP_COALESCE, .TIER_COALESCE, .CXL_COALESCE, .RGN_MEM_COALESCE, .FL_COALESCE, .VS_COALESCE,
   .PLW_COALESCE, .PLW_Q_DELAY_MAX, .EXP_COALESCE, .CK_COALESCE, .SEC_COALESCE, .SEC_BED_COALESCE, .FLT_COALESCE,
   .FLT_BED_COALESCE, .CTR_COALESCE, .TRC_COALESCE, .HUB_PWR_COALESCE]

/-- The registers with a read-clear field, read off the register tables row by row; the value of HUB_POWER_PEAK is a sensor's
(log entry 47). -/
theorem RN.rcMask_ne_zero_iff (n : RN) : n.rcMask ≠ 0 ↔ n ∈ RN.HUB_POWER_PEAK :: RN.readClearHeld := by
  cases n <;> decide

/-- No half of a 64-bit pair is read-clear. -/
theorem RN.pair_of_rcMask {n : RN} (h : n.rcMask ≠ 0) : n.upper = none ∧ n.lower = none :=
  (by decide : ∀ n ∈ RN.HUB_POWER_PEAK :: RN.readClearHeld, n.upper = none ∧ n.lower = none) n (n.rcMask_ne_zero_iff.mp h)

/-- A read of such a register shows what it stores and draws no free value. -/
theorem State.shown_of_readClearHeld (s : State) (r : Reg) (h : r.name ∈ RN.readClearHeld) :
    s.shown r = (s.rd r &&& r.name.readMask, s) := by
  obtain ⟨n, inst, idx⟩ := r
  have each : ∀ n ∈ RN.readClearHeld, s.shown ⟨n, inst, idx⟩ = (s.rd ⟨n, inst, idx⟩ &&& n.readMask, s) := by
    simp only [RN.readClearHeld, List.forall_mem_cons, List.not_mem_nil, false_implies, implies_true, and_true]
    and_intros <;> rfl
  exact each n h

/-- Showing a register changes none. -/
theorem State.shown_regs (s : State) (r : Reg) : (s.shown r).2.regs = s.regs := by
  unfold State.shown
  split
  · rfl
  · split <;> rfl

/-- What a read of a read-clear register returns lies in its fields as they were held. -/
theorem State.shown_and_rcMask (s : State) (r : Reg) (h : r.name.rcMask ≠ 0) (hp : r.name ≠ .HUB_POWER_PEAK) :
    (s.shown r).1 &&& r.name.rcMask = s.rd r &&& r.name.rcMask := by
  have held : r.name ∈ RN.readClearHeld := (List.mem_cons.mp (r.name.rcMask_ne_zero_iff.mp h)).resolve_left hp
  rw [s.shown_of_readClearHeld r held, BitVec.and_assoc, RN.readMask_and_rcMask]

/-! ## The read that clears (R14) -/

/-- A read that clears answers what the register shows and clears its read-clear fields. -/
theorem State.readReg_of_rcMask (s : State) (fn : Nat) (r : Reg) (h : r.name.rcMask ≠ 0) :
    s.readReg fn r true =
      ((s.shown r).2.answerRead (s.shown r).1).wr r (s.rd r &&& ~~~r.name.rcMask) := by
  obtain ⟨hup, hlow⟩ := RN.pair_of_rcMask h
  have held : ((s.shown r).2.answerRead (s.shown r).1).rd r = s.rd r := State.rd_congr (s.shown_regs r) r
  simp [State.readReg, hup, hlow, held, show r.name.rcMask ≠ 0#32 from h]

section ReadClear
variable {s : State} {a : Access32} {r : Reg} (hact : s.active = true) (hadm : s.admits a = true)
  (hloc : s.locate a = .reg r) (hrc : r.name.rcMask ≠ 0)
include hact hadm hloc hrc

/-- RC_READ is the read that clears, and then what hardware sets in the same cycle. -/
theorem State.rcRead_of_reg (hw : W32) :
    s.rcRead a hw = (s.readReg a.fn r true).wr r
      (((s.readReg a.fn r true).rd r &&& ~~~r.name.rcMask) ||| (hw &&& r.name.rcMask)) := by
  simp [State.rcRead, State.regRead, hadm, hloc, s.active_safe hact, show r.name.rcMask ≠ 0#32 from hrc]

/-- RC_READ returns what the register shows in the state before it. -/
theorem State.rcRead_readData (hw : W32) : (s.rcRead a hw).bus.readData = (s.shown r).1 := by
  rw [State.rcRead_of_reg hact hadm hloc hrc, s.readReg_of_rcMask a.fn r hrc]
  rfl

/-- After RC_READ the read-clear fields hold what hardware set, and every other bit of every register is as before. -/
theorem State.rd_rcRead (hw : W32) (q : Reg) :
    (s.rcRead a hw).rd q =
      if q = r then (s.rd r &&& ~~~r.name.rcMask) ||| (hw &&& r.name.rcMask) else s.rd q := by
  have kept : ((s.shown r).2.answerRead (s.shown r).1).rd q = s.rd q := State.rd_congr (s.shown_regs r) q
  rw [State.rcRead_of_reg hact hadm hloc hrc, s.readReg_of_rcMask a.fn r hrc]
  simp only [State.rd_wr, kept, if_true, BitVec.and_assoc, BitVec.and_self]
  split <;> rfl

end ReadClear

/-- Settles O43: the value returned was held before, and the read-clear fields hold what hardware set. -/
theorem readClearLosesNothing : Obligations.ReadClearLosesNothing := by
  intro s a hw r hact hadm hloc hrc
  have after := State.rd_rcRead hact hadm hloc hrc hw
  have merged := (after r).trans (if_pos rfl)
  refine ⟨_, congrArg Host.Outcome.next (s.awake_runs _ hact), fun hp => ?_, ?_, ?_, fun q hq => ?_⟩
  · exact (congrArg (· &&& r.name.rcMask) (State.rcRead_readData hact hadm hloc hrc hw)).trans (s.shown_and_rcMask r hrc hp)
  · exact (congrArg (· &&& r.name.rcMask) merged).trans (and_mask_of_merged _ _ _)
  · exact (congrArg (· &&& ~~~r.name.rcMask) merged).trans (and_not_mask_of_merged _ _ _)
  · exact (after q).trans (if_neg hq)

end Sys2Proof.Machine
end

section
/-! The indices of a session, and its home node (R92). -/

namespace Sys2Proof.Machine

section Digest
variable {sid : W64} {h : Nat → Nat} (hbytes : ∀ i, h i = ((sha256 (leBytes 8 sid.toNat)).getD i 0).toNat)
include hbytes

theorem homeBucket_of_digest : homeBucket sid = (h 1 * 256 + h 0) % 4096 := by
  rw [hbytes 1, hbytes 0, homeBucket, sidDigest]

theorem dirBucket_of_digest : dirBucket sid = (h 6 * 65536 + h 5 * 256 + h 4) % 2097152 := by
  rw [hbytes 6, hbytes 5, hbytes 4, dirBucket, sidDigest]

end Digest

/-- Under a loaded home map, the home node of a SID is the entry of its home bucket. -/
theorem State.homeOf_of_map {s : State} {m : HomeMap} (hm : s.ses.map = some m) (sid : W64) :
    s.homeOf sid = some (m.nodes.getD (homeBucket sid) 0) := by
  rw [State.homeOf, hm, Option.map_some]

theorem State.homeOf_of_no_map {s : State} (hm : s.ses.map = none) (sid : W64) : s.homeOf sid = none := by
  rw [State.homeOf, hm, Option.map_none]

/-- Settles O44: both buckets are cut from the digest of the SID, and the home bucket picks the entry of the home map. -/
theorem sessionDigestIndices : Obligations.SessionDigestIndices := by
  intro s sid h hbytes
  have home : homeBucket sid = (h 1 * 256 + h 0) % 4096 := homeBucket_of_digest hbytes
  refine ⟨home, dirBucket_of_digest hbytes, fun m hm => ?_, fun hm => State.homeOf_of_no_map hm sid⟩
  rw [State.homeOf_of_map hm, home]

end Sys2Proof.Machine
end

section
/-! Tensor-set handles: their fields, and the command that names one of another GEN or Bed (R288). -/

namespace Sys2Proof.Machine

/-! ## The fields of a handle -/

/-- A field of a word is the quotient by the weight of its lowest bit, cut to the width of the field. -/
theorem bits_eq_div_mod (v hi lo : Nat) : bits v hi lo = v / 2 ^ lo % 2 ^ (hi - lo + 1) := by
  rw [bits, Nat.shiftRight_eq_div_pow]

/-- The fields of a handle fill less than 64 bits, so none is lost. -/
theorem setHandle_toNat {t : TensorSet} (hix : t.ix < 2 ^ 18) (htier : t.tier < 4) (hbed : t.bed < 16) :
    (setHandle t).toNat = t.ix + t.tier * 2 ^ 18 + t.bed * 2 ^ 20 + (t.gen % 2 ^ 24) * 2 ^ 24 := by
  rw [setHandle, BitVec.toNat_ofNat]
  exact Nat.mod_eq_of_lt (by omega)

/-- Each field of a handle reads back what stands in the entry, and GEN its low 24 bits. -/
theorem setHandle_fields {t : TensorSet} (hix : t.ix < 2 ^ 18) (htier : t.tier < 4) (hbed : t.bed < 16) :
    bits (setHandle t).toNat 17 0 = t.ix ∧ bits (setHandle t).toNat 19 18 = t.tier ∧
    bits (setHandle t).toNat 23 20 = t.bed ∧ bits (setHandle t).toNat 47 24 = t.gen % 2 ^ 24 ∧
    bits (setHandle t).toNat 63 48 = 0 := by
  simp only [bits_eq_div_mod, setHandle_toNat hix htier hbed]
  omega

/-! ## The entry that a handle names -/

/-- A handle names no entry exactly when each entry at its index is free or of another GEN or Bed. -/
theorem State.setOf_eq_none_iff (s : State) (h : W64) :
    s.setOf h = none ↔ ∀ t ∈ s.tiers.sets, t.ix = bits h.toNat 17 0 →
      t.state = .free ∨ t.gen % 2 ^ 24 ≠ bits h.toNat 47 24 ∨ t.bed ≠ bits h.toNat 23 20 := by
  have index : h.toNat % 2 ^ 18 = bits h.toNat 17 0 := by simp [bits_eq_div_mod]
  simp only [State.setOf, index, List.find?_eq_none, Bool.and_eq_true, beq_iff_eq, bne_iff_ne]
  refine forall₂_congr fun t _ => ?_
  simp only [and_assoc, not_and, ne_eq, Decidable.or_iff_not_imp_left, Decidable.not_not]

/-- The bytes of ARGS that a descriptor gives a handle are the handle. -/
theorem toNat_ofNat_dArg (d : Desc) (off : Nat) : (BitVec.ofNat 64 (dArg d off 8)).toNat = dArg d off 8 := by
  rw [BitVec.toNat_ofNat]
  exact Nat.mod_mod _ _

/-- A query of a handle that names no entry completes with NOT_FOUND and does nothing else. -/
theorem State.tierSetQuery_of_setOf_none {s : State} {d : Desc} (h : s.setOf (BitVec.ofNat 64 (dArg d 56 8)) = none) :
    s.tierSetQuery d = s.complete d St.notFound 0 := by
  simp only [State.tierSetQuery, h, Option.filter_none]

/-- Settles O45: the fields stand where R288 puts them, and a handle of another GEN or Bed names no entry. -/
theorem tensorSetHandles : Obligations.TensorSetHandles := by
  refine ⟨fun t => setHandle_fields, fun s u d hrun hu hother => ?_⟩
  subst hu
  have unnamed : (s.start d).setOf (BitVec.ofNat 64 (dArg d 56 8)) = none := by
    rw [State.setOf_eq_none_iff, toNat_ofNat_dArg]
    exact hother
  exact congrArg Host.Outcome.next ((s.command_runs d _ hrun).trans
    (State.apart_congr (State.tierSetQuery_of_setOf_none unnamed)))

end Sys2Proof.Machine
end

section
/-! What the safe state keeps (R463), and that every operation which still happens in it leaves that alone: the answers to the host, the
keep store's records, the registers, time and the host link. -/

namespace Sys2Proof.Machine

/-! ## The part of the state that stands still -/

/-- Memory and the work of every chapter, which nothing changes in the safe state (R463). -/
structure Frozen where
  safe : Bool
  near : List Host.Cell
  host : List Host.Cell
  ses : Sessions
  sch : Sched
  grafts : List Graft
  kv : Kv
  intake : Intake
  smp : Smp
  tiers : Tiers
  vs : Search
  exp : Exports
  ck : Ck
  plw : Plw
  toSend : List OutMsg
  maps : List (List LBlock)

/-- What of a state stands still in the safe state. -/
def State.frozen (s : State) : Frozen :=
  { safe := s.flt.safe, near := s.mem.near, host := s.mem.host, ses := s.ses, sch := s.sch, grafts := s.grafts, kv := s.kv
    intake := s.intake, smp := s.smp, tiers := s.tiers, vs := s.vs, exp := s.exp, ck := s.ck, plw := s.plw, toSend := s.toSend
    maps := s.flash.ctl.map Flash.map }

/-- The block map of a flash controller is one of those that stand still. -/
theorem State.flashCtl_map (s : State) (i : Nat) : (s.flashCtl i).map = s.frozen.maps.getD i [] := by
  simp only [State.flashCtl, State.frozen, List.getD_eq_getElem?_getD, List.getElem?_map]
  cases s.flash.ctl[i]? <;> rfl

/-! ## Plain updates -/

@[simp] theorem State.frozen_wr (s : State) (r : Reg) (v : W32) : (s.wr r v).frozen = s.frozen := rfl
@[simp] theorem State.frozen_wrN (s : State) (n : RN) (x i k : Nat) : (s.wrN n x i k).frozen = s.frozen := rfl
@[simp] theorem State.frozen_fset (s : State) (f : Fld) (x i k : Nat) : (s.fset f x i k).frozen = s.frozen := rfl
@[simp] theorem State.frozen_bump64 (s : State) (lo hi : RN) (i n k : Nat) : (s.bump64 lo hi i n k).frozen = s.frozen := rfl
@[simp] theorem State.frozen_bump (s : State) (n : RN) (i k j : Nat) : (s.bump n i k j).frozen = s.frozen := rfl
@[simp] theorem State.frozen_msix (s : State) (fn v : Nat) : (s.msix fn v).frozen = s.frozen := rfl
@[simp] theorem State.frozen_updTime (s : State) (f : FrameTime → FrameTime) : (s.updTime f).frozen = s.frozen := rfl
@[simp] theorem State.frozen_submit (s : State) (i : KeepItem) : (s.submit i).frozen = s.frozen := rfl
@[simp] theorem State.frozen_answerRead (s : State) (v : W32) : (s.answerRead v).frozen = s.frozen := rfl
@[simp] theorem State.frozen_setLatch (s : State) (k : PairKey) (v : Option W32) : (s.setLatch k v).frozen = s.frozen := rfl
@[simp] theorem State.frozen_draw (s : State) (tag : Nat) : (s.draw tag).2.frozen = s.frozen := rfl
@[simp] theorem State.frozen_apart (s : State) (f : State → State) : (s.apart f).frozen = (f s).frozen := rfl

@[simp] theorem State.frozen_setStatus (s : State) (f : Fld) (i k : Nat) : (s.setStatus f i k).frozen = s.frozen := by
  obtain ⟨g, b, e⟩ := s.setStatus_shape f i k
  rw [e]; rfl

@[simp] theorem State.frozen_ifInt (s : State) (fn n : Nat) : (s.ifInt fn n).frozen = s.frozen := by
  obtain ⟨g, b, e⟩ := s.ifInt_shape fn n
  rw [e]; rfl

/-- An update of a flash controller that leaves its block map leaves what stands still. -/
theorem State.frozen_updFlash (s : State) (i : Nat) (f : Flash → Flash) (hf : ∀ x, (f x).map = x.map) :
    (s.updFlash i f).frozen = s.frozen := by
  have maps : (s.flash.ctl.modify i f).map Flash.map = s.flash.ctl.map Flash.map := by
    refine List.ext_getElem? fun k => ?_
    rw [List.getElem?_map, List.getElem?_map, List.getElem?_modify]
    cases s.flash.ctl[k]? with
    | none => rfl
    | some x => by_cases h : i = k <;> simp [h, hf]
  simp only [State.frozen, State.updFlash, maps]

/-- Steps that each leave what stands still leave it together. -/
theorem State.frozen_foldl {α : Type} (f : State → α → State) (l : List α) (s : State)
    (hf : ∀ t, ∀ a ∈ l, (f t a).frozen = t.frozen) : (l.foldl f s).frozen = s.frozen := by
  induction l generalizing s with
  | nil => rfl
  | cons a l ih =>
    rw [List.foldl_cons, ih (f s a) fun t b hb => hf t b (List.mem_cons_of_mem a hb), hf s a List.mem_cons_self]

/-! ## The records of the keep store (R325, R326, log entry 91) -/

@[simp] theorem State.frozen_setKeep (s : State) (k : Keep) : ({ s with keep := k } : State).frozen = s.frozen := rfl
@[simp] theorem State.frozen_setSec (s : State) (k : Sec) : ({ s with sec := k } : State).frozen = s.frozen := rfl
theorem State.frozen_setFlt (s : State) (f : Faults) (h : f.safe = s.flt.safe) :
    ({ s with flt := f } : State).frozen = s.frozen := by simp only [State.frozen, h]
@[simp] theorem State.frozen_setPow (s : State) (k : Power) : ({ s with pow := k } : State).frozen = s.frozen := rfl

theorem State.frozen_flashProgram (s : State) (i : Nat) (r : PageRun) (request : Bool) :
    (s.flashProgram i r request).frozen = s.frozen := by
  unfold State.flashProgram
  cases request <;> simp [State.frozen_updFlash]

theorem State.frozen_eraseBlock (s : State) (i phys : Nat) : (s.eraseBlock i phys).frozen = s.frozen := by
  unfold State.eraseBlock
  simp only
  split <;> simp [State.frozen_updFlash]

theorem State.frozen_keepAppend (s : State) (bank : Bool) (r : KeepRec) : (s.keepAppend bank r).frozen = s.frozen := by
  unfold State.keepAppend
  simp only [State.frozen_setKeep]
  split
  · exact State.frozen_flashProgram _ _ _ _
  · rfl

theorem State.frozen_keepVacate (s : State) (bank : Bool) (blk : Nat) (put : State → KeepRec → State)
    (hput : ∀ t r, (put t r).frozen = t.frozen) : (s.keepVacate bank blk put).frozen = s.frozen := by
  unfold State.keepVacate
  simp only
  split
  · rw [State.frozen_eraseBlock, State.frozen_setKeep, State.frozen_foldl _ _ _ fun t r _ => hput t r]
  · rw [State.frozen_setKeep, State.frozen_foldl _ _ _ fun t r _ => hput t r]

theorem State.frozen_keepPlaceN (fuel : Nat) (s : State) (bank : Bool) (r : KeepRec) :
    (State.keepPlaceN fuel s bank r).frozen = s.frozen := by
  induction fuel generalizing s bank r with
  | zero => rfl
  | succ fuel ih =>
    simp only [State.keepPlaceN]
    split
    · rw [State.frozen_keepAppend]
      split
      · rw [State.frozen_keepVacate _ _ _ _ fun t r => ih t (!bank) r, State.frozen_setKeep]
      · rfl
    · exact State.frozen_keepAppend s bank r

theorem State.frozen_keepPlace (s : State) (bank : Bool) (typ : Nat) (key : W64) (payload : List Byte) :
    (s.keepPlace bank typ key payload).frozen = s.frozen := State.frozen_keepPlaceN 64 s bank _

theorem State.frozen_keepOpen (s : State) (bank : Bool) : (s.keepOpen bank).frozen = s.frozen := by
  unfold State.keepOpen
  simp only
  split
  · rfl
  · split
    · exact State.frozen_keepVacate _ _ _ _ fun t r => State.frozen_keepPlace t _ _ _ _
    · rfl

@[simp] theorem State.frozen_keepBatch (s : State) : s.keepBatch.frozen = s.frozen :=
  (State.frozen_keepOpen _ true).trans (State.frozen_keepOpen s false)

@[simp] theorem State.frozen_keepPut (s : State) (typ : Nat) (key : W64) (payload : List Byte) :
    (s.keepPut typ key payload).frozen = s.frozen := by
  unfold State.keepPut
  split <;> exact State.frozen_keepPlace _ _ _ _ _

@[simp] theorem State.frozen_keepPuts (s : State) (ws : List KeepWrite) : (s.keepPuts ws).frozen = s.frozen :=
  State.frozen_foldl _ ws s fun t w _ => State.frozen_keepPut t w.typ w.key w.payload

theorem State.frozen_journalPut (s : State) (e : JEntry) : (s.journalPut e).frozen = s.frozen := by
  unfold State.journalPut
  simp only
  rw [State.frozen_foldl _ _ _ fun t fn _ => State.frozen_ifInt t fn 16]
  split <;> simp [State.showJournal]

/-- In the safe state the keep store writes fault records alone, and these have no further effect. -/
theorem State.frozen_keepProgram (s : State) (hs : s.flt.safe = true) : s.keepProgram.frozen = s.frozen := by
  unfold State.keepProgram
  simp only [hs, if_true]
  split
  · rfl
  · split
    · rfl
    · have note : ∀ i ∈ s.keep.queue.filter faultItem, i.eff = .note ∧ i.journal = [] := fun i hi => by
        have hi := (List.mem_filter.mp hi).2
        simp only [faultItem, Bool.and_eq_true, beq_iff_eq, List.isEmpty_iff] at hi
        exact hi.1.1
      rw [State.frozen_foldl _ _ _ fun t i hi => by rw [(note i hi).1, State.effect],
        State.frozen_foldl _ _ _ fun t i hi => by simp [State.programItem, (note i hi).2],
        State.frozen_keepBatch, State.frozen_setKeep]

/-- The hold-up programs records and nothing else (R497). -/
theorem State.frozen_powerLoss (s : State) : s.powerLoss.frozen = s.frozen := by
  have held : s.holdUp.frozen = s.frozen := by
    unfold State.holdUp
    simp only
    split
    · rw [State.frozen_foldl _ _ _ fun t r _ => by
        cases r with
        | write w => exact State.frozen_keepPut t w.typ w.key w.payload
        | entry e => exact State.frozen_journalPut t e, State.frozen_keepBatch]
    · rfl
  unfold State.powerLoss
  split
  · exact held
  · rfl

/-! ## What the host reads and writes (R463) -/

@[simp] theorem State.frozen_shown (s : State) (r : Reg) : (s.shown r).2.frozen = s.frozen := by
  unfold State.shown
  split
  · rfl
  · split <;> rfl

theorem State.frozen_readReg (s : State) (fn : Nat) (r : Reg) (clear : Bool) : (s.readReg fn r clear).frozen = s.frozen := by
  unfold State.readReg
  split
  · simp
  · simp only
    split <;> simp
  · simp only
    split <;> simp

theorem State.frozen_regRead (s : State) (a : Access32) : (s.regRead a).frozen = s.frozen := by
  unfold State.regRead
  split
  · rfl
  · split
    · split
      · rfl
      · exact State.frozen_readReg _ _ _ _
    · split
      · rfl
      · exact State.frozen_readReg _ _ _ _
    all_goals rfl

theorem State.frozen_rcRead (s : State) (a : Access32) (hw : W32) : (s.rcRead a hw).frozen = s.frozen := by
  unfold State.rcRead
  simp only
  split
  · split <;> simp [State.frozen_regRead]
  · exact State.frozen_regRead s a

/-- In the safe state a write reaches nothing. -/
theorem State.writes_of_safe {s : State} (hs : s.flt.safe = true) (a : Access32) (v hw : W32) :
    s.pairLowerWrite a v = s ∧ s.pairUpperWrite a v = s ∧ s.registerWrite a v = s ∧ s.w1cWrite a v hw = s ∧
      s.intEnableWrite a v = s :=
  State.writes_of_writeTo_nothing v hw (by simp [State.writeTo, hs])

/-- The safe state discards a register write that has a row of its own. -/
theorem State.hostWrite_of_safe {s : State} (hs : s.flt.safe = true) (f : State → State) : s.hostWrite f = s := by
  simp [State.hostWrite, hs]

/-! ## Functions, the host link and the out-of-band endpoint -/

@[simp] theorem State.frozen_functionReset (s : State) (fn : Nat) : (s.functionReset fn).frozen = s.frozen := by
  unfold State.functionReset State.endTrace
  simp only
  split <;> rfl

@[simp] theorem State.frozen_jApply (s : State) (es : List JEntry) : (s.jApply es).frozen = s.frozen := by
  unfold State.jApply
  split <;> rfl

@[simp] theorem State.frozen_dropSpdm (s : State) : s.dropSpdm.frozen = s.frozen := by
  have entered : ∀ (t : State) (es : List JEntry), (if es.isEmpty then t else t.jApply es).frozen = t.frozen := fun t es => by
    split
    · rfl
    · exact State.frozen_jApply t es
  exact entered { s with sec := { s.sec with spdm := false, ide := [] } } _

theorem State.frozen_perstLow (s : State) : s.perstLow.frozen = s.frozen := by
  unfold State.perstLow
  simp only
  rw [State.frozen_dropSpdm, State.frozen_setPow, State.frozen_foldl _ _ _ fun t fn _ => State.frozen_functionReset t fn]

theorem State.frozen_spdmReply (s : State) (r : SpdmReq) : (s.spdmReply r).frozen = s.frozen := by
  unfold State.spdmReply
  split <;> rfl

theorem State.frozen_spdmEffect (s : State) (r : SpdmReq) : (s.spdmEffect r).frozen = s.frozen := by
  unfold State.spdmEffect
  split
  · simp
  · simp
  · split <;> simp
  · split <;> simp
  · rfl

theorem State.frozen_spdmRequest (s : State) (oob : Bool) (r : SpdmReq) : (s.spdmRequest oob r).frozen = s.frozen := by
  unfold State.spdmRequest
  simp only
  repeat' split
  · rfl
  · rfl
  · rfl
  · exact (State.frozen_spdmEffect _ r).trans (State.frozen_spdmReply s r)

/-! ## Detections (R458, R463) -/

@[simp] theorem State.frozen_captureFirst (s : State) (reg : RN) (inst : Nat) (r : FaultRec) :
    (s.captureFirst reg inst r).frozen = s.frozen := State.frozen_foldl _ _ s fun _ _ _ => rfl

theorem State.frozen_faultStatus (s : State) (cls : Nat) (bed : Option Nat) : (s.faultStatus cls bed).frozen = s.frozen := by
  unfold State.faultStatus
  simp only
  split
  · split <;> simp
  · simp

theorem State.frozen_firstError (s : State) (r : FaultRec) : (s.firstError r).frozen = s.frozen := by
  unfold State.firstError
  split
  · rfl
  · extract_lets f t u g v
    have taken : u.frozen = s.frozen := by
      unfold u
      split
      · exact (State.frozen_captureFirst t _ _ _).trans (State.frozen_setFlt s _ rfl)
      · rfl
    split
    · exact ((State.frozen_captureFirst v _ _ _).trans (State.frozen_setFlt u _ rfl)).trans taken
    · exact taken

theorem State.frozen_logFault (s : State) (r : FaultRec) : (s.logFault r).frozen = s.frozen := by
  unfold State.logFault
  simp only
  split
  · split <;> simp [State.frozen_setFlt s _ _]
  · split <;> simp [State.frozen_setFlt s _ _]

theorem State.frozen_recordFault (s : State) (f : Detect) (cls : Nat) (escalated injected : Bool) :
    (s.recordFault f cls escalated injected).frozen = s.frozen := by
  have captured : ∀ r, (((s.bump .FLT_COUNT_C 0 1 cls).faultStatus cls f.bed).firstError r).frozen = s.frozen := fun r => by
    rw [State.frozen_firstError, State.frozen_faultStatus, State.frozen_bump]
  unfold State.recordFault
  simp only
  split
  · exact captured _
  · split
    · exact (State.frozen_setFlt _ _ rfl).trans (captured _)
    · exact (State.frozen_logFault _ _).trans (captured _)

/-- A supply fault is recorded, and leads to the safe state alone (R458). -/
theorem State.raise_supply (s : State) :
    s.raise { source := 0x46 } =
      (s.recordFault { source := 0x46 } 4 false false).enterSafe
        (bitSet ((s.recordFault { source := 0x46 } 4 false false).fget F.FLT_ENABLE_INT 0) 4) := by
  simp [State.raise, faultClass, State.abortedBy, faultRegion, faultLevel, State.react]

/-- A supply fault that meets the safe state is recorded and does nothing more. -/
theorem State.frozen_raise_supply (s : State) (hs : s.flt.safe = true) :
    (s.raise { source := 0x46 }).frozen = s.frozen := by
  have recorded := State.frozen_recordFault s { source := 0x46 } 4 false false
  have safe : (s.recordFault { source := 0x46 } 4 false false).flt.safe = true := (congrArg Frozen.safe recorded).trans hs
  rw [State.raise_supply, State.enterSafe, if_pos safe, recorded]

end Sys2Proof.Machine
end

section
/-! The rows of the command table, sorted by what each is wrapped in (R463, R495, R503), and what follows for all of them: the queue, the
device without power, the gates of a descriptor, and the safe state. -/

namespace Sys2Proof.Machine

/-! ## The kinds of rows -/

/-- An effect that leaves what stands still in the safe state. -/
def KeepsSafe (f : State → State) : Prop := ∀ s : State, s.flt.safe = true → (f s).frozen = s.frozen

/-- What a row of the command table is wrapped in; the five power inputs stand for themselves. -/
inductive RowKind : Instr → Prop
  | live {c : Instr} (f : State → State) (hd : c.desc? = none) (h : ∀ s, exec c s = .next (s.live f)) : RowKind c
  | command {c : Instr} {op : Nat} (d : Desc) (f : State → State) (hd : c.desc? = some (d, op))
      (h : ∀ s, exec c s = .next (s.command d f)) : RowKind c
  | awake {c : Instr} (f : State → State) (hd : c.desc? = none) (h : ∀ s, exec c s = .next (s.awake f)) (hf : KeepsSafe f) : RowKind c
  | supplied {c : Instr} (f : State → State) (hd : c.desc? = none) (h : ∀ s, exec c s = .next (s.supplied f))
      (hf : KeepsSafe f) : RowKind c
  | powerOn : RowKind .powerOn
  | powerOnResetRelease (strap : Nat) : RowKind (.powerOnResetRelease strap)
  | powerLoss : RowKind .powerLoss
  | devResetNAssert : RowKind .devResetNAssert
  | deviceReset : RowKind .deviceReset

/-- Every command is a row of one of these kinds. -/
theorem rowKind : (c : Instr) → RowKind c
  | .beacon .. | .delayRequest | .delayResponse .. | .exchangeAbandon | .ftHostCommit .. | .slewEnd | .ftBeaconTimeout
  | .holdoverExpired | .ftSourceWrite .. | .stepNow | .replicaWordLoss .. | .replicaResync .. | .gateReq .. | .regionClockStop ..
  | .regionClockRestart .. | .supplyDroop .. | .ringDrainComplete .. | .descriptorFetch .. | .ringIrqDelay .. | .offer .. | .claim ..
  | .confirm .. | .refuse .. | .query .. | .answer .. | .renew .. | .renewAck .. | .trxAppend .. | .trxAck .. | .dropNote ..
  | .closeNote .. | .homeXfer .. | .homeXferEnd .. | .trxFetch .. | .trxData .. | .homeXferResend .. | .homeXferTimeout ..
  | .noteResend .. | .ownershipQueryTimer .. | .renewSend .. | .leaseGuardExpiry .. | .leaseExpiry .. | .homeUnreachableTimeout ..
  | .rebuildWindowEnd | .ttlPausedExpiry .. | .ttlCxlExpiry .. | .ttlMulchExpiry .. | .ttlDroppedExpiry .. | .tombstoneExpiry ..
  | .stepBoundary .. | .lxLayer .. | .lxReturn .. | .lxLogits .. | .entryAbandon .. | .entrySampling .. | .prefillChunkComplete ..
  | .graftLayerResident .. | .pfxEnableWrite .. | .kvCopyPass .. | .tokenizeChunk .. | .furrowHeadWrite .. | .furrowBacklogDrain ..
  | .furrowIrqDelay .. | .extentReleaseComplete .. | .movePiece .. | .moveComplete .. | .backingExpiry .. | .cxlLinkDown ..
  | .cxlPoisonRead .. | .cxlEnable .. | .hdmCommit .. | .cxlIoGo .. | .cxlIoDone .. | .cxlDeviceEvent .. | .cxlRakeBlock ..
  | .rakeStripe .. | .spareNow .. | .spareStripeCopy .. | .appendLogProgram .. | .compostCopy .. | .compostCopyComplete ..
  | .flashRakePage .. | .flashOpFailure .. | .blockErase .. | .keepStoreLoad .. | .vsWalkComplete .. | .vsReq .. | .vsResp ..
  | .shardTimeout .. | .plwEnable .. | .laneLock .. | .trainBlock .. | .portTrainingTimeout .. | .laneLost .. | .retrainRelock ..
  | .downRetry .. | .frameReceive .. | .linkControlBlock .. | .linkControlSend .. | .frameSend .. | .messageSend
  | .reassemblyTimeout .. | .queueSample .. | .imgData .. | .imgAck .. | .imgResendTimer .. | .imgGiveUp .. | .mrRead .. | .mrWrite ..
  | .mrAcquire .. | .mrWriteback .. | .mrOp .. | .mrPublish .. | .mrPubRead .. | .mrRecallData .. | .mrResp .. | .recallTimeout ..
  | .remoteCopyTimeout .. | .granuleMigrate .. | .ckNotice .. | .ckPrepare .. | .ckReady .. | .ckAbort .. | .ckDone .. | .ckCommit ..
  | .ckFetch .. | .ckData .. | .ckDataAck .. | .ckDataEnd .. | .ckCut .. | .shardWriteComplete .. | .ckDeadline ..
  | .ckOrphanTimeout .. | .ckStageTtlExpiry .. | .restoreLayerResident .. | .zeroizeNonceLapse | .selftestComplete ..
  | .drbgHealthFailure | .ideIntegrityFailure .. | .tdispRequest .. | .mctpJournalRead .. | .zeroizeNonce | .zeroize ..
  | .unitTestComplete .. | .faultDetect .. | .unitWatchdog .. | .fltFirstArm .. | .fltBedFirstArm .. | .fltInject .. | .ctrClear ..
  | .ctrRun .. | .ctrGlobalStart | .ctrGlobalStop | .ctrGrant .. | .traceRecordWrite .. | .traceHeadWrite ..
  | .stackTrainingComplete .. | .memoryReady | .hubResetCtrl .. | .hubRegionReset .. | .cxlLinkUp .. => .live _ rfl fun _ => rfl
  | .ifOpen d | .ifClose d | .ringCreate d | .ringDestroy d | .nop d | .journalRead d | .sesOpen d | .sesClose d | .sesPause d
  | .sesResume d | .sesPark d | .sesCut d | .sesMove d | .sesAccept d | .sesQuery d | .sesSetLimit d | .sesMapLoad d
  | .schProfileLoad d | .schProfileUnload d | .schSlotRead d | .schSetSeq d | .graftLoad d | .graftDrop d | .graftStow d | .graftBind d
  | .lxGroupSet d | .graftQuota d | .graftQuery d | .kvMap d | .kvUnmap d | .kvSeqSet d | .kvPrefixFlush d | .kvPageQuery d
  | .inSubmit d | .inTableLoad d | .inTableUnload d | .inTokenize d | .furCreate d | .furDestroy d | .smpSet d | .smpStopSet d
  | .smpGrammarLoad d | .smpGrammarUnload d | .tierQuota d | .tierHint d | .tierSetQuery d | .cxlExtentAdd d | .cxlExtentRelease d
  | .cxlExtentLost d | .flDiscardSync d | .flKeepRead d | .vsPublish d | .vsUnload d | .vsQuery d | .vsDelete d | .vsShare d
  | .vsInfo d | .plwKeyLoad d | .plwKeySend d | .plwKeyDrop d | .expCreate d | .expRevoke d | .expNodeLost d | .memFill d | .memCopy d
  | .memCompare d | .memReduce d | .expPublish d | .expWithdraw d | .memHint d | .expQuery d | .ckArm d | .ckStart d | .ckRestore d
  | .ckRestoreCommit d | .ckRestoreCancel d | .ckShardFree d | .ckRegroup d | .ckManifestRead d | .secOwnerEnroll d | .secBundleLoad d
  | .secPartitionReset d | .secNonce d | .secZeroize d | .secCertRead d | .secMeasure d | .fltLogRead d | .fltUnitUnfence d
  | .fltRegionRecover d | .trcMark d | .ctrSnapshot d => .command d _ rfl fun _ => rfl
  | .pairLowerRead a => .awake _ rfl (fun _ => rfl) fun s _ => State.frozen_regRead s a
  | .rcRead a hw => .awake _ rfl (fun _ => rfl) fun s _ => State.frozen_rcRead s a hw
  | .pairLowerWrite a v => .awake _ rfl (fun _ => rfl) fun _ hs => congrArg State.frozen (State.writes_of_safe hs a v 0).1
  | .pairUpperWrite a v => .awake _ rfl (fun _ => rfl) fun _ hs => congrArg State.frozen (State.writes_of_safe hs a v 0).2.1
  | .registerWrite a v => .awake _ rfl (fun _ => rfl) fun _ hs => congrArg State.frozen (State.writes_of_safe hs a v 0).2.2.1
  | .w1cWrite a v hw => .awake _ rfl (fun _ => rfl) fun _ hs => congrArg State.frozen (State.writes_of_safe hs a v hw).2.2.2.1
  | .intEnableWrite a v => .awake _ rfl (fun _ => rfl) fun _ hs => congrArg State.frozen (State.writes_of_safe hs a v 0).2.2.2.2
  | .mailboxGo .. | .ringDoorbell .. =>
    .awake _ rfl (fun _ => rfl) fun _ hs => congrArg State.frozen (State.hostWrite_of_safe hs _)
  | .functionLevelReset fn => .awake _ rfl (fun _ => rfl) fun s _ => State.frozen_functionReset s fn
  | .keepStoreProgram => .awake _ rfl (fun _ => rfl) State.frozen_keepProgram
  | .vinLow | .vinHigh => .awake _ rfl (fun _ => rfl) fun s _ => State.frozen_setStatus s _ _ _
  | .thermalWarning .. => .awake _ rfl (fun _ => rfl) fun s _ => State.frozen_setStatus { s with pow := _ } _ _ _
  | .thermalWarningEnd .. | .hostLinkUp => .awake _ rfl (fun _ => rfl) fun _ _ => rfl
  | .perst => .awake _ rfl (fun _ => rfl) fun s _ => State.frozen_perstLow s
  | .hostLinkDown => .awake _ rfl (fun _ => rfl) fun s _ => State.frozen_dropSpdm { s with pow := _ }
  | .timeWord _ | .faultRead _ | .healthRead => .supplied _ rfl (fun _ => rfl) fun _ _ => rfl
  | .spdmRequest oob r => .supplied _ rfl (fun _ => rfl) fun s _ => State.frozen_spdmRequest s oob r
  | .vinOvervoltage | .thermalShutdown => .supplied _ rfl (fun _ => rfl) State.frozen_raise_supply
  | .powerOn => .powerOn
  | .powerOnResetRelease strap => .powerOnResetRelease strap
  | .powerLoss => .powerLoss
  | .devResetNAssert => .devResetNAssert
  | .deviceReset => .deviceReset

/-! ## The queue -/

theorem exec_pending (c : Instr) (s : State) : ∃ t, exec c s = .next t ∧ t.pending = s.pending := by
  cases rowKind c with
  | live f _ h => exact ⟨_, h s, s.live_pending f⟩
  | command d f _ h => exact ⟨_, h s, s.command_pending d f⟩
  | awake f _ h => exact ⟨_, h s, s.awake_pending f⟩
  | supplied f _ h => exact ⟨_, h s, s.supplied_pending f⟩
  | powerOn | powerOnResetRelease | powerLoss | devResetNAssert | deviceReset => exact ⟨_, rfl, rfl⟩

/-- Settles O40: every row answers a next state with the queue as it was, and a step takes the front off first. -/
theorem commandsTakeOneStep : Obligations.CommandsTakeOneStep := by
  refine ⟨exec_pending, fun s => ?_⟩
  unfold step
  split
  next hq => exact ⟨s, rfl, by rw [hq, List.tail_nil]⟩
  next c rest hq =>
    obtain ⟨t, ht, hp⟩ := exec_pending c { s with pending := rest }
    exact ⟨t, ht, by rw [hp, hq, List.tail_cons]⟩

/-- Settles O39: a step is the meaning of the command in front of the queue. -/
theorem stepRunsTheFront : Obligations.StepRunsTheFront := by
  refine ⟨fun c s => rfl, fun s hq => ?_⟩
  unfold step
  rw [hq]

/-! ## Without power (R495) -/

/-- A device without power is not awake. -/
theorem State.powered_of_off {s : State} (h : s.pow.supply ≠ .on) : s.powered = false := by simp [State.powered, h]

/-- An effect that leaves the state as it is, the queue included. -/
theorem State.apart_self {s : State} {f : State → State} (h : f s = s) : s.apart f = s := State.apart_eq h rfl

/-- Settles O52: without power the rows that need it do nothing, and each power input acts in one supply state alone. -/
theorem powerOffHolds : Obligations.PowerOffHolds := by
  intro c s hoff hon hrelease hloss
  have asleep := State.powered_of_off hoff
  cases rowKind c with
  | live f _ h => rw [h, State.live, asleep]; rfl
  | command d f _ h => rw [h, State.command, State.awake, asleep]; rfl
  | awake f _ h => rw [h, State.awake, asleep]; rfl
  | supplied f _ h => rw [h, State.supplied, if_neg hoff]
  | powerOn =>
    have ramp : s.pow.supply = .ramp := hon.resolve_right fun h => h rfl
    exact congrArg Host.Outcome.next (State.apart_self (by simp [State.powerOn, ramp]))
  | powerOnResetRelease strap =>
    have off : s.pow.supply = .off := hrelease.resolve_right fun h => h strap rfl
    exact congrArg Host.Outcome.next (State.apart_self (by simp [State.powerOnRelease, off]))
  | powerLoss => exact absurd rfl hloss
  | devResetNAssert => exact congrArg Host.Outcome.next (State.apart_self (by simp [State.resetInputLow, hoff]))
  | deviceReset => exact congrArg Host.Outcome.next (State.apart_self (by simp [State.resetInputHigh, hoff]))

/-! ## The gates of a descriptor (R71, R83, R391, R462) -/

/-- A command that carries a descriptor is an opcode's row. -/
theorem exec_of_desc {c : Instr} {d : Desc} {op : Nat} (hd : c.desc? = some (d, op)) :
    ∃ f, ∀ s, exec c s = .next (s.command d f) := by
  cases rowKind c with
  | command d' f hd' h =>
    cases hd'.symm.trans hd
    exact ⟨f, h⟩
  | live _ hd' | awake _ hd' | supplied _ hd' => exact nomatch hd'.symm.trans hd
  | powerOn | powerOnResetRelease | powerLoss | devResetNAssert | deviceReset => exact nomatch hd

/-- An opcode's row on an active device is the gated run of its descriptor. -/
theorem State.command_gates (s : State) (d : Desc) (f : State → State) (h : s.active = true) :
    s.command d f = s.apart fun s => s.runCmd d f := s.awake_runs _ h

/-- Settles O48: the gates stand in this order before the meaning of every opcode's row. -/
theorem descriptorGates : Obligations.DescriptorGates := by
  intro c s d op hd hact
  obtain ⟨f, hf⟩ := exec_of_desc hd
  have calm := s.active_safe hact
  rw [hf, s.command_gates d f hact]
  refine ⟨fun hb => ?_, fun hb hstop => ?_, fun hb hgo hrecall => ?_, fun hb hgo hfree hpoison => ?_⟩
  · exact congrArg Host.Outcome.next (State.apart_self (by simp [State.runCmd, hb]))
  · exact congrArg Host.Outcome.next (State.apart_congr (by rw [State.runCmd, calm, hb, hstop]; rfl))
  · have held : (s.mustRecall d).isEmpty = false := by simp [hrecall]
    exact congrArg Host.Outcome.next (State.apart_congr (by rw [State.runCmd, calm, hb, hgo, held]; rfl))
  · exact congrArg Host.Outcome.next (State.apart_congr (by rw [State.runCmd, calm, hb, hgo, hfree, hpoison]; rfl))

/-! ## The safe state (R463) -/

theorem State.frozen_live_of_safe {s : State} (hs : s.flt.safe = true) (f : State → State) : (s.live f).frozen = s.frozen := by
  simp [State.live, hs]

theorem State.frozen_awake_of_safe {s : State} (hs : s.flt.safe = true) {f : State → State} (hf : KeepsSafe f) :
    (s.awake f).frozen = s.frozen := by
  unfold State.awake
  split
  · exact hf s hs
  · rfl

theorem State.frozen_supplied_of_safe {s : State} (hs : s.flt.safe = true) {f : State → State} (hf : KeepsSafe f) :
    (s.supplied f).frozen = s.frozen := by
  unfold State.supplied
  split
  · exact hf s hs
  · rfl

/-- The safe state runs no descriptor. -/
theorem keepsSafe_runCmd (d : Desc) (f : State → State) : KeepsSafe fun s => s.runCmd d f := fun s hs => by
  simp [State.runCmd, hs]

theorem keepsSafe_powerOn : KeepsSafe State.powerOn := fun s _ => by
  unfold State.powerOn
  split <;> rfl

/-- In the safe state every command but the release of power-on reset leaves what stands still. -/
theorem exec_frozen_of_safe {c : Instr} {s t : State} (hs : s.flt.safe = true) (hc : ∀ strap, c ≠ .powerOnResetRelease strap)
    (ht : exec c s = .next t) : t.frozen = s.frozen := by
  cases rowKind c with
  | live f _ h => cases (h s).symm.trans ht; exact State.frozen_live_of_safe hs f
  | command d f _ h => cases (h s).symm.trans ht; exact State.frozen_awake_of_safe hs (keepsSafe_runCmd d f)
  | awake f _ h hf => cases (h s).symm.trans ht; exact State.frozen_awake_of_safe hs hf
  | supplied f _ h hf => cases (h s).symm.trans ht; exact State.frozen_supplied_of_safe hs hf
  | powerOn => cases ht; exact keepsSafe_powerOn s hs
  | powerOnResetRelease strap => exact absurd rfl (hc strap)
  | powerLoss => cases ht; exact State.frozen_powerLoss s
  | devResetNAssert => cases ht; simp [State.resetInputLow, hs]
  | deviceReset => cases ht; simp [State.resetInputHigh, hs]

theorem step_frozen_of_safe {s t : State} (hs : s.flt.safe = true)
    (hq : ∀ strap rest, s.pending ≠ .powerOnResetRelease strap :: rest) (ht : step s = .next t) : t.frozen = s.frozen := by
  unfold step at ht
  split at ht
  next => cases ht; rfl
  next c rest hp =>
    exact exec_frozen_of_safe (s := { s with pending := rest }) hs (fun strap hc => hq strap rest (hc ▸ hp)) ht

/-- Settles O54: what stands still does so under every row. -/
theorem safeStateHolds : Obligations.SafeStateHolds := by
  intro s t hs hq ht
  have still := step_frozen_of_safe hs hq ht
  have maps : ∀ i, (t.flashCtl i).map = (s.flashCtl i).map := fun i => by
    rw [State.flashCtl_map, State.flashCtl_map, still]
  have fields := still
  simp only [State.frozen, Frozen.mk.injEq] at fields
  obtain ⟨hsafe, hnear, hhost, hses, hsch, hgrafts, hkv, hintake, hsmp, htiers, hvs, hexp, hck, hplw, hsend, -⟩ := fields
  exact ⟨hsafe.trans hs, hnear, hhost, hses, hsch, hgrafts, hkv, hintake, hsmp, htiers, hvs, hexp, hck, hplw, hsend, maps⟩

end Sys2Proof.Machine
end

section
/-! The 64-byte image of a descriptor, and the command that its opcode names (R67, R68). -/

namespace Sys2Proof.Machine

/-! ## Little-endian bytes (R9) -/

@[simp] theorem length_leBytes (n v : Nat) : (leBytes n v).length = n := by simp [leBytes]

/-- The lowest byte of a number stands first. -/
theorem leBytes_succ (n v : Nat) : leBytes (n + 1) v = BitVec.ofNat 8 v :: leBytes n (v / 256) := by
  simp only [leBytes, List.range_succ_eq_map, List.map_cons, List.map_map, Nat.mul_zero, Nat.shiftRight_zero, List.cons.injEq,
    true_and]
  refine List.map_congr_left fun i _ => ?_
  rw [Function.comp_apply, Nat.mul_succ, Nat.add_comm, Nat.shiftRight_add, Nat.shiftRight_eq_div_pow v 8]

/-- The bytes of a number spell it, as far as they reach. -/
theorem leNat_leBytes (n v : Nat) : leNat (leBytes n v) = v % 256 ^ n := by
  induction n generalizing v with
  | zero => simp [leBytes, leNat, Nat.mod_one]
  | succ n ih => rw [leBytes_succ, leNat, ih, BitVec.toNat_ofNat, Nat.pow_succ' (n := n), Nat.mod_mul (a := 256)]

/-- The bytes of a word of as many bytes spell the word. -/
theorem ofNat_leNat_leBytes {w n : Nat} (h : 256 ^ n = 2 ^ w) (x : BitVec w) : BitVec.ofNat w (leNat (leBytes n x.toNat)) = x := by
  rw [leNat_leBytes, h, Nat.mod_eq_of_lt x.isLt, BitVec.ofNat_toNat, BitVec.setWidth_eq]

/-! ## Bytes of a joined list -/

theorem bytesAt_append_left {xs ys : List Byte} {lo n : Nat} (h : lo + n ≤ xs.length) :
    bytesAt (xs ++ ys) lo n = bytesAt xs lo n := by
  rw [bytesAt, bytesAt, List.drop_append_of_le_length (by omega), List.take_append_of_le_length (by simp; omega)]

theorem bytesAt_append_right {xs ys : List Byte} {lo n : Nat} (h : xs.length ≤ lo) :
    bytesAt (xs ++ ys) lo n = bytesAt ys (lo - xs.length) n := by
  rw [bytesAt, bytesAt, List.drop_append, List.drop_eq_nil_of_le h, List.nil_append]

theorem bytesAt_cons {b : Byte} {bs : List Byte} {lo n : Nat} (h : 0 < lo) : bytesAt (b :: bs) lo n = bytesAt bs (lo - 1) n :=
  bytesAt_append_right (xs := [b]) h

theorem bytesAt_leBytes (n v : Nat) : bytesAt (leBytes n v) 0 n = leNat (leBytes n v) := by
  rw [bytesAt, List.drop_zero, List.take_of_length_le (by simp)]

/-! ## The image of a descriptor (R68) -/

theorem length_dBytes (d : Desc) : (dBytes d).length = 64 := by simp [dBytes]

/-- Each field of a descriptor stands in its bytes of the image. -/
theorem bytesAt_dBytes (d : Desc) :
    bytesAt (dBytes d) 0 2 = leNat (leBytes 2 d.opcode.toNat) ∧ bytesAt (dBytes d) 4 4 = leNat (leBytes 4 d.jobId.toNat) ∧
    bytesAt (dBytes d) 8 2 = leNat (leBytes 2 d.layerId.toNat) ∧ bytesAt (dBytes d) 10 2 = leNat (leBytes 2 d.operatorId.toNat) ∧
    bytesAt (dBytes d) 12 2 = leNat (leBytes 2 d.rangeMarker.toNat) ∧ bytesAt (dBytes d) 14 2 = leNat (leBytes 2 d.tag.toNat) ∧
    bytesAt (dBytes d) 16 8 = leNat (leBytes 8 d.target.toNat) ∧ bytesAt (dBytes d) 24 8 = leNat (leBytes 8 d.addr0.toNat) ∧
    bytesAt (dBytes d) 32 8 = leNat (leBytes 8 d.addr1.toNat) ∧ bytesAt (dBytes d) 40 4 = leNat (leBytes 4 d.len0.toNat) ∧
    bytesAt (dBytes d) 44 4 = leNat (leBytes 4 d.len1.toNat) ∧ bytesAt (dBytes d) 48 16 = leNat (leBytes 16 d.args.toNat) := by
  simp [dBytes, bytesAt_append_left, bytesAt_append_right, bytesAt_cons, bytesAt_leBytes]

/-- The two fields of one byte. -/
theorem getD_dBytes (d : Desc) : (dBytes d).getD 2 0 = d.ifv ∧ (dBytes d).getD 3 0 = d.flags := by
  simp [dBytes]

/-- A descriptor comes back from its image. -/
theorem dParse_dBytes (d : Desc) : dParse d.src (dBytes d) = d := by
  obtain ⟨hop, hjob, hlayer, hoper, hmark, htag, htarget, haddr0, haddr1, hlen0, hlen1, hargs⟩ := bytesAt_dBytes d
  obtain ⟨hifv, hflags⟩ := getD_dBytes d
  rw [dParse, hop, hifv, hflags, hjob, hlayer, hoper, hmark, htag, htarget, haddr0, haddr1, hlen0, hlen1, hargs]
  simp only [ofNat_leNat_leBytes (w := 16) (n := 2) rfl, ofNat_leNat_leBytes (w := 32) (n := 4) rfl,
    ofNat_leNat_leBytes (w := 64) (n := 8) rfl, ofNat_leNat_leBytes (w := 128) (n := 16) rfl]

/-! ## The command of an opcode (R67) -/

/-- A well-formed row of an opcode is the command that its opcode names. -/
theorem commandOf_of_desc : (c : Instr) → Laws.Opcode.Statement c
  | .ifOpen d => Laws.Opcode.ifOpen d
  | .ifClose d => Laws.Opcode.ifClose d
  | .ringCreate d => Laws.Opcode.ringCreate d
  | .ringDestroy d => Laws.Opcode.ringDestroy d
  | .nop d => Laws.Opcode.nop d
  | .journalRead d => Laws.Opcode.journalRead d
  | .sesOpen d => Laws.Opcode.sesOpen d
  | .sesClose d => Laws.Opcode.sesClose d
  | .sesPause d => Laws.Opcode.sesPause d
  | .sesResume d => Laws.Opcode.sesResume d
  | .sesPark d => Laws.Opcode.sesPark d
  | .sesCut d => Laws.Opcode.sesCut d
  | .sesMove d => Laws.Opcode.sesMove d
  | .sesAccept d => Laws.Opcode.sesAccept d
  | .sesQuery d => Laws.Opcode.sesQuery d
  | .sesSetLimit d => Laws.Opcode.sesSetLimit d
  | .sesMapLoad d => Laws.Opcode.sesMapLoad d
  | .schProfileLoad d => Laws.Opcode.schProfileLoad d
  | .schProfileUnload d => Laws.Opcode.schProfileUnload d
  | .schSlotRead d => Laws.Opcode.schSlotRead d
  | .schSetSeq d => Laws.Opcode.schSetSeq d
  | .graftLoad d => Laws.Opcode.graftLoad d
  | .graftDrop d => Laws.Opcode.graftDrop d
  | .graftStow d => Laws.Opcode.graftStow d
  | .graftBind d => Laws.Opcode.graftBind d
  | .lxGroupSet d => Laws.Opcode.lxGroupSet d
  | .graftQuota d => Laws.Opcode.graftQuota d
  | .graftQuery d => Laws.Opcode.graftQuery d
  | .kvMap d => Laws.Opcode.kvMap d
  | .kvUnmap d => Laws.Opcode.kvUnmap d
  | .kvSeqSet d => Laws.Opcode.kvSeqSet d
  | .kvPrefixFlush d => Laws.Opcode.kvPrefixFlush d
  | .kvPageQuery d => Laws.Opcode.kvPageQuery d
  | .inSubmit d => Laws.Opcode.inSubmit d
  | .inTableLoad d => Laws.Opcode.inTableLoad d
  | .inTableUnload d => Laws.Opcode.inTableUnload d
  | .inTokenize d => Laws.Opcode.inTokenize d
  | .furCreate d => Laws.Opcode.furCreate d
  | .furDestroy d => Laws.Opcode.furDestroy d
  | .smpSet d => Laws.Opcode.smpSet d
  | .smpStopSet d => Laws.Opcode.smpStopSet d
  | .smpGrammarLoad d => Laws.Opcode.smpGrammarLoad d
  | .smpGrammarUnload d => Laws.Opcode.smpGrammarUnload d
  | .tierQuota d => Laws.Opcode.tierQuota d
  | .tierHint d => Laws.Opcode.tierHint d
  | .tierSetQuery d => Laws.Opcode.tierSetQuery d
  | .cxlExtentAdd d => Laws.Opcode.cxlExtentAdd d
  | .cxlExtentRelease d => Laws.Opcode.cxlExtentRelease d
  | .cxlExtentLost d => Laws.Opcode.cxlExtentLost d
  | .flDiscardSync d => Laws.Opcode.flDiscardSync d
  | .flKeepRead d => Laws.Opcode.flKeepRead d
  | .vsPublish d => Laws.Opcode.vsPublish d
  | .vsUnload d => Laws.Opcode.vsUnload d
  | .vsQuery d => Laws.Opcode.vsQuery d
  | .vsDelete d => Laws.Opcode.vsDelete d
  | .vsShare d => Laws.Opcode.vsShare d
  | .vsInfo d => Laws.Opcode.vsInfo d
  | .plwKeyLoad d => Laws.Opcode.plwKeyLoad d
  | .plwKeySend d => Laws.Opcode.plwKeySend d
  | .plwKeyDrop d => Laws.Opcode.plwKeyDrop d
  | .expCreate d => Laws.Opcode.expCreate d
  | .expRevoke d => Laws.Opcode.expRevoke d
  | .expNodeLost d => Laws.Opcode.expNodeLost d
  | .memFill d => Laws.Opcode.memFill d
  | .memCopy d => Laws.Opcode.memCopy d
  | .memCompare d => Laws.Opcode.memCompare d
  | .memReduce d => Laws.Opcode.memReduce d
  | .expPublish d => Laws.Opcode.expPublish d
  | .expWithdraw d => Laws.Opcode.expWithdraw d
  | .memHint d => Laws.Opcode.memHint d
  | .expQuery d => Laws.Opcode.expQuery d
  | .ckArm d => Laws.Opcode.ckArm d
  | .ckStart d => Laws.Opcode.ckStart d
  | .ckRestore d => Laws.Opcode.ckRestore d
  | .ckRestoreCommit d => Laws.Opcode.ckRestoreCommit d
  | .ckRestoreCancel d => Laws.Opcode.ckRestoreCancel d
  | .ckShardFree d => Laws.Opcode.ckShardFree d
  | .ckRegroup d => Laws.Opcode.ckRegroup d
  | .ckManifestRead d => Laws.Opcode.ckManifestRead d
  | .secOwnerEnroll d => Laws.Opcode.secOwnerEnroll d
  | .secBundleLoad d => Laws.Opcode.secBundleLoad d
  | .secPartitionReset d => Laws.Opcode.secPartitionReset d
  | .secNonce d => Laws.Opcode.secNonce d
  | .secZeroize d => Laws.Opcode.secZeroize d
  | .secCertRead d => Laws.Opcode.secCertRead d
  | .secMeasure d => Laws.Opcode.secMeasure d
  | .fltLogRead d => Laws.Opcode.fltLogRead d
  | .fltUnitUnfence d => Laws.Opcode.fltUnitUnfence d
  | .fltRegionRecover d => Laws.Opcode.fltRegionRecover d
  | .trcMark d => Laws.Opcode.trcMark d
  | .ctrSnapshot d => Laws.Opcode.ctrSnapshot d
  | .beacon .. | .delayRequest | .delayResponse .. | .exchangeAbandon | .ftHostCommit .. | .slewEnd | .ftBeaconTimeout
  | .holdoverExpired | .ftSourceWrite .. | .stepNow | .replicaWordLoss .. | .replicaResync .. | .gateReq .. | .regionClockStop ..
  | .regionClockRestart .. | .supplyDroop .. | .ringDrainComplete .. | .descriptorFetch .. | .ringIrqDelay .. | .offer .. | .claim ..
  | .confirm .. | .refuse .. | .query .. | .answer .. | .renew .. | .renewAck .. | .trxAppend .. | .trxAck .. | .dropNote ..
  | .closeNote .. | .homeXfer .. | .homeXferEnd .. | .trxFetch .. | .trxData .. | .homeXferResend .. | .homeXferTimeout ..
  | .noteResend .. | .ownershipQueryTimer .. | .renewSend .. | .leaseGuardExpiry .. | .leaseExpiry .. | .homeUnreachableTimeout ..
  | .rebuildWindowEnd | .ttlPausedExpiry .. | .ttlCxlExpiry .. | .ttlMulchExpiry .. | .ttlDroppedExpiry .. | .tombstoneExpiry ..
  | .stepBoundary .. | .lxLayer .. | .lxReturn .. | .lxLogits .. | .entryAbandon .. | .entrySampling .. | .prefillChunkComplete ..
  | .graftLayerResident .. | .pfxEnableWrite .. | .kvCopyPass .. | .tokenizeChunk .. | .furrowHeadWrite .. | .furrowBacklogDrain ..
  | .furrowIrqDelay .. | .extentReleaseComplete .. | .movePiece .. | .moveComplete .. | .backingExpiry .. | .cxlLinkDown ..
  | .cxlPoisonRead .. | .cxlEnable .. | .hdmCommit .. | .cxlIoGo .. | .cxlIoDone .. | .cxlDeviceEvent .. | .cxlRakeBlock ..
  | .rakeStripe .. | .spareNow .. | .spareStripeCopy .. | .appendLogProgram .. | .compostCopy .. | .compostCopyComplete ..
  | .flashRakePage .. | .flashOpFailure .. | .blockErase .. | .keepStoreLoad .. | .vsWalkComplete .. | .vsReq .. | .vsResp ..
  | .shardTimeout .. | .plwEnable .. | .laneLock .. | .trainBlock .. | .portTrainingTimeout .. | .laneLost .. | .retrainRelock ..
  | .downRetry .. | .frameReceive .. | .linkControlBlock .. | .linkControlSend .. | .frameSend .. | .messageSend
  | .reassemblyTimeout .. | .queueSample .. | .imgData .. | .imgAck .. | .imgResendTimer .. | .imgGiveUp .. | .mrRead .. | .mrWrite ..
  | .mrAcquire .. | .mrWriteback .. | .mrOp .. | .mrPublish .. | .mrPubRead .. | .mrRecallData .. | .mrResp .. | .recallTimeout ..
  | .remoteCopyTimeout .. | .granuleMigrate .. | .ckNotice .. | .ckPrepare .. | .ckReady .. | .ckAbort .. | .ckDone .. | .ckCommit ..
  | .ckFetch .. | .ckData .. | .ckDataAck .. | .ckDataEnd .. | .ckCut .. | .shardWriteComplete .. | .ckDeadline ..
  | .ckOrphanTimeout .. | .ckStageTtlExpiry .. | .restoreLayerResident .. | .zeroizeNonceLapse | .selftestComplete ..
  | .drbgHealthFailure | .ideIntegrityFailure .. | .tdispRequest .. | .mctpJournalRead .. | .zeroizeNonce | .zeroize ..
  | .unitTestComplete .. | .faultDetect .. | .unitWatchdog .. | .fltFirstArm .. | .fltBedFirstArm .. | .fltInject .. | .ctrClear ..
  | .ctrRun .. | .ctrGlobalStart | .ctrGlobalStop | .ctrGrant .. | .traceRecordWrite .. | .traceHeadWrite ..
  | .stackTrainingComplete .. | .memoryReady | .hubResetCtrl .. | .hubRegionReset .. | .cxlLinkUp ..
  | .pairLowerRead .. | .rcRead .. | .pairLowerWrite .. | .pairUpperWrite .. | .registerWrite .. | .w1cWrite .. | .intEnableWrite ..
  | .mailboxGo .. | .ringDoorbell .. | .functionLevelReset .. | .keepStoreProgram | .vinLow | .vinHigh | .thermalWarning ..
  | .thermalWarningEnd .. | .hostLinkUp | .perst | .hostLinkDown | .timeWord .. | .faultRead .. | .healthRead | .spdmRequest ..
  | .vinOvervoltage | .thermalShutdown | .powerOn | .powerOnResetRelease .. | .powerLoss | .devResetNAssert | .deviceReset => fun _ _ h _ => nomatch h

/-- What an opcode names carries the descriptor and the opcode. -/
theorem desc_of_commandOf {d : Desc} {c : Instr} (h : commandOf d = some c) : c.desc? = some (d, d.opcode.toNat) := by
  unfold commandOf at h
  split at h <;> cases h
  all_goals
    next heq => rw [heq]; rfl

/-- Settles O47: the image gives every field back, and the opcode in it names the row. -/
theorem descriptorImagesDecode : Obligations.DescriptorImagesDecode := by
  refine ⟨fun d => ⟨length_dBytes d, dParse_dBytes d⟩, fun c d op hd hw => ?_, fun d c => desc_of_commandOf⟩
  rw [dParse_dBytes]
  exact commandOf_of_desc c d op hd hw

end Sys2Proof.Machine
end

section
/-! What the shared operations leave unchanged, register by register and chapter by chapter; the status rows (R303, R507) and the way into
the safe state (R458, R463). -/

namespace Sys2Proof.Machine

/-! ## Registers outside some blocks -/

/-- Every register outside the blocks of a list reads as before. -/
def State.SameOutside (bs : List Blk) (s t : State) : Prop := ∀ q : Reg, q.name.place.blk ∉ bs → t.rd q = s.rd q

theorem State.SameOutside.refl (bs : List Blk) (s : State) : s.SameOutside bs s := fun _ _ => rfl

theorem State.SameOutside.trans {bs : List Blk} {s t u : State} (h : s.SameOutside bs t) (h' : t.SameOutside bs u) :
    s.SameOutside bs u := fun q hq => (h' q hq).trans (h q hq)

theorem State.SameOutside.of_regs {bs : List Blk} {s t : State} (h : t.regs = s.regs) : s.SameOutside bs t :=
  fun q _ => State.rd_congr h q

/-- A field of a register outside the blocks reads as before. -/
theorem State.SameOutside.fget {bs : List Blk} {s t : State} (h : s.SameOutside bs t) (f : Fld) (i k : Nat)
    (hf : f.reg.place.blk ∉ bs) : t.fget f i k = s.fget f i k := by
  rw [State.fget, State.fget, h ⟨f.reg, i, k⟩ hf]

theorem State.SameOutside.foldl {α : Type} {bs : List Blk} {f : State → α → State} (hf : ∀ (t : State) (a : α), t.SameOutside bs (f t a))
    (l : List α) (s : State) : s.SameOutside bs (l.foldl f s) :=
  foldl_keeps (fun t : State => s.SameOutside bs t) f (fun t a h => h.trans (hf t a)) l s (.refl bs s)

theorem State.sameOutside_wr {bs : List Blk} (s : State) (r : Reg) (v : W32) (hr : r.name.place.blk ∈ bs) :
    s.SameOutside bs (s.wr r v) := fun _ hq => s.rd_wr_other v fun h => hq (h ▸ hr)

theorem State.sameOutside_fset {bs : List Blk} (s : State) (f : Fld) (x i k : Nat) (hf : f.reg.place.blk ∈ bs) :
    s.SameOutside bs (s.fset f x i k) := s.sameOutside_wr _ _ hf

theorem State.sameOutside_wr64 {bs : List Blk} (s : State) (lo hi : RN) (x i k : Nat) (hlo : lo.place.blk ∈ bs)
    (hhi : hi.place.blk ∈ bs) : s.SameOutside bs (s.wr64 lo hi x i k) :=
  (s.sameOutside_wr _ _ hlo).trans (State.sameOutside_wr _ _ _ hhi)

/-- The companion counter of a status register stands in its block (R82). -/
theorem RN.coalesce_blk {n c : RN} (h : n.coalesce = some c) : c.place.blk = n.place.blk := by
  have each : ∀ n : RN, (n.coalesce.all fun c => decide (c.place.blk = n.place.blk)) = true := by
    intro n
    cases n <;> rfl
  simpa [h] using each n

theorem State.sameOutside_statusBit {bs : List Blk} (s : State) (r : Reg) (n : Nat) (hr : r.name.place.blk ∈ bs) :
    s.SameOutside bs (s.statusBit r n) := by
  have counted : s.SameOutside bs (s.coalesce r) := by
    unfold State.coalesce
    split
    next c hc => exact s.sameOutside_wr _ _ (by rwa [RN.coalesce_blk hc])
    next => exact .refl bs s
  unfold State.statusBit
  simp only
  split
  · exact counted.trans (State.sameOutside_wr _ _ _ hr)
  · exact s.sameOutside_wr _ _ hr

theorem State.sameOutside_ifInt {bs : List Blk} (s : State) (fn n : Nat) (hi : Blk.iface ∈ bs) :
    s.SameOutside bs (s.ifInt fn n) := by
  have set : s.SameOutside bs (s.statusBit ⟨.IF_INT_STATUS, fn, 0⟩ n) := s.sameOutside_statusBit _ n hi
  unfold State.ifInt
  simp only
  split
  · exact set.trans (.of_regs rfl)
  · exact set

/-- A status register that raises no BED_EVENT changes with its companion counter alone. -/
theorem State.raised_regs_of_no_event (s : State) (r : Reg) (n : Nat) (he : r.eventFn = none) : (s.raised r n).regs = s.regs := by
  rw [State.raised, he]
  simp only
  split
  · split <;> rfl
  · split <;> rfl
  · rfl

theorem State.sameOutside_setStatus_of_no_event {bs : List Blk} (s : State) (f : Fld) (i k : Nat) (hf : f.reg.place.blk ∈ bs)
    (he : (⟨f.reg, i, 0⟩ : Reg).eventFn = none) : s.SameOutside bs (s.setStatus f i k) :=
  (s.sameOutside_statusBit _ _ hf).trans (.of_regs (State.raised_regs_of_no_event _ _ _ he))

theorem State.sameOutside_setStatus {bs : List Blk} (s : State) (f : Fld) (i k : Nat) (hf : f.reg.place.blk ∈ bs)
    (hi : Blk.iface ∈ bs) : s.SameOutside bs (s.setStatus f i k) := by
  cases he : (⟨f.reg, i, 0⟩ : Reg).eventFn with
  | none => exact s.sameOutside_setStatus_of_no_event f i k hf he
  | some fn =>
    refine (s.sameOutside_statusBit ⟨f.reg, i, 0⟩ (f.lo + k) hf).trans ?_
    rw [State.setStatus, State.raised, he]
    exact State.sameOutside_ifInt _ _ _ hi

/-! ## The status rows (R303, R507) -/

/-- A status register that no Bed sees changes registers of its block and messages to the host, and nothing else. -/
theorem State.setStatus_frame (s : State) (f : Fld) (i k : Nat) (he : (⟨f.reg, i, 0⟩ : Reg).eventFn = none) :
    ∃ g b, s.setStatus f i k = { s with regs := g, bus := b } ∧ s.SameOutside [f.reg.place.blk] (s.setStatus f i k) := by
  obtain ⟨g, b, h⟩ := s.setStatus_shape f i k
  exact ⟨g, b, h, s.sameOutside_setStatus_of_no_event f i k (List.mem_singleton.mpr rfl) he⟩

/-- What a row keeps that sets a status bit of the hub or of a CXL port. -/
theorem statusRow_frame {s : State} {c : Instr} {e : State → State} {p : Power} {f : Fld} {i k : Nat}
    (hc : exec c s = .next (s.apart e)) (hs : e s = State.setStatus { s with pow := p } f i k)
    (hblk : f.reg.place.blk = .hub ∨ f.reg.place.blk = .cxl) (he : (⟨f.reg, i, 0⟩ : Reg).eventFn = none) :
    ∃ t, exec c s = .next t ∧ t.mem = s.mem ∧ t.time = s.time ∧ t.keep = s.keep ∧ t.flt = s.flt ∧ t.ses = s.ses ∧
      t.sch = s.sch ∧ t.grafts = s.grafts ∧ t.kv = s.kv ∧ t.intake = s.intake ∧ t.smp = s.smp ∧ t.tiers = s.tiers ∧
      t.flash = s.flash ∧ t.obs = s.obs ∧ t.vs = s.vs ∧ t.exp = s.exp ∧ t.ck = s.ck ∧ t.plw = s.plw ∧ t.sec = s.sec ∧
      t.host = s.host ∧ (∀ q : Reg, q.name.place.blk ≠ .hub → q.name.place.blk ≠ .cxl → t.rd q = s.rd q) := by
  obtain ⟨g, b, h, regs⟩ := State.setStatus_frame { s with pow := p } f i k he
  refine ⟨_, hc, ?_⟩
  have outside : ∀ q : Reg, q.name.place.blk ≠ .hub → q.name.place.blk ≠ .cxl → (e s).rd q = s.rd q :=
    fun q hhub hcxl => hs ▸ regs q fun hm => by
      rw [List.mem_singleton] at hm
      exact hblk.elim (fun e => hhub (hm.trans e)) fun e => hcxl (hm.trans e)
  rw [hs, h] at outside
  simp only [State.apart, hs, h, true_and]
  exact outside

/-- Settles O51: each of the rows sets one status bit, of the hub or of a CXL port. -/
theorem statusEventFrame : Obligations.StatusEventFrame := by
  intro s c hact hrow
  obtain rfl | rfl | ⟨cls, x, rfl⟩ | ⟨port, rfl⟩ := hrow
  · exact statusRow_frame (congrArg Host.Outcome.next (s.awake_runs State.vinLow hact)) rfl (.inl rfl) rfl
  · exact statusRow_frame (congrArg Host.Outcome.next (s.awake_runs State.vinHigh hact)) rfl (.inl rfl) rfl
  · exact statusRow_frame (congrArg Host.Outcome.next (s.awake_runs (fun s => s.thermalWarning cls x.toNat) hact)) rfl (.inl rfl) rfl
  · exact statusRow_frame (congrArg Host.Outcome.next (s.live_runs (fun s => s.cxlDeviceEvent port) hact)) rfl (.inr rfl) rfl

/-! ## Into the safe state (R458, R463) -/

/-- A Plowald port that is turned off changes registers, messages to the host and the fabric. -/
theorem State.plwOff_shape (s : State) (p : Nat) : ∃ g b x, s.plwOff p = { s with regs := g, bus := b, plw := x } := by
  have drops : ∀ n : Nat, ∃ g b, (List.range n).foldl (fun s _ => s.plwDrop p Dr.linkLost) s = { s with regs := g, bus := b } :=
    fun n => foldl_keeps (fun t : State => ∃ g b, t = { s with regs := g, bus := b }) _ (by
      rintro _ _ ⟨g, b, rfl⟩
      obtain ⟨g', b', h⟩ := State.setStatus_shape (({ s with regs := g, bus := b } : State).bump .PLW_DROP p 1 Dr.linkLost)
        F.PLW_STATUS_DROP p 0
      exact ⟨g', b', h⟩) (List.range n) s ⟨s.regs, s.bus, rfl⟩
  unfold State.plwOff
  split
  · exact ⟨s.regs, s.bus, s.plw, rfl⟩
  · obtain ⟨g, b, h⟩ := drops (portMsgs (s.port p)).length
    exact ⟨_, b, _, by rw [State.linkLost, h]; rfl⟩

/-- A CXL link is shown down. -/
def State.cxlDark (s : State) (p : Nat) : State :=
  ((s.fset F.CXL_STATUS_LINK_UP 0 p).fset F.CXL_STATUS_WIDTH 0 p).fset F.CXL_STATUS_RATE 0 p

/-- The state with its ports off and its CXL links dark. -/
def State.darkened (s : State) : State :=
  (List.range 4).foldl State.cxlDark ((List.range 8).foldl State.plwOff { s with flt := { s.flt with safe := true } })

/-- The safe state as it is entered: ports off, CXL links dark, the sequencer in ERROR, and one message to the host. -/
theorem State.enterSafe_of_not_safe {s : State} (hs : s.flt.safe = false) (told : Bool) :
    s.enterSafe told =
      if told then s.darkened.fset F.SEC_STATE_SEQ 6 0 else (s.darkened.fset F.SEC_STATE_SEQ 6 0).msix 0 1 := by
  rw [State.enterSafe, hs]
  rfl

theorem State.cxlDark_linkUp_self (s : State) (p : Nat) : (s.cxlDark p).fget F.CXL_STATUS_LINK_UP p = 0 := by
  rw [State.cxlDark, State.fget_fset_other _ F.CXL_STATUS_RATE F.CXL_STATUS_LINK_UP _ _ _ rfl (by decide),
    State.fget_fset_other _ F.CXL_STATUS_WIDTH F.CXL_STATUS_LINK_UP _ _ _ rfl (by decide)]
  exact s.fget_fset_self _ _ _ _ (by decide) (by decide) (by decide)

theorem State.cxlDark_linkUp_of_dark {s : State} {p : Nat} (h : s.fget F.CXL_STATUS_LINK_UP p = 0) (q : Nat) :
    (s.cxlDark q).fget F.CXL_STATUS_LINK_UP p = 0 := by
  by_cases hq : p = q
  · subst hq; exact s.cxlDark_linkUp_self p
  · have other : (⟨.CXL_STATUS, p, 0⟩ : Reg) ≠ ⟨.CXL_STATUS, q, 0⟩ := fun e => hq (Reg.mk.inj e).2.1
    rw [State.cxlDark, State.fget_fset_reg _ _ _ _ _ _ _ _ other, State.fget_fset_reg _ _ _ _ _ _ _ _ other,
      State.fget_fset_reg _ _ _ _ _ _ _ _ other, h]

/-- Every link of a list of ports is down once all of them are shown down. -/
theorem State.linkUp_of_cxlDark (l : List Nat) (s : State) (p : Nat) (h : p ∈ l ∨ s.fget F.CXL_STATUS_LINK_UP p = 0) :
    (l.foldl State.cxlDark s).fget F.CXL_STATUS_LINK_UP p = 0 := by
  induction l generalizing s with
  | nil => exact h.resolve_left (List.not_mem_nil)
  | cons q l ih =>
    refine ih (s.cxlDark q) ?_
    obtain hm | hd := h
    · obtain rfl | hl := List.mem_cons.mp hm
      · exact .inr (s.cxlDark_linkUp_self p)
      · exact .inl hl
    · exact .inr (State.cxlDark_linkUp_of_dark hd q)

/-- What a detection that stops the whole device leaves as it is. -/
def State.held (s : State) : Memory × FrameTime × Sessions := (s.mem, s.time, s.ses)

theorem State.held_wrN (s : State) (n : RN) (x i k : Nat) : (s.wrN n x i k).held = s.held := rfl

theorem State.held_fset (s : State) (f : Fld) (x i k : Nat) : (s.fset f x i k).held = s.held := rfl

theorem State.held_msix (s : State) (fn v : Nat) : (s.msix fn v).held = s.held := rfl

theorem State.held_darkened (s : State) : s.darkened.held = s.held := by
  have off := foldl_keeps (fun t : State => t.held = s.held) State.plwOff (fun t p ht => by
    obtain ⟨g, b, x, h⟩ := t.plwOff_shape p
    rw [h]; exact ht) (List.range 8) { s with flt := { s.flt with safe := true } } rfl
  exact foldl_keeps (fun t : State => t.held = s.held) State.cxlDark (fun t p ht => ht) (List.range 4) _ off

/-- Entering the safe state leaves memory, time and the sessions. -/
theorem State.held_enterSafe (s : State) (told : Bool) : (s.enterSafe told).held = s.held := by
  cases hs : s.flt.safe with
  | true => rw [State.enterSafe, if_pos hs]
  | false =>
    rw [State.enterSafe_of_not_safe hs]
    split
    · rw [State.held_fset, State.held_darkened]
    · rw [State.held_msix, State.held_fset, State.held_darkened]

theorem State.safe_darkened (s : State) : s.darkened.flt.safe = true := by
  have off := foldl_keeps (fun t : State => t.flt.safe = true) State.plwOff (fun t p ht => by
    obtain ⟨g, b, x, h⟩ := t.plwOff_shape p
    rw [h]; exact ht) (List.range 8) { s with flt := { s.flt with safe := true } } rfl
  exact foldl_keeps (fun t : State => t.flt.safe = true) State.cxlDark (fun t p ht => ht) (List.range 4) _ off

/-- What the safe state shows once it is entered. -/
theorem State.enterSafe_shows {s : State} (hs : s.flt.safe = false) (told : Bool) :
    (s.enterSafe told).flt.safe = true ∧ (s.enterSafe told).seq = 6 ∧
      ∀ p : Fin 4, (s.enterSafe told).fget F.CXL_STATUS_LINK_UP p = 0 := by
  have seq : (s.darkened.fset F.SEC_STATE_SEQ 6 0).seq = 6 :=
    s.darkened.fget_fset_self _ _ _ _ (by decide) (by decide) (by decide)
  have down : ∀ p : Fin 4, (s.darkened.fset F.SEC_STATE_SEQ 6 0).fget F.CXL_STATUS_LINK_UP p = 0 := fun p => by
    have other : (⟨.CXL_STATUS, p, 0⟩ : Reg) ≠ ⟨.SEC_STATE, 0, 0⟩ := by simp
    rw [State.fget_fset_reg _ F.SEC_STATE_SEQ F.CXL_STATUS_LINK_UP _ _ _ _ _ other]
    exact State.linkUp_of_cxlDark _ _ p (.inl (List.mem_range.mpr p.isLt))
  rw [State.enterSafe_of_not_safe hs]
  split
  · exact ⟨s.safe_darkened, seq, down⟩
  · exact ⟨s.safe_darkened, seq, down⟩

/-! ## Recording a detection (R464, R465) -/

theorem State.held_apart (s : State) (f : State → State) : (s.apart f).held = (f s).held := rfl

theorem State.fget_apart (s : State) (f : State → State) (fld : Fld) (i k : Nat) :
    (s.apart f).fget fld i k = (f s).fget fld i k := State.fget_congr rfl fld i k

theorem State.held_setStatus (s : State) (f : Fld) (i k : Nat) : (s.setStatus f i k).held = s.held := by
  obtain ⟨g, b, h⟩ := s.setStatus_shape f i k
  rw [h]; rfl

theorem State.held_captureFirst (s : State) (reg : RN) (inst : Nat) (r : FaultRec) : (s.captureFirst reg inst r).held = s.held := by
  unfold State.captureFirst
  exact foldl_keeps (fun t : State => t.held = s.held) _ (fun t k ht => (t.held_wrN _ _ _ _).trans ht) (List.range 16) s rfl

theorem State.held_faultStatus (s : State) (cls : Nat) (bed : Option Nat) : (s.faultStatus cls bed).held = s.held := by
  unfold State.faultStatus
  simp only
  split
  · split
    · rw [State.held_setStatus, State.held_setStatus]
    · exact s.held_setStatus _ _ _
  · exact s.held_setStatus _ _ _

theorem State.held_firstError (s : State) (r : FaultRec) : (s.firstError r).held = s.held := by
  unfold State.firstError
  split
  · rfl
  · extract_lets _ t u _ v
    have taken : u.held = s.held := by
      unfold u
      split
      · exact t.held_captureFirst _ _ _
      · rfl
    split
    · exact (v.held_captureFirst _ _ _).trans taken
    · exact taken

theorem State.held_logFault (s : State) (r : FaultRec) : (s.logFault r).held = s.held := by
  unfold State.logFault
  extract_lets full log _ t u v
  have shown : v.held = s.held := by
    unfold v
    split
    · exact u.held_setStatus _ _ _
    · rfl
  split
  · exact shown
  · exact shown

/-- Recording a detection leaves memory, time and the sessions. -/
theorem State.held_recordFault (s : State) (f : Detect) (cls : Nat) (escalated injected : Bool) :
    (s.recordFault f cls escalated injected).held = s.held := by
  unfold State.recordFault
  extract_lets st t r u log
  have captured : u.held = s.held := (t.held_firstError r).trans (State.held_faultStatus _ _ _)
  split
  · exact captured
  · split
    · exact captured
    · exact (u.held_logFault r).trans captured

/-- A powered device that is not in the safe state enters it by a supply fault; memory, time and the sessions stay. -/
theorem State.raise_supply_enters {s : State} (hs : s.flt.safe = false) :
    let t := s.apart fun s => s.raise { source := 0x46 }
    t.flt.safe = true ∧ t.seq = 6 ∧ (∀ p : Fin 4, t.fget F.CXL_STATUS_LINK_UP p = 0) ∧ t.mem = s.mem ∧ t.time = s.time ∧
      t.ses = s.ses := by
  have calm := (congrArg Frozen.safe (s.frozen_recordFault { source := 0x46 } 4 false false)).trans hs
  have left : (s.apart fun s => s.raise { source := 0x46 }).held = s.held := by
    rw [State.held_apart, State.raise_supply, State.held_enterSafe, State.held_recordFault]
  simp only [State.held, Prod.mk.injEq] at left
  have same := State.raise_supply s
  generalize hr : s.raise { source := 0x46 } = r at same
  obtain ⟨hsafe, hseq, hlinks⟩ := same ▸ State.enterSafe_shows calm _
  refine ⟨?_, ?_, fun p => ?_, left⟩
  · exact (congrArg (fun t : State => t.flt.safe) hr).trans hsafe
  · exact ((s.fget_apart _ _ _ _).trans (congrArg State.seq hr)).trans hseq
  · rw [State.fget_apart, hr]; exact hlinks p

/-- Settles O55: both rows raise the supply fault. -/
theorem safeStateEntered : Obligations.SafeStateEntered := by
  intro s hon hs
  have runs : s.supplied (fun s => s.raise { source := 0x46 }) = s.apart fun s => s.raise { source := 0x46 } := by
    rw [State.supplied, if_pos hon]
  have entered := State.raise_supply_enters hs
  exact ⟨⟨_, congrArg Host.Outcome.next runs, entered⟩, ⟨_, congrArg Host.Outcome.next runs, entered⟩⟩

end Sys2Proof.Machine
end

section
/-! What the start of a command, a write of buffer space and a completion in a mailbox leave unchanged, and with them the frame of
MEM_FILL (R72, R73, R201, R206, R395, R396). -/

namespace Sys2Proof.Machine

/-! ## The start of a command reads the tables of its Bed as they are -/

/-- The blocks that a command touches before it acts: clocks and walkers of the regions, translation faults, interrupts and the trace. -/
def startBlocks : List Blk := [.rgn, .kv, .iface, .trace]

theorem State.sameOutside_clockRestart (s : State) (r : Nat) : s.SameOutside startBlocks (s.clockRestart r) := by
  have clock : ∀ (t : State) (f : Fld) (x : Nat), f.reg = .RGN_CLK_STATUS → t.SameOutside startBlocks (t.fset f x r) :=
    fun t f x hf => t.sameOutside_fset f x r 0 (by rw [hf]; decide)
  unfold State.clockRestart
  split
  · exact .refl _ s
  · exact (((clock _ _ _ rfl).trans (clock _ _ _ rfl)).trans (clock _ _ _ rfl)).trans (clock _ _ _ rfl)

theorem State.sameOutside_walkBuffer (s : State) (bed va : Nat) : s.SameOutside startBlocks (s.walkBuffer bed va) := by
  have walked : ∀ (t : State) (r hits misses : Nat), t.SameOutside startBlocks (t.walked r hits misses) := fun t r hits misses =>
    (t.sameOutside_wr64 _ _ _ _ _ (by decide) (by decide)).trans (State.sameOutside_wr64 _ _ _ _ _ _ (by decide) (by decide))
  unfold State.walkBuffer
  simp only
  split
  · exact walked s _ 1 0
  · split
    · exact walked s _ 0 1
    · exact .trans (.of_regs rfl) (walked _ _ 0 1)

theorem State.sameOutside_bufReach (s : State) (bed va : Nat) : s.SameOutside startBlocks (s.bufReach bed va) := by
  unfold State.bufReach
  split
  · exact s.sameOutside_clockRestart _
  · exact .refl _ s

theorem State.sameOutside_xlateFault (s : State) (bed va : Nat) : s.SameOutside startBlocks (s.xlateFault bed va) := by
  unfold State.xlateFault
  simp only
  split
  · exact (s.sameOutside_wr64 _ _ _ _ _ (by decide) (by decide)).trans
      (State.sameOutside_setStatus _ _ _ _ (by decide) (by decide))
  · exact s.sameOutside_setStatus _ _ _ (by decide) (by decide)

theorem State.sameOutside_bufTouch (s : State) (bed va len : Nat) : s.SameOutside startBlocks (s.bufTouch bed va len) := by
  have walks : ∀ l : List (Nat × Nat), s.SameOutside startBlocks
      (l.foldl (fun s p => (s.walkBuffer bed p.1).bufReach bed p.1) s) := fun l =>
    .foldl (fun t p => (t.sameOutside_walkBuffer bed p.1).trans (State.sameOutside_bufReach _ bed p.1)) l s
  unfold State.bufTouch
  simp only
  split
  · exact (walks _).trans (State.sameOutside_xlateFault _ _ _)
  · exact walks _

theorem State.sameOutside_touchInputs (s : State) (d : Desc) : s.SameOutside startBlocks (s.touchInputs d) := by
  refine .foldl (fun t r => ?_) _ s
  unfold State.touchAddr
  split
  · exact t.sameOutside_bufTouch _ _ _
  · exact .refl _ t

theorem State.sameOutside_dirReach (s : State) (sid : W64) : s.SameOutside startBlocks (s.dirReach sid) := by
  unfold State.dirReach
  simp only
  split
  · exact .refl _ s
  · split
    · exact .of_regs rfl
    · exact .trans (.of_regs rfl) (State.sameOutside_clockRestart _ _)

theorem State.sameOutside_traceLose (s : State) (ft : W64) (fn : Nat) : s.SameOutside startBlocks (s.traceLose ft fn) :=
  ((s.sameOutside_wr ⟨.TRC_LOST, fn, 0⟩ _ (show Blk.trace ∈ startBlocks by decide)).trans
    (State.sameOutside_setStatus _ F.TRC_STATUS_LOST fn 0 (by decide) (by decide))).trans
    (.of_regs rfl)

theorem State.sameOutside_trace (s : State) (bit kind origin index : Nat) (at_ : Site) (bed : Option Nat) (subject : Nat)
    (tail : List Byte) : s.SameOutside startBlocks (s.trace bit kind origin index at_ bed subject tail) := by
  unfold State.trace
  split
  · exact .refl _ s
  · simp only
    split
    · exact .of_regs rfl
    · exact .foldl (fun t fn => (t.sameOutside_setStatus _ _ _ (by decide) (by decide)).trans
        (State.sameOutside_traceLose _ _ fn)) _ s

theorem State.sameOutside_start (s : State) (d : Desc) : s.SameOutside startBlocks (s.start d) := by
  unfold State.start
  extract_lets t u
  have traced : s.SameOutside startBlocks t := by
    unfold t
    split
    · exact s.sameOutside_trace _ _ _ _ _ _ _ _
    · exact .refl _ s
  have looked : t.SameOutside startBlocks (if d.target = 0 || dSlot d || d.opcode.toNat / 256 = 0 then t else t.dirReach d.target) := by
    split
    · exact .refl _ t
    · exact t.sameOutside_dirReach _
  exact ((traced.trans looked).trans (State.sameOutside_touchInputs _ d)).trans (.of_regs rfl)

theorem State.granule_start (s : State) (d : Desc) (bed : Nat) : (s.start d).granule bed = s.granule bed := by
  rw [State.granule, State.granule, (s.sameOutside_start d).fget _ _ _ (by decide)]

/-- Two states with the same tables translate buffer space alike (R201). -/
theorem State.bufPa_congr {s t : State} {bed : Nat} (hg : t.granule bed = s.granule bed) (hm : t.mem = s.mem) (va : Nat) :
    t.bufPa bed va = s.bufPa bed va := by
  rw [State.bufPa, State.bufPa, State.granuleAt, State.granuleAt, hg, hm]

theorem State.pieces_congr {s t : State} {bed : Nat} (hg : t.granule bed = s.granule bed) (va len : Nat) :
    t.pieces bed va len = s.pieces bed va len := by
  rw [State.pieces, State.pieces, hg]

/-! ## Writes of near memory -/

/-- A write of a byte leaves every other byte, in any memory list. -/
theorem Mem.read_write_ne (m : List Host.Cell) {a c : Nat} (v : Byte) (hc : c ≠ a) : Mem.read (Mem.write m a v) c = Mem.read m c := by
  induction m with
  | nil => by_cases hv : v = Mem.fresh <;> simp [Mem.write, Mem.read, hv, hc.symm]
  | cons x m ih =>
    obtain ⟨b, w⟩ := x
    by_cases hab : a < b
    · by_cases hv : v = Mem.fresh <;> simp [Mem.write, Mem.read, hab, hv, hc.symm]
    · by_cases hb : a = b
      · subst hb
        by_cases hv : v = Mem.fresh <;> simp [Mem.write, Mem.read, hv, hc.symm]
      · simp [Mem.write, Mem.read, hab, hb, ih]

theorem Mem.read_writeBytes_ne (bs : List Byte) (m : List Host.Cell) {a c : Nat} (hc : c < a ∨ a + bs.length ≤ c) :
    Mem.read (Mem.writeBytes m a bs) c = Mem.read m c := by
  induction bs generalizing m a with
  | nil => rfl
  | cons b bs ih =>
    rw [List.length_cons] at hc
    rw [Mem.writeBytes, ih _ (by omega), Mem.read_write_ne _ _ (by omega)]

/-- A change of one record that keeps what is sought and what is read of it is not seen. -/
theorem find?_map_updFirst {α β : Type} (p q : α → Bool) (f : α → α) (g : α → β) (hq : ∀ x, q (f x) = q x)
    (hg : ∀ x, g (f x) = g x) (l : List α) : ((updFirst p f l).find? q).map g = (l.find? q).map g := by
  induction l with
  | nil => rfl
  | cons x l ih =>
    rw [updFirst]
    split
    · rw [List.find?_cons, List.find?_cons, hq]
      cases q x
      · rfl
      · exact congrArg some (hg x)
    · rw [List.find?_cons, List.find?_cons]
      cases q x
      · exact ih
      · rfl

/-- A DIRTY mark moves no granule. -/
theorem State.bufPa_dirtyGranule (s : State) (bed va bed' va' : Nat) :
    (s.dirtyGranule bed va).bufPa bed' va' = s.bufPa bed' va' :=
  find?_map_updFirst _ (fun g : Granule => g.bed == bed' && g.va == va' / s.granule bed' * s.granule bed')
    (fun g => { g with dirty := true }) (fun g => g.pa + va' % s.granule bed') (fun _ => rfl) (fun _ => rfl) s.mem.granules

/-! ## A write of buffer space (R201, R206, R461) -/

/-- The bytes of one granule's piece of a write are written, and the granule is DIRTY. -/
def State.bufPut (s : State) (bed va : Nat) (bs : List Byte) (p : Nat × Nat) : State :=
  match s.bufPa bed p.1 with
  | some pa =>
    if s.flt.regions.contains (paRegion pa) then s else
      (s.nearWrite pa ((bs.drop (p.1 - va)).take p.2)).dirtyGranule bed p.1
  | none => s

theorem State.bufWrite_eq (s : State) (bed va : Nat) (bs : List Byte) :
    s.bufWrite bed va bs =
      ((s.pieces bed va bs.length).foldl (fun t p => t.bufPut bed va bs p) s).bufTouch bed va bs.length := rfl

/-- Two states translate a Bed's buffer space alike and hold the same byte of near memory at `a`. -/
def State.NearSame (s : State) (bed a : Nat) (t : State) : Prop :=
  (∀ va, t.bufPa bed va = s.bufPa bed va) ∧ Mem.read t.mem.near a = Mem.read s.mem.near a

theorem State.NearSame.bufPut {s t : State} {bed a va : Nat} {bs : List Byte} {p : Nat × Nat} (h : s.NearSame bed a t)
    (hp : ∀ pa, s.bufPa bed p.1 = some pa → a < pa ∨ pa + p.2 ≤ a) : s.NearSame bed a (t.bufPut bed va bs p) := by
  unfold State.bufPut
  split
  next pa hpa =>
    split
    · exact h
    · have outside : a < pa ∨ pa + ((bs.drop (p.1 - va)).take p.2).length ≤ a :=
        (hp pa ((h.1 p.1).symm.trans hpa)).imp_right fun h => by
          rw [List.length_take]
          omega
      refine ⟨fun va' => ?_, ?_⟩
      · exact (State.bufPa_dirtyGranule (t.nearWrite pa _) bed p.1 bed va').trans (h.1 va')
      · exact (Mem.read_writeBytes_ne _ t.mem.near outside).trans h.2
  next => exact h

/-- What a write of buffer space leaves: everything but registers, messages, the walkers and near memory, and of near memory every byte
outside the mapped pieces. -/
theorem State.bufWrite_frame (s : State) (bed va : Nat) (bs : List Byte) :
    ∃ m g b k, s.bufWrite bed va bs = { s with mem := m, regs := g, bus := b, kv := { s.kv with walkers := k } } ∧
      m.host = s.mem.host ∧ m.sram = s.mem.sram ∧
      ∀ a, (∀ p ∈ s.pieces bed va bs.length, ∀ pa, s.bufPa bed p.1 = some pa → a < pa ∨ pa + p.2 ≤ a) →
        Mem.read m.near a = Mem.read s.mem.near a := by
  have puts : ∀ a (l : List (Nat × Nat)), (∀ p ∈ l, ∀ pa, s.bufPa bed p.1 = some pa → a < pa ∨ pa + p.2 ≤ a) → ∀ t,
      s.NearSame bed a t → s.NearSame bed a (l.foldl (fun t p => t.bufPut bed va bs p) t) := fun a l => by
    induction l with
    | nil => exact fun _ t ht => ht
    | cons p l ih =>
      exact fun hl t ht => ih (fun q hq => hl q (List.mem_cons_of_mem p hq)) _ (ht.bufPut (hl p List.mem_cons_self))
  have shape : ∀ (l : List (Nat × Nat)), ∃ m, l.foldl (fun t p => t.bufPut bed va bs p) s = { s with mem := m } ∧
      m.host = s.mem.host ∧ m.sram = s.mem.sram := fun l =>
    foldl_keeps (fun t : State => ∃ m, t = { s with mem := m } ∧ m.host = s.mem.host ∧ m.sram = s.mem.sram) _ (by
      rintro _ p ⟨m, rfl, hhost, hsram⟩
      unfold State.bufPut
      split
      · split
        · exact ⟨m, rfl, hhost, hsram⟩
        · exact ⟨_, rfl, hhost, hsram⟩
      · exact ⟨m, rfl, hhost, hsram⟩) l s ⟨s.mem, rfl, rfl, rfl⟩
  obtain ⟨m, written, hhost, hsram⟩ := shape (s.pieces bed va bs.length)
  obtain ⟨g, b, k, touched⟩ := State.bufTouch_shape { s with mem := m } bed va bs.length
  refine ⟨m, g, b, k, by rw [State.bufWrite_eq, written, touched], hhost, hsram, fun a ha => ?_⟩
  have same := (puts a _ ha s ⟨fun _ => rfl, rfl⟩).2
  rw [written] at same
  exact same

/-! ## A completion in a mailbox (R73) -/

/-- A completion in a mailbox changes registers, messages, the trace and what is in flight. -/
theorem State.complete_mailbox_shape (s : State) {d : Desc} {fn : Fin 17} {m : Fin 16} (hsrc : d.src = .mailbox fn m) (st res : Nat) :
    ∃ g b o h, s.complete d st res = { s with regs := g, bus := b, obs := o, host := h } := by
  unfold State.complete
  rw [hsrc]
  split
  · extract_lets st' t
    obtain ⟨g, b, o, traced⟩ : ∃ g b o, t = { s with regs := g, bus := b, obs := o } := s.trace_shape _ _ _ _ _ _ _ _
    have shown : ∀ u : State, ∃ g b, u.completeMb fn m d st' res = { u with regs := g, bus := b } := fun u => by
      have words : ∃ g, (List.range 8).foldl (fun s k => s.wrN .MB_COMP (bytesAt (compBytes d st' res false u.now) (4 * k) 4) fn
          (m * 8 + k)) u = { u with regs := g } :=
        foldl_keeps (fun t : State => ∃ g, t = { u with regs := g }) _ (by rintro _ k ⟨g, rfl⟩; exact ⟨_, rfl⟩) _ u ⟨u.regs, rfl⟩
      obtain ⟨g, h⟩ := words
      obtain ⟨g', b', h'⟩ := State.ifInt_shape (({ u with regs := g } : State).fset F.MB_STATUS_BUSY 0 fn m) fn m
      exact ⟨g', b', by unfold State.completeMb; simp only [h, h']; rfl⟩
    obtain ⟨g', b', h⟩ := shown (t.retire d)
    exact ⟨g', b', o, _, h.trans (by rw [traced]; rfl)⟩
  · exact ⟨s.regs, s.bus, s.obs, _, rfl⟩

/-! ## MEM_FILL (R395, R396) -/

theorem length_fillBytes (pattern : List Byte) (n : Nat) : (fillBytes pattern n).length = n := by simp [fillBytes]

/-- Settles O50: MEM_FILL is its start, a write of its range, and a completion in the mailbox. -/
theorem memFillFrame : Obligations.MemFillFrame := by
  intro s d fn m bed va hrun hsrc hbed hva
  obtain ⟨g, b, o, h, k, c, started⟩ := s.start_shape d
  have mem : (s.start d).mem = s.mem := by rw [started]
  obtain ⟨n, g', b', k', written, hhost, hsram, hnear⟩ :=
    (s.start d).bufWrite_frame bed va (fillBytes (leBytes 8 (dArg d 56 8)) (dLen0 d))
  obtain ⟨g'', b'', o', h', completed⟩ := State.complete_mailbox_shape
    ((s.start d).bufWrite bed va (fillBytes (leBytes 8 (dArg d 56 8)) (dLen0 d))) hsrc St.ok 0
  have filled : (s.start d).memFill d =
      ((s.start d).bufWrite bed va (fillBytes (leBytes 8 (dArg d 56 8)) (dLen0 d))).complete d St.ok 0 := by
    rw [State.memFill, hbed, Option.getD_some, hva]
  have whole := filled.trans (completed.trans (by rw [written, started]))
  rw [length_fillBytes, s.pieces_congr (s.granule_start d bed), mem] at hnear
  rw [mem] at hhost hsram
  refine ⟨_, congrArg Host.Outcome.next (s.command_runs d _ hrun), ?_⟩
  simp only [State.apart, whole, and_true]
  refine ⟨fun a ha => hnear a fun p hp pa hpa => ha p hp pa ?_, hhost, hsram⟩
  rwa [s.bufPa_congr (s.granule_start d bed) mem] at hpa

end Sys2Proof.Machine
end

section
/-! What each kind of row answers: a row of an active device, a row that also runs in the safe state, and a command that may run
(R68, R458, R502). -/

namespace Sys2Proof.Machine

section Answers

variable {s t : State} {f g : State → State} {d : Desc}

/-- A row of an active device answers what its operation makes of the state, apart from the queue. -/
theorem next_live (ha : s.active = true) (h : f s = g s) :
    (Host.Outcome.next (s.live f) : Host.Outcome State Fault Refusal) = .next (s.apart g) :=
  congrArg _ ((s.live_runs f ha).trans (State.apart_congr h))

theorem next_live_eq (ha : s.active = true) (h : f s = t) (hq : t.pending = s.pending) :
    (Host.Outcome.next (s.live f) : Host.Outcome State Fault Refusal) = .next t :=
  congrArg _ ((s.live_runs f ha).trans (State.apart_eq h hq))

theorem next_awake (ha : s.active = true) (h : f s = g s) :
    (Host.Outcome.next (s.awake f) : Host.Outcome State Fault Refusal) = .next (s.apart g) :=
  congrArg _ ((s.awake_runs f ha).trans (State.apart_congr h))

theorem next_awake_eq (ha : s.active = true) (h : f s = t) (hq : t.pending = s.pending) :
    (Host.Outcome.next (s.awake f) : Host.Outcome State Fault Refusal) = .next t :=
  congrArg _ ((s.awake_runs f ha).trans (State.apart_eq h hq))

/-- A command that may run answers what its operation makes of the started state. -/
theorem next_command (hm : s.mayRun d = true) (h : f (s.start d) = g s) :
    (Host.Outcome.next (s.command d f) : Host.Outcome State Fault Refusal) = .next (s.apart g) :=
  congrArg _ ((s.command_runs d f hm).trans (State.apart_congr h))

end Answers

/-- A change of a command is submitted where the keep store is ready (R88). -/
theorem State.submitCmd_ready {s : State} (d : Desc) (j : List JEntry) (w : List KeepWrite) (e : Effect) (h : s.keep.ready = true) :
    s.submitCmd d j w e = s.submit { writes := w, journal := j, eff := e } := if_pos h

end Sys2Proof.Machine
end

section
/-! The order of Frame Time, what power-on reset leaves, and the rows of an exchange, of the hub and of the region clocks (R30 to R52). -/

namespace Sys2Proof.Machine

/-! ## The order of Frame Time (R40) -/

/-- The difference of two times as the model takes it. -/
theorem toNat_sub_ft (a b : W64) : (b - a).toNat = (b.toNat + 2 ^ 64 - a.toNat) % 2 ^ 64 := by
  rw [BitVec.toNat_sub]
  congr 1
  omega

/-- Settles O46: both comparisons look at the difference alone. -/
theorem frameTimeOrder : Obligations.FrameTimeOrder := by
  rintro a b x rfl
  rw [← toNat_sub_ft]
  have same : b = a ↔ (b - a).toNat = 0 := by bv_omega
  have later : ftLater b a = true ↔ 0 < (b - a).toNat ∧ (b - a).toNat < 2 ^ 63 := by
    simp only [ftLater, Bool.and_eq_true, decide_eq_true_eq]
  have reached : ftReached b a = true ↔ (b - a).toNat < 2 ^ 63 := by
    simp only [ftReached, Bool.or_eq_true, decide_eq_true_eq, later, same]
    omega
  refine ⟨later, same, reached, ?_⟩
  rw [← Bool.not_eq_true, reached, Nat.not_lt]

/-! ## Power-on reset (R39, R504) -/

/-- Settles O41: the fields of the fixed state. -/
theorem resetLeaves : Obligations.ResetLeaves :=
  ⟨fun _ => rfl, rfl, by decide, by decide, by decide, rfl, rfl, rfl, rfl, rfl, rfl, rfl, by decide, rfl⟩

/-! ## An exchange (R47, R48) -/

/-- Settles O1: each row of an exchange, by the conditions under which it is taken. -/
theorem timeExchangeRuns : Obligations.TimeExchangeRuns := by
  refine ⟨?beacon, ?request, ?response, ?abandon, ?host⟩
  case beacon =>
    intro s p m ha fits port idle
    exact next_live_eq ha (by simp [State.beacon, fits, port, idle, State.updTime]) rfl
  case request =>
    intro s x ha running unsent
    exact next_live_eq ha (by simp only [State.delayRequest, running, unsent]; rfl) rfl
  case response =>
    intro s m x t3 ha running sent fits target seq intime
    exact next_live ha (by simp only [State.delayResponse, running, sent, fits, target, seq, intime]; simp; rfl)
  case abandon =>
    intro s x t3 ha running sent due
    exact next_live_eq ha (by simp only [State.exchangeAbandon, running, sent, due]; rfl) rfl
  case host =>
    intro s v ha source
    exact next_live ha (by simp [State.ftHostCommit, s.hostWrite_runs _ ha, State.ftSource, source])

/-! ## Frame Time at the hub (R43, R44, R49, R508) -/

/-- Settles O2: each row of the hub, by the conditions under which it acts. -/
theorem hubTimeRuns : Obligations.HubTimeRuns := by
  refine ⟨?slew, ?timeout, ?holdover, ?source, ?step, ?word⟩
  case slew =>
    intro s ha slewing running
    have rate : (s.freq - s.applied).natAbs ≠ 0 := by omega
    exact next_live ha (by simp only [State.slewEnd, slewing, rate]; rfl)
  case timeout =>
    intro s ha due
    replace due : ftReached s.time.hub (ftAdd s.time.lastDone (48 * max 1 (s.rdN .FT_BEACON_TIMEOUT 0))) = true := due
    constructor
    · intro acquiring
      exact next_live ha (by simp only [State.beaconTimeout, due, acquiring]; rfl)
    · intro locked
      exact next_live ha (by simp only [State.beaconTimeout, due, locked]; rfl)
  case holdover =>
    intro s ha held due
    replace due : ftReached s.time.hub (ftAdd s.time.since (s.rdN .FT_HOLDOVER_LIMIT 0)) = true := due
    exact next_live ha (by simp only [State.holdoverExpired, held, due]; rfl)
  case source =>
    intro s v ha new
    have small : v.val % 4 = v.val := Nat.mod_eq_of_lt v.isLt
    exact next_live ha (by simp only [State.ftSourceWrite, s.hostWrite_runs _ ha, small, if_neg new]; rfl)
  case step =>
    intro s ha offset
    refine ⟨fun allowed => next_live ha ?_, fun ahead serving => next_live ha ?_⟩
    · have refused : (decide (0 < offset) && s.serving) = false := by
        rcases allowed with behind | idle
        · simp [Int.not_lt.mpr behind]
        · simp [idle]
      simp only [State.stepNow, s.hostWrite_runs _ ha]
      exact if_neg (by rw [refused]; decide)
    · simp only [State.stepNow, s.hostWrite_runs _ ha]
      exact if_pos (by simp only [serving, Bool.and_true]; exact decide_eq_true ahead)
  case word =>
    intro s dt supply
    exact congrArg Host.Outcome.next ((if_pos supply).trans (State.apart_eq rfl rfl))

/-! ## Region clocks and replicas (R30 to R33, R51, R52) -/

section ClockStatus

variable (s : State) (r mhz : Nat)

theorem State.showClock_freq (h : mhz < 2 ^ 12) : (s.showClock r mhz).fget F.RGN_CLK_STATUS_FREQ_MHZ r = mhz := by
  rw [State.showClock, State.fget_fset_other _ F.RGN_CLK_STATUS_STRETCHED F.RGN_CLK_STATUS_FREQ_MHZ _ _ _ rfl (by decide)]
  exact State.fget_fset_self _ F.RGN_CLK_STATUS_FREQ_MHZ _ _ _ (by decide) (by decide) h

theorem State.showClock_stretched :
    (s.showClock r mhz).fget F.RGN_CLK_STATUS_STRETCHED r = if mhz < 1800 then 1 else 0 :=
  State.fget_fset_self _ F.RGN_CLK_STATUS_STRETCHED _ _ _ (by decide) (by decide) (by split <;> decide)

/-- A field of the clock status that shows no frequency stays. -/
theorem State.showClock_other (g : Fld) (reg : F.RGN_CLK_STATUS_FREQ_MHZ.reg = g.reg)
    (freq : F.RGN_CLK_STATUS_FREQ_MHZ.mask &&& g.mask = 0) (stretched : F.RGN_CLK_STATUS_STRETCHED.mask &&& g.mask = 0) :
    (s.showClock r mhz).fget g r = s.fget g r := by
  rw [State.showClock, State.fget_fset_other _ F.RGN_CLK_STATUS_STRETCHED g _ _ _ reg stretched,
    State.fget_fset_other _ F.RGN_CLK_STATUS_FREQ_MHZ g _ _ _ reg freq]

end ClockStatus

/-- Settles O3: each row of a region's clock and replica, by the conditions under which it acts. -/
theorem regionClockRuns : Obligations.RegionClockRuns := by
  refine ⟨?region, ?die, ?resync, ?gate, ?stop, ?restart, ?droop⟩
  case region => exact fun s r ha => next_live ha rfl
  case die => exact fun s q ha => next_live ha rfl
  case resync =>
    intro s r ha pending
    exact next_live_eq ha (by simp only [State.replicaResync, pending]; rfl) rfl
  case gate =>
    intro s r on ha
    exact next_live_eq ha (s.hostWrite_runs _ ha) rfl
  case stop =>
    intro s r ha req running settled quiet
    refine ⟨State.showClock (State.updReplica (s.fset F.RGN_CLK_STATUS_STOPPED 1 r) r fun x =>
      { x with synced := false, track := 0 }) r 0, next_live_eq ha ?_ rfl, ?_, State.showClock_freq _ _ _ (by decide),
      State.showClock_stretched _ _ _, rfl, rfl, rfl, rfl⟩
    · simp only [State.clockStop, req, running, settled, quiet]
      rfl
    · rw [State.showClock_other _ _ _ F.RGN_CLK_STATUS_STOPPED rfl (by decide) (by decide)]
      exact s.fget_fset_self F.RGN_CLK_STATUS_STOPPED 1 r 0 (by decide) (by decide) (by decide)
  case restart =>
    intro s r ha stopped
    refine ⟨State.showClock ((s.fset F.RGN_CLK_STATUS_STOPPED 0 r).fset F.RGN_CLK_STATUS_RESYNC_PENDING 1 r) r 1800,
      next_live_eq ha ?_ rfl, ?_, ?_, State.showClock_freq _ _ _ (by decide), ?_, rfl, rfl⟩
    · simp only [State.clockRestart, stopped]
      rfl
    · rw [State.showClock_other _ _ _ F.RGN_CLK_STATUS_STOPPED rfl (by decide) (by decide),
        State.fget_fset_other _ F.RGN_CLK_STATUS_RESYNC_PENDING F.RGN_CLK_STATUS_STOPPED _ _ _ rfl (by decide)]
      exact s.fget_fset_self F.RGN_CLK_STATUS_STOPPED 0 r 0 (by decide) (by decide) (by decide)
    · rw [State.showClock_other _ _ _ F.RGN_CLK_STATUS_RESYNC_PENDING rfl (by decide) (by decide)]
      exact State.fget_fset_self _ F.RGN_CLK_STATUS_RESYNC_PENDING 1 r 0 (by decide) (by decide) (by decide)
    · have ctrl (f : Fld) (x : Nat) (t : State) (hf : F.RGN_CLK_CTRL_GATE_REQ.reg ≠ f.reg) :
          (t.fset f x r).fget F.RGN_CLK_CTRL_GATE_REQ r = t.fget F.RGN_CLK_CTRL_GATE_REQ r :=
        t.fget_fset_reg f F.RGN_CLK_CTRL_GATE_REQ x r 0 r 0 fun h => hf (congrArg Reg.name h)
      rw [State.showClock, ctrl _ _ _ (by decide), ctrl _ _ _ (by decide), ctrl _ _ _ (by decide), ctrl _ _ _ (by decide)]
  case droop =>
    intro s r mhz ha running
    have shown : s.supplyDroop r mhz = if mhz < 1200 then s.raise { source := 0x21, bed := s.bedOfRegion r, location := r }
        else s.showClock r (min mhz 1800) := by
      rw [State.supplyDroop, running]
      rfl
    refine ⟨fun low high => ⟨s.showClock r mhz, next_live_eq ha ?_ rfl, State.showClock_freq _ _ _ (by omega),
      State.showClock_stretched _ _ _, rfl, rfl, rfl⟩, fun beyond => next_live ha ?_⟩
    · rw [shown, if_neg (by omega), Nat.min_eq_left high]
    · rw [shown, if_pos beyond]

end Sys2Proof.Machine
end

section
/-! Register accesses of the host (R11 to R14, R82): what each row reads, writes and leaves. -/

namespace Sys2Proof.Machine

/-- A register whose value is not open is shown without a change of the state. -/
theorem State.shown_state (s : State) (r : Reg) (h : s.freeView r = false) : (s.shown r).2 = s := by
  unfold State.shown
  rw [h]
  cases s.view r <;> rfl

/-! ## Pairs (R12) -/

theorem State.readReg_of_upper (s : State) (fn : Nat) {r : Reg} {up : RN} (clear : Bool) (hup : r.name.upper = some up)
    (hlow : s.freeView r = false) (hhigh : s.freeView { r with name := up } = false) :
    s.readReg fn r clear = (s.setLatch ⟨fn, r⟩ (some (s.shown { r with name := up }).1)).answerRead (s.shown r).1 := by
  simp only [State.readReg, hup, s.shown_state r hlow, s.shown_state _ hhigh]

theorem State.latched_setLatch (s : State) (k : PairKey) (v : Option W32) : (s.setLatch k v).latched k = v := by
  cases v with
  | some w => simp [State.latched, State.setLatch]
  | none => simp [State.latched, State.setLatch, List.find?_filter]

theorem State.heldHalf_setHeld (s : State) (k : PairKey) (v : Option W32) : (s.setHeld k v).heldHalf k = v := by
  cases v with
  | some w => simp [State.heldHalf, State.setHeld]
  | none => simp [State.heldHalf, State.setHeld, List.find?_filter]

/-- The lower register of a pair is another one than its upper register. -/
theorem RN.lower_ne {n low : RN} (h : n.lower = some low) : low ≠ n := by
  have each : ∀ n : RN, (n.lower.all fun low => decide (low ≠ n)) = true := by
    intro n
    cases n <;> rfl
  simpa [h] using each n

/-- A 64-bit value that is put together from two words is written word by word. -/
theorem State.wr64_pair (s : State) (lo hi : RN) (l h : W32) (i k : Nat) :
    s.wr64 lo hi (l.toNat + 2 ^ 32 * h.toNat) i k = (s.wr ⟨lo, i, k⟩ l).wr ⟨hi, i, k⟩ h := by
  have low : BitVec.ofNat 32 (l.toNat + 2 ^ 32 * h.toNat) = l := BitVec.eq_of_toNat_eq (by rw [BitVec.toNat_ofNat]; omega)
  have high : BitVec.ofNat 32 ((l.toNat + 2 ^ 32 * h.toNat) / 2 ^ 32) = h :=
    BitVec.eq_of_toNat_eq (by rw [BitVec.toNat_ofNat]; omega)
  rw [State.wr64, State.wrN, State.wrN, low, high]

/-- A pair without a rule of its own takes both halves. -/
theorem State.commitPair_of_plain (s : State) (lo : Reg) (hi : RN) (v : Nat) (hhost : lo.name ≠ .FT_HOST_LO) (htrc : lo.name ≠ .TRC_BASE_LO) :
    s.commitPair lo hi v = s.wr64 lo.name hi v lo.inst lo.idx := by
  unfold State.commitPair
  split
  · exact absurd ‹_› hhost
  · exact absurd ‹_› htrc
  · rfl

/-! ## What a host access of an active device reaches -/

section Reached

variable {s : State} {a : Access32} {l : Loc} {r : Reg} (ha : s.active = true) (hadm : s.admits a = true)
include ha hadm

theorem State.writeTo_of_active : s.writeTo a = s.locate a := by
  simp [State.writeTo, s.active_safe ha, hadm]

theorem State.regRead_of_active (hloc : s.locate a = .reg r) : s.regRead a = s.readReg a.fn r true := by
  simp [State.regRead, s.active_safe ha, hadm, hloc]

end Reached

/-- Settles O4: a host access of an active device reaches its register, and the row does there what its class of field says. -/
theorem registerAccessRuns : Obligations.RegisterAccessRuns := by
  refine ⟨?lowerRead, ?lowerWrite, ?upperWrite, ?rcRead, ?w1c, ?enable, ?plain, ?nothing⟩
  case lowerRead =>
    intro s a r up ha hadm hloc hup hlow hhigh
    have read := (State.regRead_of_active ha hadm hloc).trans (s.readReg_of_upper a.fn true hup hlow hhigh)
    exact ⟨_, next_awake_eq ha read rfl, rfl, s.latched_setLatch ⟨a.fn, r⟩ (some _), rfl, rfl, rfl⟩
  case lowerWrite =>
    intro s a v r ha hadm hloc hup hmask
    have held : s.pairLowerWrite a v = s.setHeld ⟨a.fn, r⟩ (some v) := by
      simp only [State.pairLowerWrite, State.writeTo_of_active ha hadm, hloc]
      exact if_pos (by simpa [hup] using hmask)
    exact ⟨_, next_awake_eq ha held rfl, s.heldHalf_setHeld _ _, rfl, rfl, rfl⟩
  case upperWrite =>
    intro s a v r low ha hadm hloc hlow hmask hhost htrc key
    have put : s.pairUpperWrite a v =
        ((s.setHeld key none).wr { r with name := low } ((s.heldHalf key).getD (s.rd { r with name := low }))).wr r v := by
      simp only [State.pairUpperWrite, State.writeTo_of_active ha hadm, hloc, hlow]
      exact (if_neg hmask).trans ((State.commitPair_of_plain _ _ _ _ hhost htrc).trans (State.wr64_pair _ _ _ _ _ _ _))
    have apart : (⟨low, r.inst, r.idx⟩ : Reg) ≠ r := fun h => RN.lower_ne hlow (congrArg Reg.name h)
    exact ⟨_, next_awake_eq ha put rfl, State.rd_wr_self _ r v, (State.rd_wr_other _ v apart).trans (State.rd_wr_self _ _ _),
      s.heldHalf_setHeld key none, fun q hq hq' =>
        (State.rd_wr_other _ v hq).trans (State.rd_wr_other _ _ hq'), rfl, rfl⟩
  case rcRead =>
    intro s a hw r ha hadm hloc _ _ hrc hopen
    have read := State.rcRead_of_reg ha hadm hloc hrc hw
    rw [s.readReg_of_rcMask a.fn r hrc, s.shown_state r hopen] at read
    have after := State.rd_rcRead ha hadm hloc hrc hw
    refine ⟨s.rcRead a hw, next_awake_eq ha rfl (by rw [read]; rfl), State.rcRead_readData ha hadm hloc hrc hw,
      (after r).trans (if_pos rfl), fun q hq => (after q).trans (if_neg hq), by rw [read]; rfl, by rw [read]; rfl⟩
  case w1c =>
    intro s a v hw r ha hadm hloc hmask
    exact next_awake ha (by simp only [State.w1cWrite, State.writeTo_of_active ha hadm, hloc]; exact if_neg hmask)
  case enable =>
    intro s a v r st ha hadm hloc hgov
    exact next_awake ha (by simp only [State.intEnableWrite, State.writeTo_of_active ha hadm, hloc, hgov])
  case plain =>
    intro s a v r ha hadm hloc hmask hclass hring
    refine next_awake_eq ha ?_ rfl
    have settled (t : State) (old : W32) : t.afterWrite r old = t := by
      simp only [State.afterWrite, hclass]
      exact if_neg (by simpa using hring)
    simp only [State.registerWrite, State.writeTo_of_active ha hadm, hloc, State.plainWrite, settled]
    exact if_neg hmask
  case nothing =>
    intro s a v ha hadm hloc
    exact next_awake_eq ha (by simp only [State.registerWrite, State.writeTo_of_active ha hadm, hloc]) rfl

end Sys2Proof.Machine
end

section
/-! The rows of the interface, its rings and mailboxes, and of the keep store (R72 to R89, R326). -/

namespace Sys2Proof.Machine

/-! ## Interface and rings (R72, R75, R77, R79) -/

/-- Of a function without rings no ring stops. -/
theorem State.filter_rings_nil {s : State} {fn : Nat} (p : Ring → Bool) (h : (s.host.rings.any fun q => q.fn == fn) = false) :
    (s.host.rings.filter fun q => q.fn == fn && p q) = [] := by
  rw [List.filter_eq_nil_iff]
  intro q hq
  simp [List.any_eq_false.mp h q hq]

/-- IF_CLOSE of a function without rings completes at once where no other close waits (R77). -/
theorem State.ifClose_of_idle (s : State) (d : Desc) (hrings : (s.host.rings.any fun q => q.fn == dFn d) = false)
    (hclosing : s.host.closing = []) : s.ifClose d = (s.wrN .IF_STATE 0 (dFn d)).complete d St.ok := by
  have none : (s.host.rings.filter fun q => q.fn == dFn d && s.ringState (dFn d) q.idx == 1) = [] :=
    State.filter_rings_nil (fun q => s.ringState (dFn d) q.idx == 1) hrings
  have back : { s.host with closing := [] } = s.host := by rw [← hclosing]
  unfold State.ifClose
  simp only [none, List.foldl_nil, hclosing, State.closeDone, hrings, List.nil_append]
  simp [back]

/-- Settles O5: the success path of each row of the interface. -/
theorem interfaceCommandsRun : Obligations.InterfaceCommandsRun := by
  refine ⟨?opened, ?close, ?create, ?destroy, ?drain, ?nop⟩
  case opened =>
    intro s d major minor rest hm beds tdi idle common
    refine next_command hm ?_
    have absent : ((dBed d).any fun b => !(s.start d).bedConfigured b) = false := by
      cases hb : dBed d <;> simp_all
    simp only [State.ifOpen, absent, tdi, idle, common]
    rfl
  case close =>
    intro s d hm rings closing
    exact next_command hm ((s.start d).ifClose_of_idle d rings closing)
  case create =>
    intro s d hm small new
    exact next_command hm (by simp only [State.ringCreate, if_neg (Nat.not_le.mpr small), new]; rfl)
  case destroy =>
    intro s d hm known active
    exact next_command hm (by simp only [State.ringDestroy, known, active]; rfl)
  case drain =>
    intro s fn r q ha known draining empty
    exact next_live ha (by simp only [State.ringDrain, known, draining, empty]; rfl)
  case nop => exact fun s d hm => next_command hm rfl

/-! ## The command engine and the keep store (R73, R76, R78, R81, R88, R326) -/

/-- The end of a function's traces changes the trace alone. -/
theorem State.endTrace_obs (s : State) (fn : Nat) : ∃ o, s.endTrace fn = { s with obs := o } := by
  unfold State.endTrace
  split
  · exact ⟨s.obs, rfl⟩
  · exact ⟨_, rfl⟩

/-- Settles O6: each row of the command engine, by the conditions under which it acts. -/
theorem commandEngineRuns : Obligations.CommandEngineRuns := by
  refine ⟨?journal, ?mailbox, ?doorbell, ?fetch, ?delay, ?flr, ?keep⟩
  case journal =>
    intro s d f gap n hm held
    exact next_command hm (by simp only [State.journalRead, held])
  case mailbox =>
    intro s fn m ha idle bytes d gate
    refine next_awake_eq ha ?_ rfl
    have taken : (s.fset F.MB_STATUS_BUSY 1 fn m).take d = { s.fset F.MB_STATUS_BUSY 1 fn m with
        host := { s.host with inflight := s.host.inflight ++ [{ desc := d }] } } := by
      simp only [State.take, gate]
      rfl
    exact (s.hostWrite_runs _ ha).trans ((if_neg idle).trans taken)
  case doorbell =>
    intro s fn r v ha active
    exact next_awake_eq ha ((s.hostWrite_runs _ ha).trans (if_pos active)) rfl
  case fetch =>
    intro s fn r q ha known ready
    exact next_live ha (by simp only [State.descriptorFetch, known, ready]; rfl)
  case delay =>
    intro s fn r q ha known pending delay due
    have signalled : s.ringIrqDelay fn r = s.ringSignal fn r := by
      simp only [State.ringIrqDelay, known, due, s.active_safe ha]
      exact if_pos (by simp [pending, delay])
    exact ⟨_, next_live_eq ha signalled rfl, rfl, rfl, rfl, rfl⟩
  case flr =>
    intro s fn hp
    obtain ⟨o, ended⟩ := State.endTrace_obs _ fn
    refine ⟨_, congrArg Host.Outcome.next (State.awake_eq hp (ended : s.functionReset fn = _) rfl), rfl, rfl, rfl, rfl, rfl, rfl⟩
  case keep =>
    intro s ha ready waiting
    have some' : s.keep.queue.isEmpty = false := by simpa using waiting
    exact next_awake ha (by simp only [State.keepProgram, ready, s.active_safe ha]; simp [some'])

end Sys2Proof.Machine
end

section
/-! The rows of sessions that a Bed or the host issues (R94 to R117, R513, R514). -/

namespace Sys2Proof.Machine

/-- Settles O7: each command about one session, by the state of its entry. -/
theorem sessionCommandsRun : Obligations.SessionCommandsRun := by
  refine ⟨?open', ?close, ?pause, ?resume, ?park, ?cut⟩
  case open' =>
    rintro s u d home hm rfl new unasked profile furrow dir live known
    refine next_command hm ?_
    have profile' : ((s.start d).profile? (State.cmdBed d) (dArg d 48 2)).isNone = false := by
      rw [Option.isNone_eq_false_iff]; exact profile
    simp only [State.sesOpen, new, unasked, profile', furrow, dir, live, known]
    rfl
  case close =>
    rintro s u d e hm rfl held
    refine ⟨fun live => next_command hm ?_, fun hlive hclosed => next_command hm ?_⟩
    · simp only [State.sesClose, held, live]
    · simp only [State.sesClose, held]
  case pause =>
    rintro s u d e hm rfl held live
    exact next_command hm (by simp only [State.sesPause, held, live]; rfl)
  case resume =>
    rintro s u t d o e hm rfl owned held hlive hclosed kept quota own woken
    refine next_command hm ?_
    have still : (e.state == .live || e.state == .closed) = false := by simp [hlive, hclosed]
    simp only [State.sesResume, owned, held, still, quota, kept]
    simp [own, woken]
  case park =>
    rintro s u t d e hm rfl held tier
    refine ⟨fun live => next_command hm ?_, fun paused idle still down => next_command hm ?_⟩
    · rcases tier with h | h <;> simp [State.sesPark, held, live, h, tierOf]
    · rcases tier with h | h <;> simp only [h] at down ⊢ <;>
        simp [State.sesPark, held, paused, tierOf, tierNum, State.copyWaits, idle, still, State.parkNow, down, h]
  case cut =>
    rintro s u d e hm rfl held
    exact ⟨fun live => next_command hm (by simp only [State.sesCut, held, live]),
      fun paused => next_command hm (by simp only [State.sesCut, held, paused, State.cutNow])⟩

/-- Settles O8: each command that reaches further than a session. -/
theorem sessionPlacementRuns : Obligations.SessionPlacementRuns := by
  refine ⟨?move, ?accept, ?query, ?limit, ?map⟩
  case move =>
    rintro s u d e hm rfl held mapped
    have mapped' : (s.start d).ses.map.isNone = false := by rw [Option.isNone_eq_false_iff]; exact mapped
    refine ⟨fun live => next_command hm ?_, fun paused still idle covered => next_command hm ?_⟩
    · simp only [State.sesMove, held, mapped', live]
      rfl
    · simp only [State.sesMove, held, mapped', paused, State.copyWaits, idle, still, covered]
      rfl
  case accept =>
    rintro s u d hm rfl
    exact next_command hm rfl
  case query =>
    rintro s u d home hm rfl copied known away
    refine next_command hm ?_
    unfold State.sesQuery
    extract_lets e bs t
    have known' : t.homeOf d.target = some home := known
    rw [known']
    exact if_neg away
  case limit =>
    rintro s u d hm rfl bed kind side ready
    refine next_command hm ?_
    have fits : (decide (5 < dArg d 48 1) || decide (dArg d 48 1 < 2) != (dFn d == 0)) = false := by
      rw [side]
      simp [kind]
    simp only [State.sesSetLimit, bed, fits, State.submitCmd_ready _ _ _ _ ready]
    rfl
  case map =>
    rintro s u d m hm rfl parsed newer ready
    refine next_command hm ?_
    have unlike : ((s.start d).ses.map.any fun h => h.version == m.version && h.table == (s.start d).buf0 d) = false := by
      cases hmap : (s.start d).ses.map with
      | none => rfl
      | some h =>
        have differ : h.version ≠ m.version := fun same => by
          simp only [State.heldVersion, hmap, same, Nat.lt_irrefl] at newer
        simp [differ]
    simp only [State.sesMapLoad, parsed, unlike, State.submitCmd_ready _ _ _ _ ready]
    exact (if_neg Bool.false_ne_true).trans (if_neg (Nat.not_le.mpr newer))

end Sys2Proof.Machine
end

section
/-! The messages and the timers of ownership (R94 to R117, R294). -/

namespace Sys2Proof.Machine

/-! ## A message under the held map (R94) -/

section Message

variable {s : State} {m : OwnMsg} (hver : m.mapVersion = (s.msgReach m).heldVersion)
include hver

/-- A message of the held map version is taken. -/
theorem State.ownIn_runs (f : State → State) : s.ownIn m f = f (s.msgReach m) :=
  if_pos (beq_iff_eq.mpr hver)

/-- The home of a message's session takes it. -/
theorem State.homeIn_runs (hserves : (s.msgReach m).servesHome m.sid = true) (f : State → State) :
    s.homeIn m f = f (s.msgReach m) :=
  (State.ownIn_runs hver _).trans (if_pos hserves)

end Message

/-- A message that names no session reaches no directory row (R95, R102). -/
theorem State.msgReach_of_no_session (s : State) {m : OwnMsg} (h : m.sid = 0) : s.msgReach m = s := if_pos h

/-! ## The home (R99, R103, R105, R107, R109) -/

/-- Settles O9: each message that a home takes about a session that it serves. -/
theorem homeMessagesRun : Obligations.HomeMessagesRun := by
  refine ⟨?claimNew, ?claim, ?query, ?renew, ?append, ?drop, ?close⟩
  case claimNew =>
    rintro s u t m ha rfl ver serves fresh new made
    refine next_live ha ?_
    simp only [State.claim, State.homeIn_runs ver serves, fresh, new, Bool.true_or, if_true, made]
  case claim =>
    rintro s u m r ha rfl ver serves known plain held node epoch limit moved kept
    refine next_live ha ?_
    obtain ⟨⟨hnew, hrebuild⟩, hrevive⟩ : (m.flagNew = false ∧ m.flagRebuild = false) ∧ m.flagRevive = false := by
      simpa using plain
    have stays : (r.isOwner && r.state == .dropped && m.sender != (s.msgReach m).node) = false := by rw [kept]; rfl
    simp only [State.claim, State.homeIn_runs ver serves, known, hnew, hrebuild, hrevive, held, node, epoch, stays, beq_self_eq_true]
    simp [limit, moved]
  case query =>
    rintro s u m r ha rfl ver serves known
    exact next_live ha (by simp only [State.query, State.homeIn_runs ver serves, known, State.answerOf])
  case renew =>
    rintro s u m ha rfl ver
    exact next_live ha (State.ownIn_runs ver _)
  case append =>
    rintro s u m r ha rfl ver serves known
    refine ⟨fun fits => next_live ha ?_, fun unfit => next_live ha ?_⟩
    · simp only [State.trxAppendIn, State.homeIn_runs ver serves, known, fits, if_true]
    · simp only [State.trxAppendIn, State.homeIn_runs ver serves, known, unfit, State.refuseOwn]
      rfl
  case drop =>
    rintro s u m r r' ha rfl ver serves known fits held away dropped after
    refine next_live ha ?_
    have marked : (if (homeState r == .held && !r.isOwner) = true then (s.msgReach m).setRecord m.sid .dropped r.recNode r.recEpoch
        else s.msgReach m) = (s.msgReach m).setRecord m.sid .dropped r.recNode r.recEpoch := if_pos (by rw [held, away]; rfl)
    simp only [State.dropNote, State.homeIn_runs ver serves, known, fits, marked]
    rw [show State.record? _ m.sid = some r' from after]
    rfl
  case close =>
    rintro s u m r r' ha rfl ver serves known fits closed after
    refine next_live ha ?_
    simp only [State.closeNote, State.homeIn_runs ver serves, known, fits]
    rw [show State.record? _ m.sid = some r' from after]
    rfl

/-! ## The owner (R99, R104, R105, R108, R109) -/

/-- Settles O10: each message that an owner takes, by what its entry waits for. -/
theorem ownerMessagesRun : Obligations.OwnerMessagesRun := by
  refine ⟨?offer, ?confirm, ?refuse, ?answer, ?renewAck, ?trxAck⟩
  case offer =>
    rintro s u t v m bed x e ha rfl ver armed image unowned dir live profile nofur rfl new entered
    refine next_live ha ?_
    have room : (x.state == .live && !(s.msgReach m).liveQuotaOk bed) = false := by
      rcases live with h | h <;> simp [h]
    have profile' : ((s.msgReach m).profile? bed x.profile).isNone = false := by
      rw [Option.isNone_eq_false_iff]; exact profile
    simp only [State.offer, State.ownIn_runs ver, armed, image, unowned, dir, room, profile', nofur]
    rw [new]
    simp only [entered]
    rfl
  case confirm =>
    rintro s r u m e ha rfl ver rfl nowait unstaged owned
    refine ⟨fun awaits node epoch => next_live ha ?_, fun offered node epoch => next_live ha ?_⟩
    · simp only [State.confirm, State.ownIn_runs ver, nowait, unstaged, owned, awaits]
      simp [node, epoch]
    · simp only [State.confirm, State.ownIn_runs ver, nowait, unstaged, owned, offered]
      simp [node, epoch]
  case refuse =>
    intro s m ha code
    exact next_live_eq ha (if_pos (beq_iff_eq.mpr code)) rfl
  case answer =>
    rintro s r u m e ha rfl ver rfl unnoted owned doubt code node epoch
    refine next_live ha ?_
    simp only [State.answer, State.ownIn_runs ver, unnoted, owned, State.decide, doubt]
    exact if_pos (by simp only [Bool.true_and, Bool.and_eq_true, beq_iff_eq]; exact ⟨⟨code, node⟩, epoch⟩)
  case renewAck =>
    intro s m x ha nosid ver sent norebuild
    have reach := s.msgReach_of_no_session nosid
    refine next_live_eq ha ?_ rfl
    unfold State.renewAck
    rw [State.ownIn_runs (by rw [reach]; exact ver), reach, sent, norebuild]
    rfl
  case trxAck =>
    rintro s r u m e ha rfl ver rfl owned
    refine next_live ha ?_
    simp only [State.trxAck, State.ownIn_runs ver, owned]

/-! ## Transfers (R94, R110) -/

/-- Settles O11: each message and timer of a transfer. -/
theorem transferMessagesRun : Obligations.TransferMessagesRun := by
  refine ⟨?xfer, ?xferEnd, ?fetch, ?data, ?resend, ?timeout⟩
  case xfer =>
    rintro s u t m x ha rfl ver image home new added
    refine next_live ha ?_
    simp only [State.homeXfer, State.ownIn_runs ver, image, home, new]
    rw [added]
    rfl
  case xferEnd =>
    intro s m ha nosid ver
    have reach := s.msgReach_of_no_session nosid
    exact next_live_eq ha ((State.ownIn_runs (by rw [reach]; exact ver) _).trans (by rw [reach])) rfl
  case fetch =>
    rintro s u m t ha rfl ver serves kept short
    refine next_live ha ?_
    have one : (t.tokens.length - m.position) / 64 + 1 = 1 := by omega
    simp [State.trxFetch, State.homeIn_runs ver serves, kept, one]
  case data =>
    rintro s v u m r e ha rfl ver away rfl waits owned dropped full
    refine next_live ha ?_
    simp only [State.trxData, State.ownIn_runs ver, away, waits, owned]
    simp [dropped, full]
  case resend =>
    intro s bucket x ha due
    refine next_live ha ?_
    simp only [State.homeXferResend, due, List.foldl_cons, List.foldl_nil]
  case timeout =>
    intro s bucket x ha awaited due
    exact next_live_eq ha (by simp only [State.homeXferTimeout, awaited, due, if_true]) rfl

/-! ## Timers of ownership (R99, R105, R107, R108, R112, R117) -/

/-- Settles O12: each timer of ownership that is due. -/
theorem leaseTimersRun : Obligations.LeaseTimersRun := by
  refine ⟨?note, ?query, ?renew, ?guard, ?expiry, ?unreachable, ?rebuild⟩
  case note =>
    intro s sid n ha due
    exact next_live ha (by simp only [State.noteResend, due])
  case query =>
    intro s sid e ha owned doubt due
    refine next_live ha ?_
    simp only [State.ownershipQuery, owned, doubt]
    cases asked : s.ses.queries.find? fun q => q.1 == sid with
    | none => rfl
    | some q => simp [due q asked]
  case renew =>
    intro s home ha some' due
    have some'' : (s.ownedUnder home).isEmpty = false := by simpa using some'
    exact next_live ha (by simp only [State.renewSend, some'', due]; rfl)
  case guard =>
    intro s home x ha acked due
    exact next_live ha (by simp only [State.leaseGuard, acked, due, if_true])
  case expiry =>
    intro s owner x ha seen due es doubted
    exact next_live ha (by simp only [State.leaseExpiry, seen, due, if_true]; rfl)
  case unreachable =>
    intro s sid w ha waits query
    exact next_live ha (by simp only [State.homeUnreachable, waits, query]; rfl)
  case rebuild =>
    intro s t ha until' due
    exact next_live ha (by simp only [State.rebuildEnd, until', due, if_true])

/-! ## Times-to-live (R98, R294) -/

/-- Settles O13: each time-to-live that is due. -/
theorem timeToLiveRuns : Obligations.TimeToLiveRuns := by
  refine ⟨?paused, ?cxl, ?mulch, ?dropped, ?tombstone⟩
  case paused =>
    intro s t sid e ha due shown down
    refine next_live ha ?_
    simp only [State.ttlPaused, due]
    split
    next t' found => rw [Option.some.inj (found.symm.trans down)]
    next failed => exact absurd (failed.symm.trans down) (Option.some_ne_none t).symm
  case cxl =>
    intro s sid e ha due shown nosink
    refine next_live ha ?_
    simp only [State.ttlCxl, due]
    exact if_neg (by rw [nosink]; exact Bool.false_ne_true)
  case mulch =>
    intro s sid e ha due
    exact next_live ha (by simp only [State.ttlMulch, due])
  case dropped =>
    intro s sid e ha due
    exact next_live ha (by simp only [State.ttlDropped, due])
  case tombstone =>
    intro s sid e ha known home unowned closed due
    exact next_live ha (by simp only [State.tombstone, known, home, unowned, closed, due]; rfl)

end Sys2Proof.Machine
end

section
/-! The rows of profiles, slots, step boundaries, layer exchange and Grafts (R122 to R196). -/

namespace Sys2Proof.Machine

/-! ## Scheduling (R122, R125, R127, R138) -/

/-- A profile is found under its Bed and its id. -/
theorem State.profile?_key {s : State} {bed id : Nat} {p : Profile} (h : s.profile? bed id = some p) : p.bed = bed ∧ p.id = id := by
  have found := List.find?_some h
  simpa using found

/-- Settles O14: each row of profiles and slots on its success path, and the boundary that is due. -/
theorem schedulingRuns : Obligations.SchedulingRuns := by
  refine ⟨?load, ?unload, ?read, ?set, ?boundary, ?late⟩
  case load =>
    rintro s u d hm rfl unrefused ready
    exact next_command hm (by simp only [State.profileLoad, unrefused, State.submitCmd_ready _ _ _ _ ready])
  case unload =>
    rintro s u d p hm rfl known unnamed ready
    exact next_command hm (by simp only [State.profileUnload, known, unnamed, State.submitCmd_ready _ _ _ _ ready]; rfl)
  case read =>
    rintro s u d t hm rfl target
    exact next_command hm (by simp only [State.slotRead, target])
  case set =>
    rintro s u d t e hm rfl target held
    refine ⟨fun kind => next_command hm ?_, fun kind => next_command hm ?_, fun kind => next_command hm ?_⟩
    · simp only [State.setSeq, target, held, kind]
    · cases profile : (s.start d).profile? e.bed e.profile <;> simp only [State.setSeq, target, held, kind, profile]
    · simp only [State.setSeq, target, held, kind]
  case boundary =>
    intro s bed pid p q f b ha known latest turn nolag rs lag counted working uncut changed after
    refine next_live ha ?_
    obtain ⟨hbed, hid⟩ := State.profile?_key known
    simp only [State.stepBoundary, known, latest, turn, if_true]
    unfold State.raiseBoundary
    rw [nolag, hbed, hid]
    extract_lets bd rs' back lag' s1 s2 s3 s4 plain
    have hs3 : s3 = s2 := by
      simp only [s3]
      rw [show s2.ckPart? bd = none from uncut]
    have hs4 : s4 = changed := by
      simp only [s4, hs3]
      rfl
    have hplain : plain = rs := List.filter_eq_self.mpr fun _ _ => rfl
    refine (if_neg (Bool.eq_false_iff.mp working)).trans ?_
    rw [hs4, show changed.profile? bd pid.toNat = some q from after, hplain]
    rfl
  case late =>
    intro s bed pid p r n f ha known early late
    exact next_live ha (by simp only [State.stepBoundary, known, early, late])

/-! ## Layer exchange -/

/-- Settles O15: each row of an entry's layers, logits and end, by the conditions under which it is taken. -/
theorem layerExchangeRuns : Obligations.LayerExchangeRuns := by
  refine ⟨?layer, ?return', ?logits, ?abandon, ?sampling, ?chunk⟩
  case layer =>
    intro s h payload w p ha checked order graft length whole inner counted here
    refine next_live ha ?_
    have untraced : ¬ (decide (h.layer = 0) && decide (h.first = 0)) = true := by simp [Nat.ne_of_gt inner]
    unfold State.lxLayer
    rw [checked]
    refine (if_neg (by rw [order]; decide)).trans ((if_neg (by simp [graft, length, whole])).trans ?_)
    extract_lets s2 here' part part' s3
    have hs2 : s2 = counted := if_neg untraced
    have hhere : here' = true := by rw [← here, ← hs2]
    have hpart : part' = part := by
      simp only [part', hhere]
      rfl
    rw [if_pos hhere]
    simp only [s3, hpart, hs2]
  case return' =>
    intro s sid w p x ha known profile ready
    exact next_live ha (by simp only [State.lxReturn, known, profile, ready])
  case logits =>
    intro s h payload w p t recs ha checked order table whole parsed
    refine next_live ha ?_
    simp only [State.lxLogits, checked, order, table, whole, parsed]
    rfl
  case abandon =>
    intro s sid w p ha known profile due
    exact next_live ha (by simp only [State.entryAbandon, known, profile, due, if_true])
  case sampling =>
    intro s sid w p e ha known owned profile sampling undone turn
    refine ⟨fun decode => next_live ha ?_, fun final => next_live ha ?_⟩
    · simp only [State.entrySampling, known, owned, profile, sampling, undone, turn, decode]
      rfl
    · simp only [State.entrySampling, known, owned, profile, sampling, undone, turn, final]
      rfl
  case chunk =>
    intro s sid w p ha known profile kind done empty
    exact next_live ha (by simp only [State.chunkComplete, known, profile, kind, done, empty]; rfl)

/-! ## Grafts and partner groups -/

/-- A load with near memory is submitted where the keep store is ready (R88). -/
theorem State.submitLoad_ready {s : State} (t : State) (d : Desc) (j : JEntry) (bs : List Byte) (near : List Nat) (area : Option Nat)
    (h : s.keep.ready = true) : s.submitLoad d j bs (some (near, area, t)) = t.submit { journal := [j], eff := .load d bs near area } :=
  if_pos h

/-- GRAFT_LOAD of an accepted table takes its near memory and is submitted. -/
theorem State.graftLoad_accepted {u t : State} {d : Desc} {near : List Nat} {area : Option Nat} (ready : u.keep.ready = true)
    (verdict : u.graftVerdict ((dBed d).getD 0) (u.buf0 d) = .accept)
    (taken : u.takeWhole ((dBed d).getD 0) (u.buf0 d).length = some (near, area, t)) :
    u.graftLoad d = t.submit
      { journal := [u.graftEntry d ((dBed d).getD 0) 0 (graftTabId (u.buf0 d)) (graftTabVersion (u.buf0 d))
          (u.graftDigest ((dBed d).getD 0) (graftTabId (u.buf0 d))) (digest128 (u.buf0 d)) false]
        eff := .load d (u.buf0 d) near area } := by
  unfold State.graftLoad
  extract_lets bed bs id e
  rw [show u.graftVerdict bed bs = .accept from verdict, show u.takeWhole bed bs.length = some (near, area, t) from taken]
  exact State.submitLoad_ready _ _ _ _ _ _ ready

/-- Settles O16: each command of Grafts and partner groups on its success path. -/
theorem graftCommandsRun : Obligations.GraftCommandsRun := by
  refine ⟨?load, ?drop, ?stow, ?bind, ?group, ?quota, ?query, ?resident⟩
  case load =>
    rintro s u t d near area hm rfl ready verdict taken
    exact next_command hm (State.graftLoad_accepted ready verdict taken)
  case drop =>
    rintro s u d g hm rfl ready known
    exact next_command hm (by simp only [State.graftDrop, known, State.submitCmd_ready _ _ _ _ ready])
  case stow =>
    rintro s u t d g hm rfl known still unstowed elsewhere tier
    have low : ¬ 2 < dArg d 50 1 := by omega
    have away : ¬ dArg d 50 1 = 0 := by omega
    refine ⟨fun bound => next_command hm ?_, fun unbound stowed => next_command hm ?_⟩
    · simp only [State.graftStow, known, still, unstowed, if_neg low, if_neg away, if_neg elsewhere]
      exact (if_neg Bool.false_ne_true).trans (if_pos (bne_iff_ne.mpr bound))
    · simp only [State.graftStow, known, still, unstowed, if_neg low, if_neg away, if_neg elsewhere, unbound, stowed]
      rfl
  case bind =>
    rintro s u d sid e hm rfl target held new
    refine ⟨fun noslot => next_command hm ?_, fun t slot unchanged => next_command hm ?_⟩
    · simp only [State.graftBind, target, held, noslot]
      rfl
    · simp only [State.graftBind, target, held, slot, unchanged]
      rfl
  case group =>
    rintro s u d hm rfl ready small
    refine next_command hm ?_
    simp only [State.groupSet, if_neg (Nat.not_lt.mpr small), State.submitCmd_ready _ _ _ _ ready]
  case quota =>
    rintro s u d hm rfl ready bed
    exact next_command hm (by simp only [State.graftQuota, bed, State.submitCmd_ready _ _ _ _ ready]; rfl)
  case query =>
    rintro s u d g hm rfl known
    exact next_command hm (by simp only [State.graftQuery, known])
  case resident =>
    intro s bed id g ha coming
    exact next_live ha (by simp only [State.graftLayerResident, coming])

end Sys2Proof.Machine
end

section
/-! The rows of pages, text intake and Furrows (R196 to R280). -/

namespace Sys2Proof.Machine

/-- Of a change of the first record of a kind only what it makes of that record counts. -/
theorem updFirst_congr_found {α : Type} {p : α → Bool} {f g : α → α} {a : α} {l : List α} (hfound : l.find? p = some a) (h : f a = g a) :
    updFirst p f l = updFirst p g l := by
  induction l with
  | nil => rfl
  | cons b l ih =>
    rw [List.find?_cons] at hfound
    rw [updFirst, updFirst]
    cases hb : p b with
    | true =>
      rw [hb] at hfound
      rw [Option.some.inj hfound, h]
      rfl
    | false =>
      rw [hb] at hfound
      exact congrArg (b :: ·) (ih hfound)

/-! ## Pages -/

/-- PFX_ENABLE_WRITE that switches an index on where its table has room. -/
theorem State.pfxWrite_on {s t : State} {bed : Nat} {v : W32} {l : List Nat} (off : s.fget F.KV_PFX_CTRL_ENABLE bed = 0)
    (on : F.KV_PFX_CTRL_ENABLE.get v = 1)
    (room : ((s.fset F.KV_PFX_CTRL_LOG2_BUCKETS (F.KV_PFX_CTRL_LOG2_BUCKETS.get v) bed).dropPfxTable bed).takeObject bed
      (((s.fset F.KV_PFX_CTRL_LOG2_BUCKETS (F.KV_PFX_CTRL_LOG2_BUCKETS.get v) bed).dropPfxTable bed).pfxBuckets bed * 512)
      (((s.fset F.KV_PFX_CTRL_LOG2_BUCKETS (F.KV_PFX_CTRL_LOG2_BUCKETS.get v) bed).dropPfxTable bed).bedOrder bed) = some (l, t)) :
    s.pfxWrite bed v = State.fset { t with kv := { t.kv with pfxOn := (bed, l) :: t.kv.pfxOn } } F.KV_PFX_CTRL_ENABLE 1 bed := by
  unfold State.pfxWrite
  extract_lets was on' s1 s2 s3
  have hwas : was = false := by simp only [was, off]; rfl
  have hon : on' = true := by simp only [on', on]; rfl
  have hs1 : s1 = s.fset F.KV_PFX_CTRL_LOG2_BUCKETS (F.KV_PFX_CTRL_LOG2_BUCKETS.get v) bed := by simp only [s1, hwas]; rfl
  refine (if_pos (by rw [hon, hwas]; rfl)).trans ?_
  simp only [s2, hs1, room]
  rfl

/-- Settles O17: each row of pages, by the conditions under which it acts. -/
theorem pageCommandsRun : Obligations.PageCommandsRun := by
  refine ⟨?map, ?unmap, ?set, ?flush, ?query, ?enable, ?copy⟩
  case map =>
    rintro s u t d n hm rfl anywhere mapped
    exact next_command hm (by simp only [State.kvMap, anywhere, if_true, mapped])
  case unmap =>
    rintro s u d hm rfl
    exact next_command hm rfl
  case set =>
    rintro s u d q hm rfl seq
    refine ⟨fun share => next_command hm ?_, fun salt fresh => next_command hm ?_⟩
    · simp only [State.kvSeqSet, seq, share, if_true]
    · simp only [State.kvSeqSet, seq, salt, fresh]
      rfl
  case flush =>
    rintro s u d hm rfl
    exact next_command hm rfl
  case query =>
    rintro s u d q hm rfl seq
    exact ⟨fun absent => next_command hm (by simp only [State.kvPageQuery, seq, absent]),
      fun l leaf => next_command hm (by simp only [State.kvPageQuery, seq, leaf])⟩
  case enable =>
    intro s t bed v l ha off on sized room
    exact next_live ha (State.pfxWrite_on off on room)
  case copy =>
    intro s sid q e m c p dst ha seq owned move idle copy done profile target clean
    refine next_live ha ?_
    have more : ¬ m.doneP < m.pieces := Nat.not_lt.mpr done
    simp only [State.copyPass, seq, owned, move, idle, copy, more, profile, target, clean]
    rfl

/-! ## Text intake -/

/-- A load of an accepted table of a kind that the row takes is submitted in its near memory. -/
theorem State.tableLoad_accepted {u t : State} {d : Desc} {kinds : List Nat} {near : List Nat} {area : Option Nat}
    (kind : kinds.contains (tableKind (u.buf0 d)) = true) (ready : u.keep.ready = true)
    (verdict : u.loadVerdict ((dBed d).getD 0) (tableKind (u.buf0 d)) (u.buf0 d) = .accept)
    (taken : u.takeWhole ((dBed d).getD 0) (u.buf0 d).length = some (near, area, t)) :
    u.tableLoad d kinds = t.submit
      { journal := [u.tableEntry d ((dBed d).getD 0) (tableKind (u.buf0 d)) 0 (tableId (u.buf0 d)) (tableVersion (u.buf0 d))
          (u.tableDigest ((dBed d).getD 0) (tableKind (u.buf0 d)) (tableId (u.buf0 d))) (digest128 (u.buf0 d)) false]
        eff := .load d (u.buf0 d) near area } := by
  unfold State.tableLoad
  extract_lets bed bs kd e
  refine (if_neg (by rw [show kinds.contains kd = true from kind]; decide)).trans ?_
  rw [show u.loadVerdict bed kd bs = .accept from verdict, show u.takeWhole bed bs.length = some (near, area, t) from taken]
  exact State.submitLoad_ready _ _ _ _ _ _ ready

/-- The unload of a table that nothing names is submitted. -/
theorem State.tableUnload_unnamed {u : State} {d : Desc} {kind id : Nat} {t : Table} (busy : Nat) (ready : u.keep.ready = true)
    (known : u.table? ((dBed d).getD 0) kind id = some t) (unnamed : u.tableNamed ((dBed d).getD 0) kind id = false) :
    u.tableUnload d kind id busy = u.submit
      { journal := [u.tableEntry d ((dBed d).getD 0) kind 1 id t.version (digest128 t.bytes) 0 false], eff := .cmd d [] kind } := by
  simp only [State.tableUnload, known, unnamed, State.submitCmd_ready _ _ _ _ ready]
  rfl

/-- Settles O18: each row of text intake on its success path. -/
theorem textIntakeRuns : Obligations.TextIntakeRuns := by
  refine ⟨?submit, ?load, ?unload, ?tokenize, ?chunk⟩
  case submit =>
    rintro s u d sid e hm rfl target held live
    exact next_command hm (by simp only [State.inSubmit, target, held, live])
  case load =>
    rintro s u t d near area hm rfl ready verdict taken entry
    refine ⟨fun low high => next_command hm (State.tableLoad_accepted ?_ ready verdict taken),
      fun grammar => next_command hm (State.tableLoad_accepted ?_ ready verdict taken)⟩
    · have kinds : tableKind ((s.start d).buf0 d) ∈ [1, 2, 3] := by
        simp only [List.mem_cons, List.not_mem_nil, or_false]
        omega
      exact List.contains_iff_mem.mpr kinds
    · rw [grammar]
      rfl
  case unload =>
    rintro s u d kind id t hm rfl ready known unnamed gone
    refine ⟨fun low high hkind hid => next_command hm ?_, fun hkind hid => next_command hm ?_⟩
    · have kinds : kind ∈ [1, 2, 3] := by
        simp only [List.mem_cons, List.not_mem_nil, or_false]
        omega
      rw [State.inTableUnload, hkind, hid, if_pos (List.contains_iff_mem.mpr kinds)]
      exact State.tableUnload_unnamed tableInUse ready known unnamed
    · subst hkind
      rw [State.grammarUnload, hid]
      exact State.tableUnload_unnamed grammarInUse ready known unnamed
  case tokenize =>
    rintro s u d p env t hm rfl profile bound rfl
    exact next_command hm (by simp only [State.inTokenize, profile, bound])
  case chunk =>
    intro s q sid e sq x p bs last ha owned seq waits profile text die begun turn
    have taken : s.tokenizeChunk q sid = s.chunkDoneOf q x p bs last := by
      simp only [State.tokenizeChunk, owned, seq, waits, profile, text, die, begun, turn]
      exact if_neg (by simp)
    exact next_live ha taken

/-! ## Furrows -/

theorem State.updFurrow_congr_found {s : State} {n : Nat} {x : Furrow} {f g : Furrow → Furrow} (known : s.furrow? n = some x)
    (h : f x = g x) : s.updFurrow n f = s.updFurrow n g := by
  rw [State.updFurrow, State.updFurrow, updFirst_congr_found known h]

/-- Settles O19: each row of Furrows, controls and stop strings, by the conditions under which it acts. -/
theorem furrowCommandsRun : Obligations.FurrowCommandsRun := by
  refine ⟨?create, ?destroy, ?set, ?head, ?drain, ?delay⟩
  case create =>
    rintro s u d hm rfl new low high
    refine next_command hm ?_
    have size : max 4 (min 16 (dArg d 50 1)) = dArg d 50 1 := by omega
    simp only [State.furCreate, new, size]
    rfl
  case destroy =>
    rintro s u d f hm rfl known mine unnamed
    refine next_command hm ?_
    have free : (f.bed != (dBed d).getD 0 || (s.start d).ses.entries.any fun e =>
        e.isOwner && e.bed == (dBed d).getD 0 && e.furrow == some f.num) = false := by rw [unnamed, mine]; simp
    simp only [State.furDestroy, known, free]
    rfl
  case set =>
    rintro s u d sid e hm rfl target held
    refine ⟨fun old ctl kind field => next_command hm ?_, next_command hm ?_⟩
    · simp only [State.smpSet, State.onSession, target, held, field]
      exact if_neg (by simp [kind])
    · simp only [State.stopSet, State.onSession, target, held]
  case head =>
    intro s bed v f ha known mine fits
    refine next_live ha ?_
    simp only [State.furrowHead, known, Option.filter, mine, beq_self_eq_true, if_true]
    exact State.updFurrow_congr_found known (if_pos fits)
  case drain =>
    intro s u sid f f' c c' e ha fur ctx alive hu fur' ctx' owned
    refine ⟨fun more idle => next_live ha ?_, fun v empty unpaused count room hv idle => next_live ha ?_⟩
    · have some' : c'.backlog.isEmpty = false := by simpa using more
      simp only [State.backlogDrain, fur, ctx, alive, ← hu, fur', ctx', owned, some', Bool.false_and, Bool.false_eq_true, if_false, idle]
    · have ends : (c'.backlog.isEmpty && c'.paused.isEmpty && c'.drained != 0 && decide (f'.used < furSize f')) = true := by
        simp [empty, unpaused, count, room]
      simp only [State.backlogDrain, fur, ctx, alive, ← hu, fur', ctx', owned, ends, if_true, ← hv, Bool.false_eq_true, if_false, idle]
  case delay =>
    intro s n f ha known delay pending due
    refine next_live ha ?_
    simp only [State.furrowIrq, known, due]
    exact if_pos (by simp [delay, pending])

end Sys2Proof.Machine
end

section
/-! The rows of the memory tiers, the Rakes of memory and the expander link (R280 to R303). -/

namespace Sys2Proof.Machine

/-! ## Commands (R280, R294 to R301) -/

/-- Settles O20: each command of the tiers on its success path. -/
theorem tierCommandsRun : Obligations.TierCommandsRun := by
  refine ⟨?quota, ?hint, ?query, ?add, ?release, ?lost⟩
  case quota =>
    rintro s u d hm rfl bed ready
    exact next_command hm (by simp only [State.tierQuota, bed, State.submitCmd_ready _ _ _ _ ready]; rfl)
  case hint =>
    rintro s u d sid e c hm rfl target held ctx
    exact next_command hm (by simp only [State.tierHint, target, held, ctx])
  case query =>
    rintro s u d t hm rfl known mine
    refine next_command hm ?_
    cases bed : dBed d with
    | none =>
      simp only [State.tierSetQuery, known, bed, Option.filter]
      rfl
    | some b =>
      simp only [State.tierSetQuery, known, bed, mine b bed, Option.filter, beq_self_eq_true, if_true]
  case add =>
    rintro s u d ix hm rfl ready owner fits room
    exact next_command hm (by simp only [State.extentAdd, owner, fits, room, State.submitCmd_ready _ _ _ _ ready]; rfl)
  case release =>
    rintro s u d e hm rfl ready known active
    exact next_command hm (by simp only [State.extentRelease, known, active, State.submitCmd_ready _ _ _ _ ready]; rfl)
  case lost =>
    rintro s u d e hm rfl ready after one
    refine next_command hm ?_
    simp only [State.extentLost, one, ready, List.map_cons, List.map_nil, List.foldl_cons, List.foldl_nil, Nat.zero_add,
      State.submitCmd_ready _ _ _ _ after]
    rfl

/-! ## Moves, backings, extents and Rakes (R280 to R298) -/

/-- A piece of a handoff counts as done, and is sent. -/
theorem State.pieceRow_of_handoff {s : State} {ix : Nat} {m : Move} {sid : W64} {node : Nat} (known : s.move? ix = some m)
    (what : m.what = .handoff sid node) (admitted : 0 < m.admitted) (ready : m.waiting = false) (more : m.doneP < m.pieces)
    (well : m.failed = false) (here : s.pulling sid m.doneP = false) :
    s.pieceRow ix = (s.updMove ix fun m => { m with doneP := m.doneP + 1, admitted := m.admitted - 1 }).handoffPiece sid := by
  have some' : ¬ m.admitted = 0 := by omega
  have undone : ¬ m.pieces ≤ m.doneP := by omega
  have piece : s.movePiece ix = s.updMove ix fun m => { m with doneP := m.doneP + 1, admitted := m.admitted - 1 } := by
    simp only [State.movePiece, known, some', ready, undone, well, what, here]
    rfl
  simp only [State.pieceRow, piece, show s.tiers.moves.find? (fun m => m.ix == ix) = some m from known, what]

/-- Settles O21: each event of the tiers and of the Rakes, by the conditions under which it acts. -/
theorem tierEventsRun : Obligations.TierEventsRun := by
  refine ⟨?release, ?piece, ?complete, ?backing, ?poison, ?stripes⟩
  case release =>
    intro s port ix e ha known draining empty
    exact next_live ha (by simp only [State.extentFree, known, draining, empty]; rfl)
  case piece =>
    intro s ix m sid node ha known what admitted ready more well here
    exact next_live ha (State.pieceRow_of_handoff known what admitted ready more well here)
  case complete =>
    intro s ix m sid e ha known well done what owned up
    refine next_live ha ?_
    simp only [State.moveComplete, known, well, if_neg (Nat.not_lt.mpr done), what, owned, up]
    rfl
  case backing =>
    intro s ix t ha known backing timed due
    refine next_live ha ?_
    simp only [State.backingExpiry, known, backing, due]
    exact if_pos (by simp [timed])
  case poison =>
    intro s port ix t ha known tier mine
    refine ⟨next_live ha ?_, fun up => next_live ha ?_⟩
    · simp only [State.cxlPoison, known, tier, mine]
      rfl
    · simp only [State.cxlRake, known, tier, mine, up]
      rfl
  case stripes =>
    intro s r inner wrong ha
    refine ⟨fun running more => next_live ha ?_, fun copying running last => next_live ha ?_, fun die busy => next_live ha ?_,
      fun die idle => next_live ha ?_⟩
    · have runs : ¬ (decide (s.fget F.RGN_CLK_STATUS_STOPPED r = 1) || s.flt.safe) = true := by
        simp [running, s.active_safe ha]
      simp only [State.rakeStripe, if_neg runs, if_neg more, Nat.succ_ne_zero, if_false]
    · have runs : ¬ ((s.stack r).spare != .copying || s.fget F.RGN_CLK_STATUS_STOPPED r == 1 || s.flt.safe) = true := by
        simp [copying, running, s.active_safe ha]
      simp only [State.spareCopy, if_neg runs, if_pos last]
    · have held : ((s.fset F.RGN_MEM_CTRL_SPARE_DIE die r).stack r).spare = (s.stack r).spare := rfl
      unfold State.spareNow
      rw [s.hostWrite_runs _ ha]
      simp only [held, State.spareDue]
      cases h : (s.stack r).spare with
      | none => exact absurd h busy
      | copying => rfl
      | done => rfl
    · have held : ((s.fset F.RGN_MEM_CTRL_SPARE_DIE die r).stack r).spare = .none := idle
      unfold State.spareNow
      rw [s.hostWrite_runs _ ha]
      simp only [held, State.spareDue]

/-! ## The expander link (R283, R284, R303) -/

theorem cxlDetail_ctrl (port : Nat) : cxlDetail ⟨.CXL_CTRL, port, 0⟩ = 3 * 2 ^ 24 := by
  have off : RN.CXL_CTRL.place.off = 0 := rfl
  simp only [cxlDetail, off, Nat.mul_zero, Nat.add_zero]

theorem cxlDetail_hdm (port k : Nat) : cxlDetail ⟨.CXL_HDM_CTRL, port, k⟩ = 3 * 2 ^ 24 + 0x108 + 16 * k := by
  have off : RN.CXL_HDM_CTRL.place.off = 0x108 := rfl
  have stride : RN.CXL_HDM_CTRL.place.stride = 16 := rfl
  simp only [cxlDetail, off, stride]

/-- Settles O22: each row of the expander link, by the conditions under which it acts. -/
theorem expanderLinkRuns : Obligations.ExpanderLinkRuns := by
  intro s port ha
  refine ⟨?down, ?event, ?enable, ?commit, ?go, ?done⟩
  case down => exact fun up => next_live ha (if_neg up)
  case event => exact next_live ha rfl
  case enable =>
    intro on ready
    refine next_live ha ((s.hostWrite_runs _ ha).trans ?_)
    simp only [ready, cxlDetail_ctrl]
    cases on <;> rfl
  case commit =>
    intro k on ready other may
    refine next_live ha ((s.hostWrite_runs _ ha).trans ?_)
    have allowed : s.hdmMay port k on = true := by
      cases on <;> simp_all [State.hdmMay]
    simp only [ready, allowed, cxlDetail_hdm]
    cases on <;> rfl
  case go =>
    rintro v u idle go rfl
    refine next_live ha ((s.hostWrite_runs _ ha).trans ?_)
    exact if_neg (by simp [idle, go])
  case done =>
    rintro result data a u open' rfl
    refine ⟨fun ok read => next_live ha ?_, fun failed => next_live ha ?_⟩
    · unfold State.cxlIoDone
      rw [open']
      exact congrArg (fun t => State.setStatus t F.CXL_EVENT_IO_DONE port) (if_pos (by simp [ok, read]))
    · unfold State.cxlIoDone
      rw [open']
      exact congrArg (fun t => State.setStatus t F.CXL_EVENT_IO_DONE port) (if_neg (by simp [failed]))

end Sys2Proof.Machine
end

section
/-! The rows of the flash, of the load of the keep store, and of vector search (R305 to R350). -/

namespace Sys2Proof.Machine

/-! ## Flash and keep store (R309 to R326) -/

/-- The releases that FL_DISCARD_SYNC waits for are those of its Bed, or all. -/
theorem State.flDiscardSync_eq {u : State} {d : Desc} {mine : Release → Bool} (ofBed : ∀ b, dBed d = some b → ∀ r, mine r = (r.bed == some b))
    (ofNone : dBed d = none → ∀ r, mine r = true) {rs : List (Nat × Nat × Nat)}
    (hrs : rs = List.flatten ((List.range 8).map fun i => ((u.flashCtl i).releases.filter mine).map fun r => (i, r.ix, r.erased))) :
    u.flDiscardSync d = if rs.isEmpty then u.complete d St.ok 0 else { u with flash := { u.flash with syncs := u.flash.syncs ++
      [{ d := d, waitsFor := rs.map fun x => (x.1, x.2.1), erased := (rs.map fun x => x.2.2).sum }] } } := by
  unfold State.flDiscardSync
  cases bed : dBed d with
  | none =>
    obtain rfl : mine = fun _ => true := funext (ofNone bed)
    rw [hrs]
  | some b =>
    obtain rfl : mine = fun r => r.bed == some b := funext (ofBed b bed)
    rw [hrs]

/-- FL_KEEP_READ of a kept type whose entries may be read out. -/
theorem State.flKeepRead_found {u : State} {d : Desc} {r : KeepRec} (typ : dArg d 48 2 < 0x10 ∨ 0x1F < dArg d 48 2)
    (known : u.keepCur (dArg d 48 2) (BitVec.ofNat 64 (dArg d 56 8)) = some r) :
    u.flKeepRead d = (u.writeAddr d d.addr0 (keepImage r)).complete d St.ok
      (r.payload.length % 2 ^ 16 + r.seq.toNat % 2 ^ 48 * 2 ^ 16) := by
  have shown : ¬ (Decidable.decide (0x0010 ≤ dArg d 48 2) && Decidable.decide (dArg d 48 2 ≤ 0x001F)) = true := by
    simp only [Bool.and_eq_true, decide_eq_true_eq]
    omega
  simp only [State.flKeepRead, if_neg shown, known]

/-- The append log is programmed when its oldest record is due (R326). -/
theorem State.appendLogProgram_due {s : State} {c : Nat} {a : AppendRec} {rest : List AppendRec}
    (waits : (s.flashCtl c).append = a :: rest) (due : ftReached s.now (ftAdd a.at_ 1) = true) :
    s.appendLogProgram c = (appendFit 16384 (a :: rest)).foldl (fun s a => s.appendDone a) ((s.updFlash c fun f =>
      { f with append := f.append.drop (appendFit 16384 (a :: rest)).length }).appendPage c true (appendFit 16384 (a :: rest))) := by
  unfold State.appendLogProgram
  rw [waits]
  exact if_pos (by rw [due]; exact Bool.or_true _)

/-- Of a change of one place of a list only what it makes of that place counts. -/
theorem modify_congr_getD {α : Type} {f g : α → α} {d : α} {l : List α} {i : Nat} (h : f (l.getD i d) = g (l.getD i d)) :
    l.modify i f = l.modify i g := by
  induction l generalizing i with
  | nil => cases i <;> rfl
  | cons a l ih =>
    cases i with
    | zero => exact congrArg (· :: l) h
    | succ i => exact congrArg (a :: ·) (ih h)

theorem State.updFlash_congr {s : State} {c : Nat} {f g : Flash → Flash} (h : f (s.flashCtl c) = g (s.flashCtl c)) :
    s.updFlash c f = s.updFlash c g := by
  rw [State.updFlash, State.updFlash, modify_congr_getD h]

/-- The next copy of a controller without one starts. -/
theorem State.compostCopy_starts {s : State} {c dst : Nat} {b : LBlock} {op : CopyOp}
    (idle : ((s.compostMode c).flashCtl c).copy = none) (on : (s.compostMode c).flt.flashOff.contains c = false)
    (next : (s.compostMode c).nextCopy c = some (b, op))
    (room : (if op = .wear then ((s.compostMode c).flashCtl c).mostWorn else ((s.compostMode c).flashCtl c).leastWorn 0) = some dst) :
    s.compostCopy c = (s.compostMode c).updFlash c fun f => { f with
      copy := some ((s.compostMode c).copyOf c b op dst), nextMove := (f.nextMove + 1) % 2 ^ 32 } := by
  simp only [State.compostCopy, idle, on, next, room]
  rfl

/-- The end of a copy: its pages, the intent, the map, and the record that it is done. -/
theorem State.finishCopy_eq {s a m t : State} {c : Nat} {x : FlashCopy} {w : W64} (copied : a = s.copyPages c x)
    (hw : w = (a.flashCtl c).wseq - 1) (mapped : m = ((a.keepSave (intentRecord c x 1 w)).mapMoved x).eraseOld x)
    (recorded : t = (m.keepSave (m.mapSegment c (x.lb / 8 / 1024))).keepSave (intentRecord c x 2 w)) :
    s.finishCopy c x = if x.op = .merge then t.bump .FL_MERGES c else t.bump .FL_MOVES c := by
  rw [recorded, mapped, hw, copied]
  rfl

/-- A finished copy is recorded, its old block is erased, and what waited for it is applied. -/
theorem State.compostComplete_finish {s : State} {c : Nat} {x : FlashCopy} (copy : (s.flashCtl c).copy = some x)
    (on : s.flt.flashOff.contains c = false) :
    s.compostComplete c = ((s.updFlash c fun f => { f with copy := none }).finishCopy c x).applyDue x.lb := by
  simp only [State.compostComplete, copy, on]
  rfl

/-- The Rake reads the next programmed page; few corrected bits refresh nothing. -/
theorem State.flashRakePage_next {s u : State} {c corrected page : Nat} {r : PageRun} (bad : Bool)
    (on : s.flt.flashOff.contains c = false)
    (next : ((s.programmed c).find? fun r => Decidable.decide ((s.flashCtl c).rake < r.at_ + r.count)) = some r)
    (hpage : page = max (s.flashCtl c).rake r.at_)
    (hu : u = ((s.updFlash c fun f => { f with rake := page + 1 }).fset F.FL_RAKE_POS_PERCENT
        (((((s.programmed c).filter fun y => y.at_ < r.at_).map fun y => y.count).sum + (page - r.at_) + 1) * 100 /
          max 1 ((s.programmed c).map fun y => y.count).sum) c).flashRead c r.phys 1)
    (few : corrected ≤ min 120 (u.fget F.FL_REFRESH_BITS_VALUE c)) :
    s.flashRakePage c corrected bad = if bad then u.pageLost c r.phys (page - r.phys * 1536) else u := by
  subst hpage
  unfold State.flashRakePage
  refine (if_neg (by rw [on]; decide)).trans ?_
  simp only [next, ← hu, if_neg (Nat.not_lt.mpr few)]

/-- The mask of the flash controllers that are ready, where none failed. -/
theorem flashReady_all : ((List.range 8).map fun i => if ([] : List Nat).contains i then 0 else 2 ^ i).sum = 255 := by decide

/-- Settles O23: each row of the flash and of the keep store, by the conditions under which it acts. -/
theorem flashRuns : Obligations.FlashRuns := by
  refine ⟨?commands, ?events, ?load⟩
  case commands =>
    rintro s u d hm rfl
    refine ⟨fun mine rs ofBed ofNone hrs => ?_, fun r typ known => next_command hm (State.flKeepRead_found typ known)⟩
    have synced := State.flDiscardSync_eq ofBed ofNone hrs
    refine ⟨fun none => next_command hm ?_, fun some' => next_command hm ?_⟩
    · rw [synced, none]
      rfl
    · rw [synced]
      exact if_neg (by simpa using some')
  case events =>
    intro s c ha
    refine ⟨?append, ?start, ?finish, ?rake, ?failure, ?erase⟩
    case append =>
      rintro a rest fit waits rfl due
      exact next_live ha (State.appendLogProgram_due waits due)
    case start =>
      rintro b op dst f rfl idle on next room
      exact next_live ha ((State.compostCopy_starts idle on next room).trans (State.updFlash_congr rfl))
    case finish =>
      intro x a m t w copy on copied hw mapped recorded
      refine next_live ha ((State.compostComplete_finish copy on).trans ?_)
      rw [State.finishCopy_eq copied hw mapped recorded]
    case rake =>
      intro corrected page r u on next hpage hu few
      exact ⟨next_live ha (State.flashRakePage_next false on next hpage hu few),
        next_live ha (State.flashRakePage_next true on next hpage hu few)⟩
    case failure =>
      intro phys u good small moved
      refine next_live ha ?_
      simp only [State.flashOpFailure, good, decide_eq_false (Nat.not_le.mpr small), moved]
      rfl
    case erase =>
      intro phys stale plain
      exact next_live ha (by simp only [State.blockErase, stale, plain]; rfl)
  case load =>
    rintro s u v ha seq rfl rfl
    refine next_live ha ?_
    simp only [List.map_nil, State.keepStoreLoad, seq, flashReady_all, List.foldl_nil]
    rfl

/-! ## Vector search (R327 to R350) -/

/-- VS_PUBLISH of an accepted index is submitted in its near memory. -/
theorem State.vsPublish_accepted {u w : State} {d : Desc} {near : List Nat} {area : Option Nat} (old : W128) (ready : u.keep.ready = true)
    (hold : (u.vsCurrent ((dBed d).getD 0) (vtId (u.buf0 d))).elim 0 (fun v => digest128 v.table) = old)
    (verdict : u.vsVerdict ((dBed d).getD 0) (u.buf0 d) = .accept)
    (taken : u.vsTake ((dBed d).getD 0) (u.buf0 d).length (u.vsIndex? ((dBed d).getD 0) (vtId (u.buf0 d))).isNone =
      some (near, area, w)) :
    u.vsPublish d = w.submit
      { journal := [u.vsEntry d ((dBed d).getD 0) 0 (vtId (u.buf0 d)) (vtVersion (u.buf0 d)) old (digest128 (u.buf0 d)) false]
        eff := .load d (u.buf0 d) near area } := by
  unfold State.vsPublish
  extract_lets bed t held e
  have hheld : held = old := by
    rw [← hold]
    simp only [held]
    cases u.vsCurrent bed (vtId t) <;> rfl
  rw [show u.vsVerdict bed t = .accept from verdict,
    show u.vsTake bed t.length (u.vsIndex? bed (vtId t)).isNone = some (near, area, w) from taken]
  refine (State.submitLoad_ready _ _ _ _ _ _ ready).trans ?_
  simp only [e, hheld]
  rfl

/-- Settles O24: each command of search on its success path. -/
theorem searchCommandsRun : Obligations.SearchCommandsRun := by
  refine ⟨?publish, ?unload, ?query, ?delete, ?info⟩
  case publish =>
    rintro s u w d t near area hm rfl ready rfl verdict taken
    exact ⟨fun v held => next_command hm (State.vsPublish_accepted _ ready (by rw [held]; rfl) verdict taken),
      fun new => next_command hm (State.vsPublish_accepted _ ready (by rw [new]; rfl) verdict taken)⟩
  case unload =>
    rintro s u d v hm rfl ready held
    exact next_command hm (by simp only [State.vsUnload, held, State.submitCmd_ready _ _ _ _ ready])
  case query =>
    rintro s u d r v x w sent hm rfl rfl held index dim limits walker rfl
    refine next_command hm ?_
    simp only [State.vsQuery, held, index, dim, limits, walker, bne_self_eq_false]
    rfl
  case delete =>
    rintro s u d v x hm rfl held index
    refine ⟨fun fits => next_command hm ?_, fun ready => next_command hm ?_⟩
    · simp only [State.vsDelete, held, index, if_neg (Nat.not_lt.mpr fits)]
    · simp only [State.vsShare, held, index, State.submitCmd_ready _ _ _ _ ready]
  case info =>
    rintro s u d bed v x hm rfl named configured held index
    refine next_command hm ?_
    rcases named with named | ⟨named, rfl⟩
    · simp only [State.vsInfo, named, configured, held, index]
      rfl
    · simp only [State.vsInfo, named, configured, held, index]
      rfl

/-- Settles O25: the end of a walk, and each message and timer of a shared index. -/
theorem searchMessagesRun : Obligations.SearchMessagesRun := by
  refine ⟨?walk, ?request, ?response, ?timeout⟩
  case walk =>
    rintro s ix q v x ha known unwalked version index own u host rfl rfl
    exact next_live ha (by simp only [State.vsWalkComplete, known, unwalked, version, index, host]; rfl)
  case request =>
    intro s m v ha shared
    refine ⟨fun dim => next_live ha ?_, fun w x dim walker index => next_live ha ?_⟩
    · simp only [State.vsReq, shared]
      exact if_pos (bne_iff_ne.mpr dim)
    · simp only [State.vsReq, shared, dim, walker, index, bne_self_eq_false]
      rfl
  case response =>
    intro s m q k ha asked place early
    exact next_live ha (by simp only [State.vsResp, asked, place, early]; rfl)
  case timeout =>
    intro s ix q ha known due
    exact next_live ha (by simp only [State.shardTimeout, known, due, if_true])

end Sys2Proof.Machine
end

section
/-! The rows of Plowald links: keys, training, frames, queues and handoff copies (R351 to R383, R408). -/

namespace Sys2Proof.Machine

/-! ## Changes of a port -/

theorem State.updPort_congr {s : State} {p : Nat} {f g : Port → Port} (h : f (s.port p) = g (s.port p)) :
    s.updPort p f = s.updPort p g := by
  rw [State.updPort, State.updPort, modify_congr_getD h]

theorem State.updPort_updPort (s : State) (p : Nat) (f g : Port → Port) : (s.updPort p f).updPort p g = s.updPort p (g ∘ f) := by
  rw [State.updPort, State.updPort, State.updPort, List.modify_modify_eq]

/-! ## Keys and training (R354 to R360, R370, R378) -/

/-- PLW_KEY_LOAD of a new key where a slot and a mark are free. -/
theorem State.plwKeyLoad_new {u : State} {d : Desc} {key : List Byte} (ready : u.keep.ready = true) (named : dKey d ≠ 0)
    (unwrapped : u.keyUnwraps d = some key) (new : u.keySlot? (dKey d) = none) (slot : u.freeKeySlot ≠ none)
    (marks : u.keyMarks.length < 1048576) :
    u.plwKeyLoad d = u.submit { journal := [u.keyEntry d 0 (dKey d) false true false], eff := .cmd d key 0 } := by
  have slot' : u.freeKeySlot.isNone = false := by
    rw [Option.isNone_eq_false_iff, Option.isSome_iff_ne_none]
    exact slot
  have room : (u.freeKeySlot.isNone || ((u.keyMark (dKey d)).isNone && Decidable.decide (1048576 ≤ u.keyMarks.length))) = false := by
    rw [slot', decide_eq_false (Nat.not_le.mpr marks), Bool.and_false]
    rfl
  have valid : (Decidable.decide (dKey d = 0) || (u.keyUnwraps d).isNone) = false := by
    rw [decide_eq_false named, unwrapped]
    rfl
  simp only [State.plwKeyLoad, valid, new, room, State.submitCmd_ready _ _ _ _ ready]
  rw [unwrapped]
  rfl

/-- TRAIN_BLOCK first shows the partner that the block names. -/
theorem State.trainBlock_good {s u : State} {p : Nat} {t : Train} (good : t.good = true)
    (hu : u = ((s.fset F.PLW_STATE_ROLE t.role p).fset F.PLW_PARTNER_PORT t.port p).fset F.PLW_PARTNER_NODE t.node p) :
    s.trainBlock p t = if u.portState p != Pst.negotiate then u else
      (u.commonVersion p t).elim ((u.fset F.PLW_STATE_VERSION 0 p).portDown p) fun v =>
        if !t.ack || Decidable.decide ((u.port p).lanes &&& t.lanes = 0) then u else
        ((((u.fset F.PLW_STATE_VERSION v p).fset F.PLW_STATE_RATE
          (if (u.fset F.PLW_STATE_VERSION v p).slowRate p t v then 1 else 0) p).fset F.PLW_STATE_WIDTH
            (widthOf (laneCount ((u.port p).lanes &&& t.lanes))) p).portGo p Pst.active).updPort p fun q =>
          { q with lanes := (u.port p).lanes &&& t.lanes, agreed := t.lanes
                   credits := (List.range 8).map fun v => t.credits.getD v 0
                   seen := List.replicate 8 0, returned := List.replicate 8 0, lastCtl := none, txSeq := 0, rxSeq := 0
                   replay := [], replayAt := none, replays := 0 } := by
  unfold State.trainBlock
  rw [good]
  refine (if_neg (by decide)).trans ?_
  extract_lets r u'
  rw [hu.trans (show _ = u' from rfl)]
  cases u'.commonVersion p t <;> rfl

/-- Settles O26: each row of keys and of training, by the state of its port. -/
theorem linkTrainingRuns : Obligations.LinkTrainingRuns := by
  refine ⟨?load, ?send, ?enable, ?lock, ?train, ?timers⟩
  case load =>
    rintro s u d key hm rfl ready named unwrapped new slot marks
    exact next_command hm (State.plwKeyLoad_new ready named unwrapped new slot marks)
  case send =>
    rintro s u d k hm rfl ready mine
    exact ⟨next_command hm (by simp only [State.plwKeySend, mine, State.submitCmd_ready _ _ _ _ ready]),
      next_command hm (by simp only [State.plwKeyDrop, mine, State.submitCmd_ready _ _ _ _ ready])⟩
  case enable =>
    intro s u p on ha hu
    exact next_live ha ((s.hostWrite_runs _ ha).trans (by rw [hu]))
  case lock =>
    rintro s p lanes use both ha huse hboth intime
    refine ⟨fun optical some' => next_live ha ?_, fun retrain some' => next_live ha ?_⟩
    · unfold State.laneLock
      rw [← huse]
      exact if_pos (by simp [optical, some', intime])
    · unfold State.relock
      rw [← hboth]
      exact if_pos (by simp [retrain, some', intime])
  case train =>
    intro s u p t v ha good hu
    have trained := State.trainBlock_good good hu
    refine ⟨fun other => next_live ha ?_, fun negotiate uncommon => next_live ha ?_,
      fun negotiate common ack lanes => next_live ha ?_⟩
    · exact trained.trans (if_pos (bne_iff_ne.mpr other))
    · rw [trained, negotiate, uncommon]
      rfl
    · rw [trained, negotiate, common]
      refine (if_neg (by decide)).trans (if_neg ?_)
      simp [ack, lanes]
  case timers =>
    intro s p ha
    refine ⟨fun due => ⟨fun negotiate => next_live ha ?_, fun other => next_live ha ?_⟩,
      fun down enabled due => next_live ha ?_, fun active => ⟨fun lanes => next_live ha ?_, fun lanes => next_live ha ?_⟩⟩
    · simp only [State.trainingTimeout, due, negotiate]
      rfl
    · have some' : s.portState p ≠ Pst.negotiate := by rcases other with h | h <;> rw [h] <;> decide
      simp only [State.trainingTimeout, due, if_neg some']
      rcases other with h | h <;> rw [h] <;> rfl
    · exact if_pos (by simp [down, enabled, due])
    · simp only [State.laneLost, active]
      rfl
    · have byte : lanes.toNat % 256 = lanes.toNat := Nat.mod_eq_of_lt lanes.isLt
      simp only [State.laneLost, active, byte]
      rfl

/-! ## Frames and link control (R361 to R367) -/

/-- A good control block that acknowledges on a port with nothing to replay gives credits back. -/
theorem State.linkControl_credits {s : State} {p : Nat} {c : CtlBlock} (active : s.portState p = Pst.active) (good : c.good = true)
    (ack : c.nak = false) (empty : (s.port p).replay = []) (idle : (s.port p).replayAt = none) :
    s.linkControl p c = s.updPort p fun q => { q with
      credits := (List.range 8).map fun v => q.credits.getD v 0 + (c.returned.getD v 0 + 65536 - q.seen.getD v 0) % 65536
      seen := (List.range 8).map fun v => c.returned.getD v 0 } := by
  unfold State.linkControl
  rw [good, active, ack]
  refine (if_neg (by decide)).trans ?_
  extract_lets s1 upto s2 s3
  refine (if_neg Bool.false_ne_true).trans ?_
  simp only [s3, s2, s1]
  rw [State.updPort_updPort, State.updPort_updPort]
  refine State.updPort_congr ?_
  simp only [Function.comp_apply, empty, idle]
  rfl

/-- Two folds whose steps agree give the same. -/
theorem foldl_congr_step {α β : Type} {f g : β → α → β} {b : β} {l : List α} (h : ∀ v x, f v x = g v x) :
    l.foldl f b = l.foldl g b := by
  rw [show f = g from funext fun v => funext (h v)]

/-- What MESSAGE_SEND asks for each message before one is sent. -/
theorem State.messageSend_next {s u : State} {m : OutMsg} {asks : State → OutMsg → State}
    (asked : ∀ v x k, State.sendKey v x = some k → asks v x = v.askMark k)
    (unasked : ∀ v x, State.sendKey v x = none → asks v x = v) (hu : u = s.toSend.foldl asks s) (next : u.nextMsg [] u.toSend = some m) :
    s.messageSend = State.queueMsg { u with toSend := u.toSend.erase m } m := by
  unfold State.messageSend
  extract_lets t
  have ht : t = u := by
    rw [hu]
    refine foldl_congr_step fun v x => ?_
    cases key : v.sendKey x with
    | none => exact (unasked v x key).symm
    | some k => exact (asked v x k key).symm
  rw [ht, next]

/-- A frame without uncorrectable errors is taken where it is good and next in order. -/
theorem State.frameReceive_clean {s u : State} {p : Nat} {f : Frame} (active : s.portState p = Pst.active) (clean : f.fecBad = false)
    (hu : u = s.bump64 .PLW_FEC_CORR_LO .PLW_FEC_CORR_HI p f.fecCorr) :
    s.frameReceive p f = if !f.good || f.lseq != (u.port p).rxSeq then u.updPort p fun q => { q with nakDue := true, ctlDue := true }
      else (u.updPort p fun q => { q with rxSeq := (q.rxSeq + 1) % 65536, nakDue := false }).frameAccept p f := by
  unfold State.frameReceive
  rw [active, clean, hu]
  cases f.good <;> rfl

/-! ## Handoff copies (R408) -/

section Copy

variable {s u v : State} {m : ImgMsg} {e : Entry} {want : Nat} (hu : u = s.touchOwn m.sid) (owned : u.owner? m.sid = some e)
  (awaiting : e.own = .awaiting) (epoch : e.epoch = m.epoch) (hv : v = (u.openRx m).2)
  (hwant : want = if m.object = 0 then (u.openRx m).1.image else (u.openRx m).1.trx)
include hu owned awaiting epoch hv hwant

/-- A piece before the one that is next is acknowledged again. -/
theorem State.imgData_before (object : m.object ≤ 1) (before : m.offset < want) : s.imgData m = v.sendImgAck m want := by
  unfold State.imgData
  rw [← hu]
  simp only [owned, Option.filter, awaiting, epoch, beq_self_eq_true, Bool.and_self, if_true, if_neg (Nat.not_lt.mpr object), ← hwant, ← hv,
    if_pos before]

/-- A copy's next piece of an image that completes nothing is kept. -/
theorem State.imgData_kept {w : State} {x : ImgRx} (next : m.offset = want) (image : m.object = 0)
    (inside : (want + m.len) / 16777216 = want / 16777216) (more : want + m.len < m.total)
    (hw : w = v.updRx m.sid fun t => { t with
      image := want + m.len, imageTotal := some m.total, ctx := m.ctx <|> t.ctx, pages := t.pages ++ m.pages })
    (kept : (w.plw.rx.find? fun x => x.sid == m.sid) = some x) (part : x.trxTotal = none) : s.imgData m = w := by
  have quiet : ¬ (Decidable.decide (want / 16777216 < (want + m.len) / 16777216) || Decidable.decide (m.total ≤ want + m.len)) = true := by
    simp only [Bool.or_eq_true, decide_eq_true_eq]
    omega
  have low : ¬ 1 < m.object := by omega
  unfold State.imgData
  rw [← hu]
  simp only [owned, Option.filter, awaiting, epoch, beq_self_eq_true, Bool.and_self, if_true, if_neg low, ← hwant, ← hv, next, Nat.lt_irrefl,
    if_false, if_neg quiet]
  simp only [image, if_true, ← hw, kept, part]
  exact if_neg (by simp)

end Copy

/-- Settles O27: each row of frames, queues and copies, by the conditions under which it acts. -/
theorem linkFramesRun : Obligations.LinkFramesRun := by
  refine ⟨?receive, ?control, ?send, ?reassembly, ?sample, ?data, ?ack, ?image, ?shard⟩
  case receive =>
    intro s u p f ha active clean hu
    have taken := State.frameReceive_clean active clean hu
    refine ⟨fun good inOrder => next_live ha (taken.trans (if_neg ?_)), fun broken => next_live ha (taken.trans (if_pos ?_))⟩
    · simp [good, inOrder]
    · rcases broken with h | h <;> simp [h]
  case control =>
    intro s p ha active
    refine ⟨next_live ha ?_, fun c good ack empty idle => next_live ha (State.linkControl_credits active good ack empty idle),
      fun l replay => next_live ha ?_, fun v m rest u idle hu eligible queued => next_live ha ?_⟩
    · simp only [State.linkControlSend, active]
      rfl
    · simp only [State.frameSend, active, replay]
      rfl
    · simp only [State.frameSend, active, idle, ← hu, eligible, queued]
      rfl
  case send =>
    intro s u m asks ha asked unasked hu next
    exact next_live ha (State.messageSend_next asked unasked hu next)
  case reassembly =>
    intro s p c ha due kept
    exact next_live ha (by simp only [State.reassemblyTimeout, due, kept]; rfl)
  case sample =>
    intro s p ha on due
    refine next_live ha ?_
    refine (if_neg (by simp [on, due])).trans (foldl_congr_step fun v k => ?_)
    dsimp only
    cases ((v.port p).queues.getD k []).head? <;> rfl
  case data =>
    intro s u v m e want ha hu owned awaiting epoch object hv hwant
    exact ⟨fun before => next_live ha (State.imgData_before hu owned awaiting epoch hv hwant object before),
      fun w x next image inside more hw kept part =>
        next_live ha (State.imgData_kept hu owned awaiting epoch hv hwant next image inside more hw kept part)⟩
  case ack =>
    intro s u m t pos cur ha hu open' hpos ahead hcur moved
    have new : ¬ imgLin t pos + pos.1 ≤ imgLin t t.ack + t.ack.1 := Nat.not_le.mpr ahead
    refine ⟨fun more => next_live ha ?_, fun all => next_live ha ?_⟩
    · simp only [State.imgAck, ← hu, open', ← hpos, if_neg new, ← hcur, if_neg (Nat.not_le.mpr more), moved]
    · simp only [State.imgAck, ← hu, open', ← hpos, if_neg new, ← hcur, if_pos all, moved]
  case image =>
    intro s sid t ha open'
    refine ⟨fun due => next_live ha ?_, fun due => next_live ha ?_⟩
    · simp only [State.copyResend, State.imgResend, open', due, if_true]
    · simp only [State.copyGiveUp, State.imgGiveUp, open', due, if_true]
  case shard =>
    intro s dest ckpt bed t ha open'
    refine ⟨fun due => next_live ha ?_, fun due => next_live ha ?_⟩
    · simp only [State.copyResend, State.ckResend, open', due, if_true]
    · simp only [State.copyGiveUp, State.ckGiveUp, open', due, if_true]

end Sys2Proof.Machine
end

section
/-! The rows of exported memory and of operations on near memory (R384 to R400). -/

namespace Sys2Proof.Machine

/-! ## Commands of exports (R386 to R394) -/

/-- EXP_CREATE of a range without a line directory, in a free place. -/
theorem State.expCreate_new {u : State} {d : Desc} {bed start ix region : Nat} {e : Export} (hbed : bed = (dBed d).getD 0)
    (hstart : start = d.addr0.toNat % 2 ^ 48)
    (apart : ∀ e ∈ u.exp.exports, e.bed = bed → spanMeets (start, dLen0 d) (e.start, e.len) = false) (room : u.exp.exports.length < 1024)
    (few : dArg d 49 1 ≤ 6) (mode : dArg d 48 1 % 4 ≠ 2)
    (place : ((List.range 256).find? fun i => (u.exp.exports.filter fun e => e.bed == bed).all fun e => e.ix != i) = some ix)
    (mapped : ∀ pa, u.bufPa bed start = some pa → region = paRegion pa)
    (unmapped : u.bufPa bed start = none → region = (u.regionsOf bed).headD 0)
    (he : e = { bed := bed, ix := ix, gen := u.nextGen bed ix, start := start, len := dLen0 d, mode := dArg d 48 1 % 4,
                importers := importersOf d, region := region }) :
    u.expCreate d = State.complete { u with exp := { u.exp with
      exports := u.exp.exports ++ [e]
      gens := ((bed, ix), u.nextGen bed ix) :: u.exp.gens.filter fun g => g.1 != (bed, ix) } } d St.ok (expHandle e).toNat := by
  have disjoint : ((u.exp.exports.filter fun e => e.bed == bed).any fun e => spanMeets (start, dLen0 d) (e.start, e.len)) = false := by
    rw [List.any_eq_false]
    intro e he
    obtain ⟨hmem, hbed'⟩ := List.mem_filter.mp he
    rw [apart e hmem (beq_iff_eq.mp hbed')]
    exact Bool.false_ne_true
  have fits : (Decidable.decide (1024 ≤ u.exp.exports.length) || Decidable.decide (6 < dArg d 49 1)) = false := by
    rw [decide_eq_false (Nat.not_le.mpr room), decide_eq_false (Nat.not_lt.mpr few)]
    rfl
  simp only [State.expCreate, ← hbed, ← hstart, disjoint, fits, place, if_neg mode, Bool.false_eq_true, if_false, he]
  cases pa : u.bufPa bed start with
  | none => rw [unmapped pa]
  | some pa' => rw [mapped pa' pa]

/-- Settles O28: each command of exports and published names on its success path. -/
theorem exportCommandsRun : Obligations.ExportCommandsRun := by
  refine ⟨?create, ?named, ?publish, ?withdraw, ?hint⟩
  case create =>
    rintro s u d bed start ix region e hm rfl hbed hstart apart room few mode place mapped unmapped he
    exact next_command hm (State.expCreate_new hbed hstart apart room few mode place mapped unmapped he)
  case named =>
    rintro s u d bed e hm rfl hbed known
    refine ⟨fun fresh keep => next_command hm ?_, fun one => next_command hm ?_, fun bed' configured => next_command hm ?_⟩
    · have held : (s.start d).exportOf bed (BitVec.ofNat 32 (dArg d 48 4)) = .ok e := by
        unfold State.cmdExport at known
        split at known
        next e' h => rw [h, Option.some.inj known]
        next => cases known
      simp only [State.expRevoke, ← hbed, held, fresh, keep, if_true]
    · simp only [State.expNodeLost, ← hbed, if_neg one, known]
    · simp only [State.expQuery, bed', configured, known]
      rfl
  case publish =>
    rintro s u d bed va e hm rfl hbed hva held low high
    refine next_command hm ?_
    have inside : (decide (va < e.start) || decide (e.start + e.len < va + dLen0 d)) = false := by
      rw [decide_eq_false (Nat.not_lt.mpr low), decide_eq_false (Nat.not_lt.mpr high)]
      rfl
    simp only [State.expPublish, ← hbed, ← hva, held, inside]
    rfl
  case withdraw =>
    rintro s u d bed n hm rfl hbed ready known
    exact next_command hm (by simp only [State.expWithdraw, ← hbed, known, State.submitCmd_ready _ _ _ _ ready])
  case hint =>
    rintro s u d bed hm rfl hbed stay
    exact next_command hm (by simp only [State.memHint, ← hbed, stay, if_true])

/-! ## Near memory (R395, R396) -/

/-- Settles O29: each operation on near memory is its effect on the ranges that ADDR0 and ADDR1 name. -/
theorem nearMemoryRuns : Obligations.NearMemoryRuns := by
  intro s u d bed a b hm hu hbed ha hb
  rw [hu, hbed, ha, hb]
  exact ⟨next_command hm rfl, fun near => next_command hm (if_pos near), next_command hm rfl, next_command hm rfl⟩

/-! ## Messages of exports (R393) -/

/-- Refutes O30: recall data of a node that counts as lost is refused, although the recall is still listed. -/
theorem not_exportMessagesRun : ¬ Obligations.ExportMessagesRun := by
  rintro ⟨-, -, -, recallData, -⟩
  have answered := Host.Outcome.next.inj (recallData
    { State.reset with exp := { State.reset.exp with exports :=
      [{ bed := 0, ix := 0, gen := 0, start := 0, len := 64, mode := 0, importers := [1], region := 0, lost := [1]
         recalls := [{ id := 0, node := 1, line := 0, count := 1, since := 0 }] }] } }
    { sender := 1, bed := 0, target := 0, clean := true } _ _ (by decide +kernel) rfl rfl rfl rfl)
  exact absurd (congrArg (fun t => t.toSend.length) answered) (by decide +kernel)

end Sys2Proof.Machine
end

section
/-! The rows of checkpoints and restores (R401 to R430). -/

namespace Sys2Proof.Machine

/-! ## Commands (R403 to R428) -/

/-- CK_ARM at a Bed without a part and a round: bit 0 of byte 57 disarms it; otherwise another node coordinates, and the Bed takes no part list. -/
theorem State.ckArm_idle {u : State} {d : Desc} {bed : Nat} (hbed : bed = (dBed d).getD 0) (part : u.ckPart? bed = none)
    (round : u.ckRound? bed = none) :
    (dArg d 57 1 % 2 = 1 → u.ckArm d = State.complete
      { u with ck := { u.ck with arms := u.ck.arms.filter fun a => a.bed != bed } } d St.ok 0) ∧
    (∀ p : Profile, dArg d 57 1 % 2 ≠ 1 → u.profile? bed (dArg d 54 2) = some p → dArg d 52 2 % 512 ≠ u.node →
      u.ckArm d = State.complete
        { u with ck := { u.ck with arms := (u.ck.arms.filter fun a => a.bed != bed) ++
          [{ bed := bed, job := BitVec.ofNat 32 (dArg d 48 4), coord := dArg d 52 2 % 512, profile := dArg d 54 2
             dest := dArg d 56 1, orch := dArg d 58 2, d := d, parts := [] }] } } d St.ok 0) := by
  have idle : ((u.ckPart? bed).isSome || (u.ckRound? bed).isSome) = false := by rw [part, round]; rfl
  refine ⟨fun disarm => ?_, fun p arm found remote => ?_⟩
  · simp only [State.ckArm, ← hbed, idle, disarm, Bool.false_eq_true, if_false, if_true]
  · simp only [State.ckArm, ← hbed, idle, arm, found, remote, Option.isNone_some, Bool.false_eq_true, if_false]

/-- Settles O31: each command of checkpoints and restores on its success path. -/
theorem checkpointCommandsRun : Obligations.CheckpointCommandsRun := by
  refine ⟨?arm, ?start, ?restore, ?commit, ?free, ?manifest⟩
  case arm =>
    intro s u d bed hm hu hbed part round
    subst hu
    obtain ⟨disarm, remote⟩ := State.ckArm_idle hbed part round
    exact ⟨fun h => next_command hm (disarm h), fun p h found far => next_command hm (remote p h found far)⟩
  case start =>
    rintro s u d a hm rfl
    refine ⟨fun armed here => next_command hm ?_, fun p armed profile ready group => next_command hm ?_⟩
    · simp only [State.ckStart, armed, Option.filter_some, here, if_true]
    · simp only [State.ckRegroup, armed, Option.bind_some, profile, if_neg (Nat.not_lt.mpr group),
        State.submitCmd_ready _ _ _ _ ready]
  case restore =>
    rintro s u d hm rfl staged restoring manifest steps
    refine next_command hm ?_
    simp only [State.ckRestore, staged, restoring, manifest, steps]
    rfl
  case commit =>
    rintro s u d x hm rfl staged free
    refine ⟨next_command hm ?_, next_command hm ?_⟩
    · simp only [State.ckRestoreCommit, staged, free]
      rfl
    · simp only [State.ckCancel, staged, free]
      rfl
  case free =>
    rintro s u d bed ckpt hm rfl hbed hckpt part round some near
    refine next_command hm ?_
    simp only [State.ckShardFree, ← hbed, ← hckpt, part, round, near, Option.any_none, Bool.or_self, Bool.false_eq_true, if_false,
      List.isEmpty_eq_false_iff.mpr some, List.map_nil, List.isEmpty_nil, if_true]
  case manifest =>
    rintro s u d x hm rfl stored
    refine next_command hm ?_
    simp only [State.ckManifestRead, stored]

/-! ## Messages (R409 to R424) -/

/-- Refutes O32: a READY of a node that holds no shard of the round's checkpoint is ignored, although its round is found by the id. -/
theorem not_checkpointMessagesRun : ¬ Obligations.CheckpointMessagesRun := by
  rintro ⟨-, -, ready, -⟩
  have answered := Host.Outcome.next.inj ((ready
    { State.reset with ck := { State.reset.ck with
      arms := [{ bed := 0, job := 0, coord := 0, profile := 0, dest := 0, orch := 0xFFFF, d := { src := .mailbox 0 0 }, parts := [(1, 0)] }]
      rounds := [{ bed := 0, ckpt := 7, cut := 0, deadline := 0, evict := false }] } }
    { sender := 2, ckpt := 7 } _ (by decide +kernel) rfl).1 rfl)
  exact absurd (congrArg (fun t => t.ck.rounds.map CkRound.readies) answered) (by decide +kernel)

/-! ## Timers (R410 to R428) -/

/-- A shard is written when every session of it is captured, and its transcript is here or the time for it is over. -/
theorem State.shardWrite_due {s : State} {bed : Nat} {p : CkPart} {a : CkArm} (part : s.ckPart? bed = some p)
    (arm : s.ckArm? bed = some a) (phase : p.phase = 2) (idle : p.storing = false)
    (all : (p.sessions.all fun x => x.captured && (x.resolved || ftReached s.now (ftAdd p.cut 480))) = true) :
    s.shardWrite bed = s.writeShard p a := by
  have whole : (p.sessions.all fun x =>
      (x.captured || !s.ckBusy x.entry.sid) && (x.resolved || ftReached s.now (ftAdd p.cut 480))) = true := by
    rw [List.all_eq_true] at all ⊢
    intro x hx
    obtain ⟨captured, resolved⟩ := (Bool.and_eq_true _ _).mp (all x hx)
    rw [captured, resolved]
    rfl
  simp only [State.shardWrite, part, arm, phase, idle, whole]
  rfl

/-- Settles O33: each timer of checkpoints and restores acts when it is due. -/
theorem checkpointTimersRun : Obligations.CheckpointTimersRun := by
  refine ⟨?part, ?round, ?stage, ?layer⟩
  case part =>
    intro s bed p ha part
    refine ⟨fun phase due alone => next_live ha ?_, fun a arm phase idle all => next_live ha ?_, fun due => next_live ha ?_⟩
    · simp only [State.ckCut, part, phase, due, decide_true, Bool.and_self, if_true, alone]
    · exact State.shardWrite_due part arm phase idle all
    · simp only [State.ckOrphan, part, due, if_true]
  case round =>
    intro s bed r ha round unwritten due
    exact next_live ha (by simp only [State.ckDeadline, round, unwritten, due, Option.isNone_none, Bool.and_self, if_true])
  case stage =>
    intro s bed x ha staged free due
    exact next_live ha (by simp only [State.ckStageTtl, staged, free, due, Option.isNone_none, Bool.and_self, if_true])
  case layer =>
    intro s u sid x e q n p ha pull owner seq next profile more placed
    refine next_live ha ?_
    simp only [State.restoreLayer, pull, owner, seq, Option.bind_some, next, profile, placed, Nat.not_le.mpr more, decide_false,
      Bool.false_and, Bool.not_true, Bool.false_eq_true, if_false]

end Sys2Proof.Machine
end

section
/-! The rows of security (R431 to R456) and of the out-of-band reads of faults (R469). -/

namespace Sys2Proof.Machine

/-! ## Commands (R435 to R452) -/

/-- Settles O34: each security command on its success path. -/
theorem securityCommandsRun : Obligations.SecurityCommandsRun := by
  refine ⟨?keep, ?read⟩
  case keep =>
    rintro s u d hm rfl ready
    refine ⟨fun new => next_command hm ?_, fun t still accepted ht => next_command hm ?_,
      fun still configured => next_command hm ?_, fun still token => next_command hm ?_⟩
    · simp only [State.secOwnerEnroll, new, Option.isSome_none, Bool.false_eq_true, if_false, State.submitCmd_ready _ _ _ _ ready]
    · simp only [State.secBundleLoad, still, accepted, ready, ht, State.bundleTrans, Bool.not_true, Bool.false_eq_true, if_false]
    · simp only [State.secPartitionReset, still, configured, ready, Bool.not_true, Bool.false_eq_true, if_false]
    · simp only [State.secZeroize, still, token, ready, Bool.not_true, Bool.false_eq_true, if_false]
  case read =>
    rintro s u d hm rfl
    refine ⟨next_command hm rfl, next_command hm rfl, fun m may measured => next_command hm ?_⟩
    simp only [State.secMeasure, if_pos may, measured]

/-! ## Events and out-of-band requests (R432 to R456, R469) -/

/-- An operation that needs only the supply answers what it makes of a device with power. -/
theorem next_supplied {s : State} {f g : State → State} (on : s.pow.supply = .on) (h : f s = g s) :
    (Host.Outcome.next (s.supplied f) : Host.Outcome State Fault Refusal) = .next (s.apart g) :=
  congrArg _ ((if_pos on).trans (State.apart_congr h))

theorem next_supplied_eq {s t : State} {f : State → State} (on : s.pow.supply = .on) (h : f s = t) (hq : t.pending = s.pending) :
    (Host.Outcome.next (s.supplied f) : Host.Outcome State Fault Refusal) = .next t :=
  congrArg _ ((if_pos on).trans (State.apart_eq h hq))

/-- A byte string of five counters of four bytes. -/
theorem length_flatten_five_words (f : Nat → Nat) : (List.flatten ((List.range 5).map fun k => leBytes 4 (f k))).length = 20 := by
  simp [List.range_succ]

/-- The answer to a health request (R469): 48 bytes, that begin with FLT_STATE and end with Frame Time. -/
theorem State.healthRead_answer (s : State) : s.healthRead.sec.answer.length = 48 ∧
    s.healthRead.sec.answer.take 4 = leBytes 4 s.fltState ∧ s.healthRead.sec.answer.drop 40 = leBytes 8 s.now.toNat := by
  have counts := length_flatten_five_words fun k => s.rdN .FLT_COUNT_C 0 k
  refine ⟨?_, ?_, ?_⟩
  · simp only [State.healthRead, List.length_append, length_leBytes, counts, List.length_cons, List.length_nil]
  · simp only [State.healthRead, List.append_assoc]
    exact List.take_left' (length_leBytes 4 _)
  · refine List.drop_left' ?_
    simp only [List.length_append, length_leBytes, counts, List.length_cons, List.length_nil]

/-- Settles O35: each event of security and each out-of-band request with its effect. -/
theorem securityEventsRun : Obligations.SecurityEventsRun := by
  refine ⟨?event, ?tdisp, ?spdm, ?health⟩
  case event =>
    intro s ha
    refine ⟨?lapse, ?selftest, next_live ha rfl, ?ide, ?journal, next_live ha rfl, ?zeroize⟩
    case lapse =>
      intro n nonce due
      exact next_live_eq ha (by simp only [State.nonceLapse, nonce, Option.any_some, due, if_true]) rfl
    case selftest =>
      intro idle
      exact ⟨next_live ha (by simp only [State.selftest, idle, bne_self_eq_false, Bool.false_eq_true, if_false, if_true]),
        next_live ha (by simp only [State.selftest, idle, bne_self_eq_false, Bool.false_eq_true, if_false])⟩
    case ide =>
      intro ix x stream
      exact next_live ha (by simp only [State.ideFailure, stream])
    case journal =>
      intro start gap hgap
      exact ⟨fun f first => next_live_eq ha (by simp only [State.oobJournalRead, first, hgap]) rfl,
        fun none => next_live_eq ha (by simp only [State.oobJournalRead, none, hgap, List.map_nil, List.flatten_nil, List.nil_append]) rfl⟩
    case zeroize =>
      intro token
      refine ⟨fun allowed still ready ok => next_live ha ?_, fun closed => next_live_eq ha ?_ rfl⟩
      · simp only [State.oobZeroize, allowed, still, ready, ok, decide_true, Bool.not_false, Bool.and_self, if_true]
      · simp only [State.oobZeroize, closed, decide_false, Bool.false_and, Bool.false_eq_true, if_false]
  case tdisp =>
    intro s bed ha
    refine ⟨fun stream unlocked named secure => next_live ha ?_, fun locked => next_live ha (if_pos locked), next_live ha rfl,
      fun bound => next_live ha ?_⟩
    · simp only [State.tdispRequest, unlocked, bne_iff_ne.mpr named, secure, decide_true, Bool.and_self, if_true]
    · refine if_pos ?_
      rw [Bool.or_eq_true, decide_eq_true_iff, decide_eq_true_iff]
      exact bound
  case spdm =>
    intro s oob r on outside signed
    have allowed : (oob && !spdmOob r) = false := by
      cases oob with
      | false => rfl
      | true => rw [outside rfl]; rfl
    have ready : (spdmSigned r && decide (s.seq = 0)) = false ∧ (spdmSigned r && decide (s.seq = 6)) = false := by
      cases h : spdmSigned r with
      | false => exact ⟨rfl, rfl⟩
      | true => exact ⟨decide_eq_false (signed h).1, decide_eq_false (signed h).2⟩
    refine next_supplied on ?_
    simp only [State.spdmRequest, allowed, ready.1, ready.2, Bool.false_eq_true, if_false]
  case health =>
    intro s on
    refine ⟨fun start gap hgap => ⟨fun f first => next_supplied_eq on ?_ rfl, fun none => next_supplied_eq on ?_ rfl⟩, ?_⟩
    · simp only [State.faultRead, first, hgap]
    · simp only [State.faultRead, none, hgap, List.map_nil, List.flatten_nil, List.nil_append]
    · exact ⟨s.healthRead, next_supplied_eq on rfl rfl, rfl, rfl, s.healthRead_answer⟩

end Sys2Proof.Machine
end

section
/-! The rows of faults (R464 to R473) and of counters and traces (R474 to R490). -/

namespace Sys2Proof.Machine

/-! ## Faults (R464 to R473) -/

/-- A fault of a known source is recorded, ends what it aborts and reacts, unless it is the collector's own or a failed tag. -/
theorem State.raise_known {s : State} {f : Detect} {cls : Nat} (known : faultClass f.source = some cls) (other : f.source ≠ 0x41)
    (tag : f.tagFail = false) : s.raise f = ((s.recordFault f cls false false).abortedBy f cls).react f := by
  simp only [State.raise, known, beq_eq_false_iff_ne.mpr other, tag, Bool.and_false, Bool.false_and, Bool.false_eq_true, if_false]

/-- Settles O36: each row of fault reads, unfencing, tests, detections and injection with its effect. -/
theorem faultControlRuns : Obligations.FaultControlRuns := by
  refine ⟨?command, ?event⟩
  case command =>
    rintro s u d hm rfl
    refine ⟨fun f rs x first hrs hx => next_command hm ?_, fun none => next_command hm ?_, fun fenced => next_command hm ?_,
      fun fenced alive => next_command hm ?_⟩
    · simp only [State.fltLogRead, first, ← hrs, ← hx]
    · simp only [State.fltLogRead, none]
    · simp only [State.fltUnitUnfence, fenced, Bool.not_true, Bool.false_eq_true, if_false]
    · simp only [State.fltRegionRecover, fenced, alive, Bool.not_true, Bool.false_eq_true, if_false]
  case event =>
    intro s ha
    refine ⟨fun x pass => next_live ha rfl, fun r failed => next_live ha rfl,
      fun f cls known other tag => next_live ha (State.raise_known known other tag), fun x sid => next_live ha rfl,
      fun v arm => next_live ha ?_, fun bed v arm => next_live ha ?_, fun v u hu => ⟨fun still => next_live ha ?_, fun go enabled => next_live ha ?_⟩⟩
    · exact (s.hostWrite_runs _ ha).trans (if_pos arm)
    · exact (s.hostWrite_runs _ ha).trans (if_pos arm)
    · simp only [State.fltInject, s.hostWrite_runs _ ha, ← hu, still, decide_false, Bool.false_and, Bool.false_eq_true, if_false]
    · simp only [State.fltInject, s.hostWrite_runs _ ha, ← hu, go, enabled, decide_true, Bool.and_self, if_true]

/-! ## Counters and traces (R474 to R490) -/

/-- Settles O37: each row of counters and traces with its effect. -/
theorem observationRuns : Obligations.ObservationRuns := by
  refine ⟨?event, ?command⟩
  case event =>
    intro s ha
    refine ⟨fun set => next_live ha (s.hostWrite_runs _ ha), fun set => ⟨next_live ha (s.hostWrite_runs _ ha), next_live ha (s.hostWrite_runs _ ha)⟩,
      next_live ha (s.hostWrite_runs _ ha), next_live ha (s.hostWrite_runs _ ha), fun beds ready => next_live ha ?grant,
      fun b r rest staged => next_live ha ?drain, fun fn v u hu => ⟨fun wraps => next_live ha ?wraps, fun stop => next_live ha ?stop⟩⟩
    case grant => exact (s.hostWrite_runs _ ha).trans (if_pos ready)
    case drain => simp only [State.traceDrain, staged, s.active_safe ha, Bool.false_eq_true, if_false]
    case wraps => simp only [State.traceHead, s.hostWrite_runs _ ha, ← hu, wraps, if_true]
    case stop => simp only [State.traceHead, s.hostWrite_runs _ ha, ← hu, stop, Bool.false_eq_true, if_false]
  case command =>
    rintro s u d hm rfl
    exact ⟨next_command hm rfl, next_command hm rfl⟩

end Sys2Proof.Machine
end

section
/-! The rows of supplies, resets and links (R491 to R508). -/

namespace Sys2Proof.Machine

/-- The answer of a row that acts with or without power. -/
theorem next_apart_eq {s t : State} {f : State → State} (h : f s = t) (hq : t.pending = s.pending) :
    (Host.Outcome.next (s.apart f) : Host.Outcome State Fault Refusal) = .next t := congrArg _ (State.apart_eq h hq)

/-- The answer of a row that needs power, in the safe state or not. -/
theorem next_powered {s : State} {f g : State → State} (hp : s.powered = true) (h : f s = g s) :
    (Host.Outcome.next (s.awake f) : Host.Outcome State Fault Refusal) = .next (s.apart g) :=
  congrArg _ ((if_pos hp).trans (State.apart_congr h))

theorem next_powered_eq {s t : State} {f : State → State} (hp : s.powered = true) (h : f s = t) (hq : t.pending = s.pending) :
    (Host.Outcome.next (s.awake f) : Host.Outcome State Fault Refusal) = .next t :=
  congrArg _ (State.awake_eq hp h hq)

/-- The reset input acts on a device with power that is not in the safe state. -/
theorem reset_input_acts {s : State} (on : s.pow.supply = .on) (safe : s.flt.safe = false) :
    ¬ (s.pow.supply != .on || s.flt.safe) = true := by
  rw [on, safe]
  decide

/-- A training of every stack raises no fault. -/
theorem untrained_none : ((List.range 16).filter fun r => !bitSet (0xFFFF : W16).toNat r) = [] := by decide

/-- Settles O38: each row of supplies, resets, warnings and links with its effect. -/
theorem powerAndResetRun : Obligations.PowerAndResetRun := by
  refine ⟨?supply, ?powered, ?active⟩
  case supply =>
    intro s
    refine ⟨fun off => next_apart_eq ?_ rfl,
      fun strap ramp => congrArg _ (State.apart_congr ?_), fun on => congrArg _ (State.apart_congr ?_),
      fun on safe => ⟨?_, ?_⟩, fun on => ⟨next_supplied on rfl, next_supplied on rfl⟩⟩
    · simp only [State.powerOn, if_pos off]
    · simp only [State.powerOnRelease, if_pos ramp]
    · simp only [State.powerLoss, if_pos on]
    · exact congrArg _ (State.apart_congr (by simp only [State.resetInputLow, if_neg (reset_input_acts on safe)]))
    · exact congrArg _ (State.apart_congr (by simp only [State.resetInputHigh, if_neg (reset_input_acts on safe)]))
  case powered =>
    intro s hp
    exact ⟨next_powered hp rfl, next_powered hp rfl, fun cls sensor => ⟨next_powered hp rfl, next_powered_eq hp rfl rfl⟩,
      next_powered_eq hp rfl rfl, next_powered hp rfl, next_powered hp rfl⟩
  case active =>
    intro s ha
    refine ⟨fun early notReady => next_live ha ?train, fun u v seq trained keep unready hu hv => next_live ha ?ready,
      fun v device key => next_live ha ?reset, fun mask verified => next_live ha ?region, fun port width rate enabled fenced => next_live ha ?link⟩
    case train =>
      simp only [State.stackTraining, Nat.not_le.mpr early, notReady, decide_false, Bool.or_self, Bool.false_eq_true, if_false,
        untrained_none, List.foldl_nil]
      rfl
    case ready =>
      simp only [State.memoryReady, seq, trained, keep, unready, decide_true, Bool.and_self, if_true, ← hu, ← hv]
    case reset =>
      simp only [State.hubResetCtrl, s.hostWrite_runs _ ha, device, key, decide_true, Bool.and_self, if_true]
    case region =>
      exact (s.hostWrite_runs _ ha).trans (if_neg (Nat.not_lt.mpr verified))
    case link =>
      simp only [State.cxlLinkUp, enabled, fenced, s.active_safe ha, decide_false, Bool.or_self, Bool.false_eq_true, if_false]

end Sys2Proof.Machine
end
